-- ==== Sys2Proof/Word.lean ====
section
/-! DEFINITION. The word types of the model: bytes, the 32-bit words of layouts and FP32 values, the 64-bit
scalar registers of the control core, and the sparse map that every register file and memory of the state uses. -/

namespace Sys2Proof

/-- One byte of a memory, a message or a dictionary value. -/
abbrev Byte := BitVec 8

/-- A 32-bit word of a layout table (R7), or the bits of an FP32 value. -/
abbrev Word32 := BitVec 32

/-- A 64-bit scalar register of a control core (R142). -/
abbrev Word64 := BitVec 64

/-- The number of a scalar register, s0 to s31 (R142). -/
abbrev Reg := BitVec 5

/-- A sparse map in canonical form: keys strictly rising, and no entry equal to what an unlisted key reads as. -/
abbrev SMap (V : Type) := List (Nat × V)

end Sys2Proof
end

