-- ==== Sys2Proof/Machine/Bits.lean ====
section
/-! DEFINITION. Sparse maps, little-endian byte strings (R7), bit fields and two's-complement values: the small
helpers that every other file of the machine uses. -/

namespace Sys2Proof.Machine

/-- What a sparse map reads at key `i`; `d` is what an unlisted key reads as. -/
def mget {V : Type} (d : V) : SMap V → Nat → V
  | [], _ => d
  | (k, v) :: m, i => if k = i then v else mget d m i

/-- The map without key `i`. -/
def mdel {V : Type} : SMap V → Nat → SMap V
  | [], _ => []
  | (k, v) :: m, i => if k = i then mdel m i else (k, v) :: mdel m i

/-- `(i, v)` put before the first key above `i`. -/
def mins {V : Type} : SMap V → Nat → V → SMap V
  | [], i, v => [(i, v)]
  | (k, w) :: m, i, v => if i < k then (i, v) :: (k, w) :: m else (k, w) :: mins m i v

/-- A write of a sparse map: writing what an unlisted key reads as removes the entry. -/
def mset {V : Type} [DecidableEq V] (d : V) (m : SMap V) (i : Nat) (v : V) : SMap V :=
  if v = d then mdel m i else mins (mdel m i) i v

/-- The canonical form: keys strictly rising and no entry equal to `d`. -/
def mwf {V : Type} [DecidableEq V] (d : V) : SMap V → Bool
  | [] => true
  | [(_, v)] => v ≠ d
  | (k, v) :: (k', v') :: m => (v ≠ d) && decide (k < k') && mwf d ((k', v') :: m)

/-- A set of numbers kept as a rising list. -/
def sIns : List Nat → Nat → List Nat
  | [], i => [i]
  | k :: m, i => if i < k then i :: k :: m else if i = k then k :: m else k :: sIns m i

/-- A set without one number. -/
def sDel (m : List Nat) (i : Nat) : List Nat := m.filter (fun k => k ≠ i)

/-- Bits [lo + n − 1 : lo] of a number. -/
def bits (w lo n : Nat) : Nat := (w / 2 ^ lo) % 2 ^ n

/-- Bit `i` of a number. -/
def bitOf (w i : Nat) : Bool := (w / 2 ^ i) % 2 = 1

/-- A number's bit `i` set or cleared. -/
def setBitOf (w i : Nat) (b : Bool) : Nat :=
  if bitOf w i = b then w else if b then w + 2 ^ i else w - 2 ^ i

/-- Bits [lo + n − 1 : lo] of a number replaced by `v`. -/
def setBits (w lo n v : Nat) : Nat := w - bits w lo n * 2 ^ lo + (v % 2 ^ n) * 2 ^ lo

/-- The signed value of the low `n` bits. -/
def sx (n w : Nat) : Int :=
  if bitOf w (n - 1) then (w % 2 ^ n : Int) - 2 ^ n else (w % 2 ^ n : Int)

/-- A signed value as `n` two's-complement bits. -/
def ux (n : Nat) (v : Int) : Nat := (v % (2 ^ n : Int)).toNat

/-- 1 for true, 0 for false. -/
def b01 (b : Bool) : Nat := if b then 1 else 0

/-- The `n` little-endian bytes of a number (R7). -/
def leBytes : Nat → Nat → List Byte
  | 0, _ => []
  | n + 1, v => BitVec.ofNat 8 v :: leBytes n (v / 256)

/-- The number that little-endian bytes spell (R7). -/
def leNat : List Byte → Nat
  | [] => 0
  | b :: bs => b.toNat + 256 * leNat bs

/-- `n` bytes from offset `i`, as a number; bytes past the end count as 0. -/
def fld (bs : List Byte) (i n : Nat) : Nat := leNat ((bs.drop i).take n)

/-- Word `i` of a layout (R7). -/
def wd (bs : List Byte) (i : Nat) : Nat := fld bs (4 * i) 4

/-- Bits [lo + n − 1 : lo] of word `i` of a layout. -/
def wb (bs : List Byte) (i lo n : Nat) : Nat := bits (wd bs i) lo n

/-- A layout of 32-bit words as bytes. -/
def wordsLE (ws : List Nat) : List Byte := ws.flatMap (leBytes 4)

/-- Exactly `n` bytes: the string cut, or padded with zero bytes. -/
def padTo (n : Nat) (bs : List Byte) : List Byte := bs.take n ++ List.replicate (n - bs.length) 0

/-- A byte string cut in pieces of `k` bytes; `fuel` bounds the number of pieces. -/
def chunks : Nat → Nat → List Byte → List (List Byte)
  | 0, _, _ => []
  | fuel + 1, k, bs => if bs.isEmpty then [] else bs.take k :: chunks fuel k (bs.drop k)

/-- A byte string cut in records of `k` bytes. -/
def records (k : Nat) (bs : List Byte) : List (List Byte) := chunks bs.length k bs

/-- ASCII text as bytes. -/
def strBytes (s : String) : List Byte := s.toList.map (fun c => BitVec.ofNat 8 c.toNat)

/-- Numbers `0` to `n − 1` for which `p` holds, in rising order. -/
def upto (n : Nat) (p : Nat → Bool) : List Nat := (List.range n).filter p

/-- The first number below `n` for which `p` holds. -/
def firstBelow (n : Nat) (p : Nat → Bool) : Option Nat := (List.range n).find? p

/-- `f` done for each number below `n`, in rising order. -/
def forN {σ : Type} (n : Nat) (s : σ) (f : σ → Nat → σ) : σ := (List.range n).foldl f s

/-- A counter that advances modulo 2 to its width. -/
def bump (width x : Nat) : Nat := (x + 1) % 2 ^ width

/-- Counter `a` is newer than counter `b` (R29). -/
def newer (n a b : Nat) : Bool :=
  let d := (a + 2 ^ n - b % 2 ^ n) % 2 ^ n
  decide (1 ≤ d ∧ d ≤ 2 ^ (n - 1) - 1)

/-- Element `i` of a list replaced. -/
def lset {α : Type} : List α → Nat → α → List α
  | [], _, _ => []
  | _ :: t, 0, v => v :: t
  | h :: t, i + 1, v => h :: lset t i v

/-! Byte memories: sparse maps whose unlisted addresses read as 0. -/

/-- One byte of a memory. -/
def rdByte (m : List Host.Cell) (a : Nat) : Byte := mget 0 m a

/-- One byte written. -/
def wrByte (m : List Host.Cell) (a : Nat) (b : Byte) : List Host.Cell := mset 0 m a b

/-- The bytes of a rising list at `a`, `a + 1`, …; the list holds no address below `a`. -/
def fillFrom : Nat → Nat → List Host.Cell → List Byte
  | _, 0, _ => []
  | a, n + 1, [] => 0 :: fillFrom (a + 1) n []
  | a, n + 1, (k, v) :: m => if k = a then v :: fillFrom (a + 1) n m else 0 :: fillFrom (a + 1) n ((k, v) :: m)

/-- `n` bytes from address `a`. -/
def rdBytes (m : List Host.Cell) (a n : Nat) : List Byte :=
  fillFrom a n (m.dropWhile (fun c => c.1 < a))

/-- Bytes as cells from address `a`, zero bytes left out. -/
def cellsOf : Nat → List Byte → List Host.Cell
  | _, [] => []
  | a, b :: bs => if b = 0 then cellsOf (a + 1) bs else (a, b) :: cellsOf (a + 1) bs

/-- A byte string written from address `a`. -/
def wrBytes (m : List Host.Cell) (a : Nat) (bs : List Byte) : List Host.Cell :=
  m.filter (fun c => c.1 < a) ++ cellsOf a bs ++ m.filter (fun c => a + bs.length ≤ c.1)

end Sys2Proof.Machine
end

