-- ==== Sys2Proof/Syntax.lean ====
section
/-! DEFINITION. The commands: one constructor of `Instr` per row of spec/opcode_table.json, and the types of
their operands. A command is one indivisible step of the package (spec/95_what_each_step_holds.md). What the
step takes from outside the package (a frame that arrives, a reading of a sensor, bytes that a DMA read
returned, a residue mismatch in a cell) is an operand. -/

namespace Sys2Proof

/-- The two parts of the family (R2). -/
inductive Part where
  | hn9_8x
  | hn9_6l
deriving DecidableEq, Repr

/-- A carrier address, to which a session is bound (R273). -/
inductive Carrier where
  /-- The management port: source address and UDP port. -/
  | udp (addr : Nat) (port : Nat)
  /-- The PF1 mailbox slot that holds the request. -/
  | pf1 (slot : Nat)
  /-- The Millrace sideband: the source installation position. -/
  | sideband (position : Nat)
deriving DecidableEq, Repr

/-- One NAP request: the fields of *NAP frame header* (R268), the value bytes and the tag. -/
structure NapReq where
  carrier : Carrier
  opcode  : Nat
  staged  : Bool
  last    : Bool
  session : Nat
  seq     : Nat
  index   : Nat
  sub     : Nat
  type    : Nat
  offset  : Nat
  total   : Nat
  value   : List Byte
  /-- The 16-byte tag when AUTH is set (R281); empty when it is not. -/
  tag     : List Byte
  /-- STATUS and DETAIL of the header, which a request leaves at 0 and its tag covers all the same (R268, R281). -/
  status  : Nat
  detail  : Nat
  /-- The sender's MASTER_EPOCH, which a cascade command carries (R231, assumption 63). -/
  epoch   : Nat
deriving DecidableEq, Repr

/-- What a PF0 DMA read of host memory returned (R370, R371). -/
inductive DmaRead where
  | data (bytes : List Byte)
  /-- The cause codes of DMA_ERROR: 1 unsupported request, 2 completer abort, 3 poisoned, 4 timeout. -/
  | failed (cause : Nat)
deriving DecidableEq, Repr

/-- A slot image that a restore reads (R260, R261): the old position, the slot and the bytes read. -/
structure SlotImage where
  position : Nat
  slot     : Nat
  image    : DmaRead
deriving DecidableEq, Repr

/-- What the release steps find outside the package's own stores (R211, R347, R364, R340). -/
structure BootEnv where
  /-- Backwater channels, DIMMs per channel and DIMM size code found by the hub, trained at BW_RATE. -/
  bwChannels   : Nat
  bwDimmsPerCh : Nat
  bwDimmSize   : Nat
  /-- Sensors that read tripped at step 2 of *Release order* (R364). -/
  sensors      : List Nat
  /-- The save store can be written (R30). -/
  saveStoreOk  : Bool
deriving DecidableEq, Repr

/-- The readings of one control interval (R326, R330, R334): a rail reading is millivolts and watts, or
nothing when the regulator did not answer. Temperatures are in 0.1 degrees. -/
structure Readings where
  rails  : List (Option (Nat × Nat))
  dieT   : List Int
  stackT : List Int
deriving DecidableEq, Repr

/-- A Kolfin frame as its receiver sees it (R16): whether its CRC is good, its sequence number, the virtual
channel of its packet, the packet's bytes and the credits it returns per channel. -/
structure KolfinFrame where
  crcGood : Bool
  seq     : Nat
  vc      : Nat
  payload : List Byte
  credits : List Nat
deriving DecidableEq, Repr

/-- How one step of *Die rejoin* ended (R318): the step and the status code, 0 for success. -/
structure RejoinOutcome where
  step   : Nat
  status : Nat
deriving DecidableEq, Repr

/-- A page record of the BKG channel (R376). -/
structure PageRecord where
  step      : Nat
  address   : Nat
  tilePage  : Bool
  tileCount : Nat
  /-- The CRC-32 carried in the header, over header bytes 0 to 27 and the page bytes. -/
  crc       : Word32
  bytes     : List Byte
  /-- The record ends the image of its step: the configuration record follows in `config`. -/
  lastPage  : Bool
  config    : List Byte
deriving DecidableEq, Repr

/-- A port frame as its receiver sees it (R375, R379). -/
structure PortFrame where
  crcGood     : Bool
  /-- A codeword that touches the frame could not be corrected. -/
  condemned   : Bool
  /-- Symbols corrected and codewords not correctable while the frame was received. -/
  corrected   : Nat
  uncorrected : Nat
  seq         : Nat
  ack         : Nat
  nak         : Bool
  pvc         : Nat
  creditPvc   : Nat
  creditCount : Nat
  payload     : List Byte
deriving DecidableEq, Repr

/-- A link-authentication message (*Link authentication*, R361). -/
inductive LinkAuth where
  /-- Step 1: certificate, nonce, JOB_POSITION and port number. -/
  | hello (cert nonce : List Byte) (position port : Nat)
  /-- Step 2, from the initiator: an encapsulation key. -/
  | encapKey (key : List Byte)
  /-- Step 3, from the responder: the ciphertext. -/
  | ciphertext (ct : List Byte)
  /-- Step 4: the peer's signature. -/
  | signature (sig : List Byte)
deriving DecidableEq, Repr

/-- A frame at the management port (R382), by what it carries. -/
inductive MgmtFrame where
  | tagged
  | pause
  | arp (targetIp : Nat)
  | icmp4 (fragmented : Bool)
  | neighbour (duplicateOwn : Bool)
  | icmp6 (fragmented : Bool)
  | udp (ipv6 : Bool) (fragmented : Bool) (checksumGood : Bool) (srcAddr srcPort dstAddr dstPort : Nat) (payload : List Byte)
  | other
deriving DecidableEq, Repr

/-- The commands, one per row of spec/opcode_table.json. A core is named by its coordinate 16 × d + c (R12). -/
inductive Instr where
  /-- POWER_ON_RESET (R337). VAUX falls below 2.9 V and the package enters power-on reset. -/
  | powerOnReset
  /-- POWER_ON_RESET_END (R337). PWRGD_IN and every rail have been good for 10 ms nominal, so power-on reset ends and a reset stretch begins. -/
  | powerOnResetEnd
  /-- RESET_N_ASSERT (R338). A qualified low on RESET_N starts a reset and its stretch. -/
  | resetNAssert (lowNs : Nat)
  /-- RESET_STRETCH_END (R339). The 29 ms nominal stretch ends, RESET_N is released, and the blocks begin to leave reset in release order. -/
  | resetStretchEnd (pinLow : Bool) (env : BootEnv)
  /-- RESET_N_RELEASE (R339). RESET_N, held low externally after the stretch, reads high and the reset hold ends. -/
  | resetNRelease (env : BootEnv)
  /-- PLL_LOCK (R28). A PLL reports lock and releases its clocked domain from reset. -/
  | pllLock (domain : Nat)
  /-- PLL_LOCK_LOSS (R28). A PLL loses lock, so its domain returns to local reset and its boundary queues return entries as errors. -/
  | pllLockLoss (domain : Nat)
  /-- SUPPLY_SAG (R345). A qualified sag of VHUB, VMEM or VIO, or PWRGD_IN low, starts the save sequence. -/
  | supplySag (source : Nat)
  /-- VCORE_EXCURSION (R324). A VCORE rail leaves its window for 5 µs, so the die resets itself and is fenced. -/
  | vcoreExcursion (die : Nat) (millivolts : Nat)
  /-- CONTROL_INTERVAL (R330). Each 1 ms nominal control interval reads the rails and runs the power loop. -/
  | controlInterval (readings : Readings)
  /-- THERMAL_TRIP (R335). A junction at 115 °C or a stack at 105 °C trips, records THERMAL_TRIP and runs the save sequence. -/
  | thermalTrip (unit : Nat) (deciC : Int)
  /-- HOLDUP_TIMEOUT (R347). VHOLD has not reached 11.4 V within 2 s nominal of PWRGD_IN, so HOLDUP_STATE becomes 2. -/
  | holdupTimeout
  /-- RESET_REQUEST (R336). The owner's write makes the package stretch RESET_N itself. -/
  | resetRequest (r : NapReq)
  /-- OB_WRITE (R343). A checked option-byte value is written over the copy not in force, for the next reset. -/
  | obWrite (r : NapReq)
  /-- BEAT_WINDOW_CLOSE (R26). A 1 ms nominal beat-monitor window ends and BEAT_RATE is updated. -/
  | beatWindowClose (die : Nat) (completions : List Nat)
  /-- DELAY_COUNTER_CALIBRATE (R32). Every 4 ms nominal the delay counter recalibrates against its reference. -/
  | delayCounterCalibrate (unit : Nat)
  /-- MATCHED_DELAY_CALIBRATE (R321). The calibration rotation compares a matched delay with its replica and adjusts it within the margin. -/
  | matchedDelayCalibrate (path : Nat) (replica : Nat) (proposed : Nat)
  /-- KOLFIN_FRAME_SEND (R21). A link sender or hub-switch output arbitrates and sends the next Kolfin frame. -/
  | kolfinFrameSend (sender : Nat)
  /-- KOLFIN_FRAME_RECEIVE (R16). A Kolfin receiver checks CRC and sequence, then delivers the frame or discards it and asks for a replay. -/
  | kolfinFrameReceive (link : Nat) (frame : KolfinFrame)
  /-- KOLFIN_RETRAIN (R313). A Kolfin link resets its PHYs and runs the PRBS-31 lane test. -/
  | kolfinRetrain (link : Nat) (cleanLanes : BitVec 64)
  /-- LANE_OFFER_RECEIVE (R314). An offer or echo frame arrives and the agreed width is computed or confirmed. -/
  | laneOfferReceive (link : Nat) (words : List (BitVec 32))
  /-- LANE_OFFER_TIMEOUT (R314). No good frame arrives within 2 ms nominal, so the link retrains. -/
  | laneOfferTimeout (link : Nat)
  /-- KEEPALIVE_TIMEOUT (R316). A die's control fabric misses HD's keep-alive for 10 ms nominal and the die resets itself. -/
  | keepaliveTimeout (die : Nat)
  /-- DIE_FENCE (R317). HD fences a compute die, completes its pending transactions with DIE_ABSENT and records DIE_FENCED. -/
  | dieFence (die : Nat) (cause : Nat)
  /-- DIE_REJOIN (R318). The owner starts the rejoin of a fenced die. -/
  | dieRejoin (r : NapReq)
  /-- DIE_REJOIN_COMPLETE (R318). A rejoin step completes, and the die is rejoined or stays fenced. -/
  | dieRejoinComplete (outcome : RejoinOutcome)
  /-- CORE_SUBSTITUTION (R306). The die's spare core takes over a quarantined core's coordinate and state. -/
  | coreSubstitution (core : Nat)
  /-- SCRUB_LINE (R320). Patrol scrub reads a line and corrects, poisons or retires it. -/
  | scrubLine (tier : Nat) (line : Nat) (struck : List (Nat × Nat))
  /-- ROW_DISTURB_REFRESH (R322). A row reaching 4,096 activations has its neighbouring rows refreshed. -/
  | rowDisturbRefresh (stack : Nat) (row : Nat)
  /-- EPOCH_CLOSE (R198). An epoch ends and page heat is decayed. -/
  | epochClose
  /-- PAGE_MOVE_COMPLETE (R204). A page move's copy ends and the page is remapped, or the move is voided or abandoned. -/
  | pageMoveComplete (page : Nat)
  /-- DEMAND_PROMOTION_COMPLETE (R201). A Backwater frame read for a demand promotion is delivered and written to a stack frame. -/
  | demandPromotionComplete (page : Nat)
  /-- MERGE_LOCK_GRANT (R191). A tile's merge lock frees and a waiting tile write proceeds. -/
  | mergeLockGrant (tileAddr : Nat)
  /-- RESERVED_INSTRUCTION (R143). A reserved class, function or register encoding makes the control core fault. -/
  | reservedInstruction (core : Nat) (word : BitVec 32)
  /-- ADD (R143). The ALU adds two registers. -/
  | add (core : Nat) (rd ra rb : Reg)
  /-- SUB (R143). The ALU subtracts two registers. -/
  | sub (core : Nat) (rd ra rb : Reg)
  /-- AND (R143). The ALU takes the bitwise AND of two registers. -/
  | and (core : Nat) (rd ra rb : Reg)
  /-- OR (R143). The ALU takes the bitwise OR of two registers. -/
  | or (core : Nat) (rd ra rb : Reg)
  /-- XOR (R143). The ALU takes the bitwise XOR of two registers. -/
  | xor (core : Nat) (rd ra rb : Reg)
  /-- SHL (R143). The ALU shifts a register left. -/
  | shl (core : Nat) (rd ra rb : Reg)
  /-- SHR (R143). The ALU shifts a register right logically. -/
  | shr (core : Nat) (rd ra rb : Reg)
  /-- SRA (R143). The ALU shifts a register right arithmetically. -/
  | sra (core : Nat) (rd ra rb : Reg)
  /-- MUL (R143). The ALU multiplies two registers. -/
  | mul (core : Nat) (rd ra rb : Reg)
  /-- MULHU (R143). The ALU gives the high half of an unsigned product. -/
  | mulhu (core : Nat) (rd ra rb : Reg)
  /-- SLT (R143). The ALU sets a register on a signed less-than. -/
  | slt (core : Nat) (rd ra rb : Reg)
  /-- SLTU (R143). The ALU sets a register on an unsigned less-than. -/
  | sltu (core : Nat) (rd ra rb : Reg)
  /-- MIN (R143). The ALU takes the signed minimum of two registers. -/
  | min (core : Nat) (rd ra rb : Reg)
  /-- MAX (R143). The ALU takes the signed maximum of two registers. -/
  | max (core : Nat) (rd ra rb : Reg)
  /-- FADD (R118). The ALU adds two FP32 values. -/
  | fadd (core : Nat) (rd ra rb : Reg)
  /-- FMUL (R118). The ALU multiplies two FP32 values. -/
  | fmul (core : Nat) (rd ra rb : Reg)
  /-- FMAX (R118). The ALU takes the FP32 maximum. -/
  | fmax (core : Nat) (rd ra rb : Reg)
  /-- FLT (R118). The ALU makes an FP32 less-than comparison. -/
  | flt (core : Nat) (rd ra rb : Reg)
  /-- ADDI (R143). The ALU adds a sign-extended immediate. -/
  | addi (core : Nat) (rd ra : Reg) (imm : BitVec 12)
  /-- SUBI (R143). The ALU subtracts a sign-extended immediate. -/
  | subi (core : Nat) (rd ra : Reg) (imm : BitVec 12)
  /-- ANDI (R143). The ALU ANDs with an immediate. -/
  | andi (core : Nat) (rd ra : Reg) (imm : BitVec 12)
  /-- ORI (R143). The ALU ORs with an immediate. -/
  | ori (core : Nat) (rd ra : Reg) (imm : BitVec 12)
  /-- XORI (R143). The ALU XORs with an immediate. -/
  | xori (core : Nat) (rd ra : Reg) (imm : BitVec 12)
  /-- SHLI (R143). The ALU shifts left by an immediate. -/
  | shli (core : Nat) (rd ra : Reg) (imm : BitVec 12)
  /-- SHRI (R143). The ALU shifts right logically by an immediate. -/
  | shri (core : Nat) (rd ra : Reg) (imm : BitVec 12)
  /-- SRAI (R143). The ALU shifts right arithmetically by an immediate. -/
  | srai (core : Nat) (rd ra : Reg) (imm : BitVec 12)
  /-- MULI (R143). The ALU multiplies by an immediate. -/
  | muli (core : Nat) (rd ra : Reg) (imm : BitVec 12)
  /-- MULHUI (R143). The ALU gives the high half of an unsigned product with an immediate. -/
  | mulhui (core : Nat) (rd ra : Reg) (imm : BitVec 12)
  /-- SLTI (R143). The ALU makes a signed less-than against an immediate. -/
  | slti (core : Nat) (rd ra : Reg) (imm : BitVec 12)
  /-- SLTUI (R143). The ALU makes an unsigned less-than against an immediate. -/
  | sltui (core : Nat) (rd ra : Reg) (imm : BitVec 12)
  /-- MINI (R143). The ALU takes the signed minimum with an immediate. -/
  | mini (core : Nat) (rd ra : Reg) (imm : BitVec 12)
  /-- MAXI (R143). The ALU takes the signed maximum with an immediate. -/
  | maxi (core : Nat) (rd ra : Reg) (imm : BitVec 12)
  /-- LUI (R143). A 16-bit immediate is written into one quarter of a register. -/
  | lui (core : Nat) (quarter : BitVec 2) (rd : Reg) (imm : BitVec 16)
  /-- LD8 (R143). A byte is loaded from scalar data memory. -/
  | ld8 (core : Nat) (rd ra : Reg) (imm : BitVec 14)
  /-- LD16 (R143). A 16-bit value is loaded from scalar data memory. -/
  | ld16 (core : Nat) (rd ra : Reg) (imm : BitVec 14)
  /-- LD32 (R143). A 32-bit value is loaded from scalar data memory. -/
  | ld32 (core : Nat) (rd ra : Reg) (imm : BitVec 14)
  /-- LD64 (R143). A 64-bit value is loaded from scalar data memory. -/
  | ld64 (core : Nat) (rd ra : Reg) (imm : BitVec 14)
  /-- ST8 (R143). A byte is stored to scalar data memory, with the scale-table and adapter-table checks applied. -/
  | st8 (core : Nat) (rs ra : Reg) (imm : BitVec 14)
  /-- ST16 (R143). A 16-bit value is stored to scalar data memory. -/
  | st16 (core : Nat) (rs ra : Reg) (imm : BitVec 14)
  /-- ST32 (R143). A 32-bit value is stored to scalar data memory. -/
  | st32 (core : Nat) (rs ra : Reg) (imm : BitVec 14)
  /-- ST64 (R143). A 64-bit value is stored to scalar data memory. -/
  | st64 (core : Nat) (rs ra : Reg) (imm : BitVec 14)
  /-- BEQ (R143). The core branches if two registers are equal. -/
  | beq (core : Nat) (ra rb : Reg) (offset : BitVec 14)
  /-- BNE (R143). The core branches if two registers differ. -/
  | bne (core : Nat) (ra rb : Reg) (offset : BitVec 14)
  /-- BLT (R143). The core branches on a signed less-than. -/
  | blt (core : Nat) (ra rb : Reg) (offset : BitVec 14)
  /-- BGE (R143). The core branches on a signed greater-or-equal. -/
  | bge (core : Nat) (ra rb : Reg) (offset : BitVec 14)
  /-- BLTU (R143). The core branches on an unsigned less-than. -/
  | bltu (core : Nat) (ra rb : Reg) (offset : BitVec 14)
  /-- BGEU (R143). The core branches on an unsigned greater-or-equal. -/
  | bgeu (core : Nat) (ra rb : Reg) (offset : BitVec 14)
  /-- CALL (R143). The core branches and links PC + 1 into s31. -/
  | call (core : Nat) (offset : BitVec 14)
  /-- JR (R143). The core jumps to a register target and writes the link. -/
  | jr (core : Nat) (rd ra : Reg)
  /-- DESC (R147). A 64-byte descriptor is copied into a work queue and its issue number is returned. -/
  | desc (core : Nat) (queue : BitVec 3) (rd ra : Reg)
  /-- WAIT (R151). The core waits for a queue's descriptors up to n to retire. -/
  | wait (core : Nat) (queue : BitVec 3) (rd ra : Reg)
  /-- WAIT_RETURN (R151). The awaited descriptors have retired and WAIT returns the first unreported error code. -/
  | waitReturn (core : Nat)
  /-- PICK (R144). The control core asks the pick function for the next work item. -/
  | pick (core : Nat) (rd : Reg)
  /-- PICK_ANSWER (R52). A waiting pick is answered when a rank becomes allowed, and the pick record is written. -/
  | pickAnswer (core : Nat)
  /-- QRD (R123). A summary register word is read once its pending descriptors complete. -/
  | qrd (core : Nat) (q : BitVec 3) (word : BitVec 2) (rd : Reg)
  /-- FTQRD (R126). The oldest unreleased finished-tile entry is read into registers. -/
  | ftqrd (core : Nat) (rd : Reg)
  /-- SETVL (R114). The vector length register is set. -/
  | setvl (core : Nat) (ra : Reg)
  /-- GETVL (R143). The vector length register is read. -/
  | getvl (core : Nat) (rd : Reg)
  /-- OXB (R145). One Oxbow entry is enqueued. -/
  | oxb (core : Nat) (ra rb : Reg)
  /-- DRAIN (R145). The drain point of a layer is declared for the step. -/
  | drain (core : Nat) (ra rb : Reg)
  /-- STEPEND (R146). The program waits for the package to pass the step boundary. -/
  | stepend (core : Nat) (rd : Reg)
  /-- TOKRD (R152). The oldest error token is removed from the error log. -/
  | tokrd (core : Nat) (rd : Reg)
  /-- HALT (R143). The control core halts. -/
  | halt (core : Nat)
  /-- MM (R97). A matrix engine runs a descriptor's groups into an accumulator bank. -/
  | mm (core engine : Nat) (mismatches : List (List (Nat × Nat)))
  /-- MMF (R109). An engine runs an adapter-fused product for the micro-batch's variant. -/
  | mmf (core engine : Nat) (mismatches : List (List (Nat × Nat)))
  /-- EPILOGUE (R104). A bank is converted, written to core SRAM and posted to the finished-tile queue when it has room. -/
  | epilogue (core engine : Nat)
  /-- VEC_ADD (R118). The vector engine adds elements. -/
  | vecAdd (core : Nat)
  /-- VEC_SUB (R118). The vector engine subtracts elements. -/
  | vecSub (core : Nat)
  /-- VEC_MUL (R118). The vector engine multiplies elements. -/
  | vecMul (core : Nat)
  /-- VEC_FMA (R118). The vector engine does a fused multiply-add. -/
  | vecFma (core : Nat)
  /-- VEC_MAX (R88). The vector engine takes elementwise maxima. -/
  | vecMax (core : Nat)
  /-- VEC_MIN (R88). The vector engine takes elementwise minima. -/
  | vecMin (core : Nat)
  /-- VEC_ABS (R118). The vector engine takes absolute values. -/
  | vecAbs (core : Nat)
  /-- VEC_NEG (R118). The vector engine negates elements. -/
  | vecNeg (core : Nat)
  /-- VEC_SCL (R118). The vector engine scales elements by 2 to the n. -/
  | vecScl (core : Nat)
  /-- VEC_RCP (R118). The vector engine takes correctly rounded reciprocals. -/
  | vecRcp (core : Nat)
  /-- VEC_RSQ (R118). The vector engine takes reciprocal square roots. -/
  | vecRsq (core : Nat)
  /-- CMP_EQ (R120). An equality compare writes a mask. -/
  | cmpEq (core : Nat)
  /-- CMP_NE (R120). An inequality compare writes a mask. -/
  | cmpNe (core : Nat)
  /-- CMP_LT (R120). A less-than compare writes a mask. -/
  | cmpLt (core : Nat)
  /-- CMP_LE (R120). A less-or-equal compare writes a mask. -/
  | cmpLe (core : Nat)
  /-- CMP_GT (R120). A greater-than compare writes a mask. -/
  | cmpGt (core : Nat)
  /-- CMP_GE (R120). A greater-or-equal compare writes a mask. -/
  | cmpGe (core : Nat)
  /-- VEC_SEL (R119). Elements are selected by a mask. -/
  | vecSel (core : Nat)
  /-- VEC_FN (R130). The forward function table is evaluated. -/
  | vecFn (core : Nat)
  /-- VEC_FNB (R130). The derivative table is evaluated and multiplied by the gradient. -/
  | vecFnb (core : Nat)
  /-- MAND (R120). Masks are ANDed. -/
  | mand (core : Nat)
  /-- MOR (R120). Masks are ORed. -/
  | mor (core : Nat)
  /-- MXOR (R120). Masks are XORed. -/
  | mxor (core : Nat)
  /-- MNOT (R120). A mask is inverted. -/
  | mnot (core : Nat)
  /-- MFIRST (R120). A mask gets bits 0 to VL − 1 set. -/
  | mfirst (core : Nat)
  /-- RED_MAX (R122). Elements are folded into a summary register by maximum. -/
  | redMax (core : Nat)
  /-- RED_AMAX (R122). Magnitudes are folded into a summary register by maximum. -/
  | redAmax (core : Nat)
  /-- RED_SUM (R122). Finite elements are summed into a summary register in fixed order. -/
  | redSum (core : Nat)
  /-- RED_CNT (R122). Unmasked elements are counted into NF_COUNT. -/
  | redCnt (core : Nat)
  /-- VEC_MOV (R116). Elements are moved or converted between registers and memory. -/
  | vecMov (core : Nat)
  /-- LNORM (R136). The row engine runs forward layer normalisation. -/
  | lnorm (core : Nat)
  /-- RMSNORM (R136). The row engine runs forward RMS normalisation. -/
  | rmsnorm (core : Nat)
  /-- LNORM_BWD (R137). The row engine runs the layer-norm backward pass. -/
  | lnormBwd (core : Nat)
  /-- RMSNORM_BWD (R137). The row engine runs the RMS-norm backward pass. -/
  | rmsnormBwd (core : Nat)
  /-- SMAX (R138). The row engine runs a soft-maximum over rows. -/
  | smax (core : Nat)
  /-- SMAX_BWD (R139). The row engine runs the soft-maximum backward pass. -/
  | smaxBwd (core : Nat)
  /-- SMAX_PART (R140). The row engine runs one online soft-maximum tile. -/
  | smaxPart (core : Nat)
  /-- SMAX_FINAL (R140). The row engine finalises online soft-maximum rows. -/
  | smaxFinal (core : Nat)
  /-- ROWDOT (R139). The row engine computes a row dot product into STAT_C. -/
  | rowdot (core : Nat)
  /-- COPY (R190). The tile mover copies bytes between device addresses. -/
  | copy (core : Nat)
  /-- PACK (R197). The tile mover packs raw tiles into a packed sequence. -/
  | pack (core : Nat)
  /-- UNPACK (R197). The tile mover unpacks a packed sequence into raw tiles. -/
  | unpack (core : Nat)
  /-- SDM_RD (R11). Data is moved from a device address into scalar data memory. -/
  | sdmRd (core : Nat)
  /-- SDM_WR (R11). Data is moved from scalar data memory to a device address. -/
  | sdmWr (core : Nat)
  /-- SEND (R149). A Millrace send descriptor is checked and its header is built. -/
  | send (core : Nat)
  /-- MILLRACE_MESSAGE_SEND (R48). A send with enough credit leaves and its credit is subtracted. -/
  | millraceMessageSend (core : Nat)
  /-- RSEND (R219). A reduction send contributes its tiles to a collective. -/
  | rsend (core : Nat)
  /-- RSEND_DRAIN_RELEASE (R57). The layer's run count reaches its drain point and the held RSEND leaves. -/
  | rsendDrainRelease (core : Nat)
  /-- RECV (R150). The next accepted message of the micro-batch is delivered to scalar memory. -/
  | recv (core : Nat)
  /-- REL (R150). The oldest held tiles of a stream side are released. -/
  | rel (core : Nat)
  /-- UFETCH (R184). The optimiser state of a tile range is promoted and pinned in the stacks. -/
  | ufetch (core : Nat)
  /-- MILLRACE_MESSAGE_RECEIVE (R44). A Sluice checks an arriving message and accepts it, discards it as late, or faults the stream. -/
  | millraceMessageReceive (core : Nat) (message : List Byte)
  /-- CREDIT_RETURN_RECEIVE (R50). A sender applies a credit return or faults the stream. -/
  | creditReturnReceive (streamId side count : Nat)
  /-- UPDATE_TILE_ARRIVE (R168). Tributary delivers a reduced gradient tile into the arrival buffer. -/
  | updateTileArrive (die : Nat)
  /-- UPDATE_TILE_APPLY (R169). The head tile of the arrival buffer is discarded, held or applied. -/
  | updateTileApply (die : Nat)
  /-- SEQUENCER_PROGRAM_START (R176). The sequencer starts a tensor's matrix-rule program once its conditions hold. -/
  | sequencerProgramStart (die tensor : Nat)
  /-- SEQUENCER_PROGRAM_END (R177). A sequencer program passes its output tiles to the update lanes. -/
  | sequencerProgramEnd (die tensor : Nat)
  /-- VOTE_REPORT_SEND (R179). When the step's reductions are applied, the package sends its vote report. -/
  | voteReportSend
  /-- VOTE_REPORT (R231). A master receives a vote report, aggregates it, and the root decides the verdict. -/
  | voteReport (r : NapReq)
  /-- VERDICT (R179). A package acts on an APPLY or SKIP verdict. -/
  | verdict (r : NapReq)
  /-- STEP_BOUNDARY (R236). The package passes the step boundary. -/
  | stepBoundary
  /-- TRIBUTARY_MESSAGE_SEND (R224). A ring message is sent once its tiles lie inside the neighbour's window. -/
  | tributaryMessageSend (collective phase dir : Nat)
  /-- TRIBUTARY_MESSAGE_RECEIVE (R225). A ring message is checked and its tiles are added, forwarded, delivered or written. -/
  | tributaryMessageReceive (port : Nat) (message : List Byte)
  /-- PERMUTE_DONE (R228). A master receives a permute-done report, and the root broadcasts LAYOUT_COMMIT. -/
  | permuteDone (r : NapReq)
  /-- LAYOUT_COMMIT (R228). The package moves to the new layout generation, re-creates streams and restarts cores. -/
  | layoutCommit (r : NapReq)
  /-- HEARTBEAT_SEND (R232). Every 100 ms nominal the package writes HEARTBEAT to its master, members or root. -/
  | heartbeatSend
  /-- HEARTBEAT (R232). A heartbeat is received and its ROOT_LIVE flag noted. -/
  | heartbeat (r : NapReq)
  /-- HEARTBEAT_TIMEOUT (R232). No heartbeat for 500 ms nominal, so the master declares the member lost. -/
  | heartbeatTimeout (position : Nat)
  /-- DEPUTY_TAKEOVER (R232). The deputy misses the master's heartbeat for 500 ms nominal and takes over. -/
  | deputyTakeover
  /-- ROOT_LOSS_HALT (R232). After 1,000 ms nominal without a root heartbeat the package halts. -/
  | rootLossHalt
  /-- TAKEOVER_MASTER (R232). Members adopt the deputy as master with its new epoch. -/
  | takeoverMaster (r : NapReq)
  /-- TAKEOVER (R233). A spare adopts a lost position, its links and buddy. -/
  | takeover (r : NapReq)
  /-- FAULT_REPORT (R239). A fault report reaches a master or the root, and the root may start a rollback. -/
  | faultReport (r : NapReq)
  /-- COMMIT_READY (R237). A master collects readiness, and the root commits the step. -/
  | commitReady (r : NapReq)
  /-- STEP_COMMIT (R238). The package commits a step, frees shadows and journals it. -/
  | stepCommit (r : NapReq)
  /-- ROLLBACK (R240). The package rolls back to step T. -/
  | rollback (r : NapReq)
  /-- RESTART_READY (R240). A master collects restart readiness, and the root writes RESTART. -/
  | restartReady (r : NapReq)
  /-- RESTART (R240). Cores start at ENTRY with the step carried. -/
  | restart (r : NapReq)
  /-- BUDDY_PAGE_SEND (R244). A changed page or configuration record is sent to the holder within the drain share. -/
  | buddyPageSend
  /-- BUDDY_PAGE_RECEIVE (R244). The holder writes a drain page to Backwater and completes the image. -/
  | buddyPageReceive (source : Nat) (page : PageRecord)
  /-- BUDDY_ACK (R237). The holder's acknowledgement of image s allows the commit gate to pass. -/
  | buddyAck (r : NapReq)
  /-- TAKEOVER_PAGE_RECEIVE (R247). The spare writes takeover pages and, at the end, applies the configuration and reports ready. -/
  | takeoverPageReceive (page : PageRecord)
  /-- FRESHET_N_ASSERT (R248). FRESHET_N held low qualifies a Freshet. -/
  | freshetNAssert (lowNs : Nat)
  /-- FRESHET (R248). The owner raises a Freshet by command. -/
  | freshet (r : NapReq)
  /-- FRESHET_NOTICE (R249). A notice reaches a master, and the root fixes the cut step. -/
  | freshetNotice (r : NapReq)
  /-- CUT_AT (R250). A package learns of the cut step and target slot. -/
  | cutAt (r : NapReq)
  /-- JOB_RESUME (R250). The root resumes a job halted by a Freshet. -/
  | jobResume (r : NapReq)
  /-- CKPT_ABORT (R253). The owner fails the open cut. -/
  | ckptAbort (r : NapReq)
  /-- SHARD_WRITE_COMPLETE (R254). A shard's last byte is written and its read-back starts. -/
  | shardWriteComplete (dest shard : Nat)
  /-- SHARD_READBACK_COMPLETE (R254). A shard is verified or rewritten, and fully verified pages are freed. -/
  | shardReadbackComplete (dest shard : Nat) (readBack : DmaRead)
  /-- MANIFEST_WRITE (R258). The signed manifest is written and read back, then CKPT_DONE is sent. -/
  | manifestWrite (dest : Nat) (readBack : DmaRead)
  /-- CKPT_DONE (R258). The root collects cut results. -/
  | ckptDone (r : NapReq)
  /-- CKPT_COMMIT (R258). The package records the job-committed checkpoint. -/
  | ckptCommit (r : NapReq)
  /-- CKPT_ABORT_JOB (R258). The cut is aborted job-wide. -/
  | ckptAbortJob (r : NapReq)
  /-- RESTORE_COMMAND (R260). A restore list is read and the restore procedure starts. -/
  | restoreCommand (r : NapReq) (window : DmaRead)
  /-- RESTORE_READS_COMPLETE (R261). The package finishes reading shards and writes RESTORE_READY. -/
  | restoreReadsComplete (slots : List SlotImage)
  /-- RESTORE_READY (R261). A master collects restore results. -/
  | restoreReady (r : NapReq)
  /-- RESTORE_COMMIT (R261). The package commits the restored step or retries. -/
  | restoreCommit (r : NapReq)
  /-- CKPT_EXPORT (R260). A holder copies a buddy slot to host memory. -/
  | ckptExport (r : NapReq)
  /-- READ (R269). A NAP READ returns a value or BLOB segment. -/
  | read (r : NapReq)
  /-- WRITE (R271). A NAP WRITE stores a value, a BLOB segment or a staged value. -/
  | write (r : NapReq)
  /-- OPEN (R273). A NAP session is opened. -/
  | openSession (r : NapReq)
  /-- CLOSE (R273). A NAP session is closed. -/
  | closeSession (r : NapReq)
  /-- ENUM (R269). The next implemented object is returned. -/
  | enumObject (r : NapReq)
  /-- SESSION_TIMEOUT (R273). A session idle for 60 s nominal closes. -/
  | sessionTimeout (slot : Nat)
  /-- MAILBOX_REQ_LEN (R278). A REQ_LEN write queues a PF1 mailbox request. -/
  | mailboxReqLen (slot len : Nat) (frame : List Byte)
  /-- OWNER_CLAIM (R284). A session claims ownership. -/
  | ownerClaim (r : NapReq)
  /-- CLAIM_WINDOW_CLOSE (R284). The 50 ms nominal claim window closes and the winner becomes owner. -/
  | claimWindowClose
  /-- LEASE_EXPIRE (R285). The owner's lease ends and ownership lapses. -/
  | leaseExpire
  /-- OWNER_HEARTBEAT (R285). The owner's lease is renewed. -/
  | ownerHeartbeat (r : NapReq)
  /-- OWNER_RELEASE (R286). The owner lapses ownership. -/
  | ownerRelease (r : NapReq)
  /-- OWNER_OFFER (R288). The owner offers ownership to a named session. -/
  | ownerOffer (r : NapReq)
  /-- OFFER_EXPIRE (R288). An offer lapses after 2 s nominal. -/
  | offerExpire
  /-- OWNER_ACCEPT (R288). The successor accepts and becomes owner. -/
  | ownerAccept (r : NapReq)
  /-- AUTH_CHALLENGE (R280). A read at offset 0 yields a fresh authentication nonce. -/
  | authChallenge (r : NapReq)
  /-- AUTH_RESPONSE (R280). The package verifies the master and builds AUTH_RESULT. -/
  | authResponse (r : NapReq)
  /-- VALIDATE (R292). The Weir starts validating the staged bank. -/
  | validate (r : NapReq)
  /-- VALIDATE_COMPLETE (R292). Validation ends with the bank VALID or STAGED. -/
  | validateComplete
  /-- COMMIT (R293). A valid bank is committed at once or made PENDING. -/
  | commit (r : NapReq)
  /-- DISCARD (R291). The staged bank is emptied. -/
  | discard (r : NapReq)
  /-- GROUP_ARM (R295). The bank is validated for a group commit. -/
  | groupArm (r : NapReq)
  /-- GROUP_ARMED (R295). A master collects arm reports and runs the cross-member checks. -/
  | groupArmed (r : NapReq)
  /-- GROUP_ARM_TIMEOUT (R296). Not every package armed within 10 s nominal, so the group commit fails. -/
  | groupArmTimeout
  /-- GROUP_COMMIT (R295). The armed bank becomes PENDING or is applied at once. -/
  | groupCommit (r : NapReq)
  /-- GROUP_REJECT (R295). The armed bank returns to STAGED with the failure. -/
  | groupReject (r : NapReq)
  /-- JOB_START (R300). The root starts a job with RESTART. -/
  | jobStart (r : NapReq)
  /-- JOB_END (R300). The root ends the job after the step in progress commits. -/
  | jobEnd (r : NapReq)
  /-- EVENT_SUBSCRIBE (R299). A session subscribes to NOTIFY. -/
  | eventSubscribe (r : NapReq)
  /-- PAGE_QUERY_ADDR (R299). The address for page queries is set. -/
  | pageQueryAddr (r : NapReq)
  /-- POWER_CAP_W (R332). The package power cap is set live. -/
  | powerCapW (r : NapReq)
  /-- MEM_RELEASE (R207). Pages of a range are released. -/
  | memRelease (r : NapReq)
  /-- EVENT_SNAPSHOT (R311). Records from sequence q are copied into EVENT_LOG. -/
  | eventSnapshot (r : NapReq)
  /-- MANIFEST_KEY_ROTATE (R359). A new manifest signing key is created and certified. -/
  | manifestKeyRotate (r : NapReq)
  /-- ATTEST_NONCE (R357). A signed attestation quote is built over the nonce. -/
  | attestNonce (r : NapReq)
  /-- IMAGE_UPDATE (R354). A checked bank image is written to the bank not in use. -/
  | imageUpdate (r : NapReq) (window : DmaRead)
  /-- RECOVERY_DOORBELL (R353). In recovery the boot ROM checks a bank image and writes bank A. -/
  | recoveryDoorbell (offset : Nat) (window : DmaRead)
  /-- ALARM_SENSOR_TRIP (R363). A sensor trips and the alarm level rises, locking or erasing. -/
  | alarmSensorTrip (sensor source : Nat)
  /-- ALARM_SENSOR_CLEAR (R364). No ALERT sensor still reads tripped, so the level falls to none. -/
  | alarmSensorClear (sensor : Nat)
  /-- PORT_TRAIN (R380). A Millrace port trains its lanes and agrees its width. -/
  | portTrain (port : Nat) (ownMask peerMask : BitVec 4)
  /-- LINK_AUTH_RECEIVE (R361). A link-authentication message is processed and the port comes up or stays down. -/
  | linkAuthReceive (port : Nat) (message : LinkAuth)
  /-- PORT_FRAME_SEND (R377). A port picks and sends its next frame. -/
  | portFrameSend (port : Nat)
  /-- PORT_FRAME_RECEIVE (R379). A port frame is checked, delivered, discarded with NAK, and credits are applied. -/
  | portFrameReceive (port : Nat) (frame : PortFrame)
  /-- PORT_REPLAY_TIMEOUT (R379). ACK has not advanced for 16 µs nominal, so outstanding frames are resent. -/
  | portReplayTimeout (port : Nat)
  /-- PORT_DOWN_TIMEOUT (R381). A job port down for 100 ms nominal raises a fault report. -/
  | portDownTimeout (port : Nat)
  /-- PCIE_HOT_RESET (R369). A hot reset or link-down resets the PCIe domain and both functions. -/
  | pcieHotReset
  /-- PF0_FLR (R373). A function-level reset of PF0 stops its DMA and fails reads in progress. -/
  | pf0Flr
  /-- PF1_FLR (R373). A function-level reset of PF1 closes its sessions and empties the mailbox. -/
  | pf1Flr
  /-- PF0_REGISTER_WRITE (R370). A write to a PF0 register that has no row of its own. -/
  | pf0RegisterWrite (offset value : Nat)
  /-- MGMT_FRAME_RECEIVE (R382). A management-port frame is answered or discarded. -/
  | mgmtFrameReceive (frame : MgmtFrame)
  /-- LOAD_COMMAND (R160). The owner's write of LOAD_COMMAND makes the package check the whole load set in the load window, report LOAD_STATUS, and apply the set at once when idle or schedule it for the next step boundary. -/
  | loadCommand (r : NapReq) (window : DmaRead)
  /-- FRESHET_N_RELEASE (R386). FRESHET_N returns high and, after 10 µs high, re-arms so that a later low can give a new Freshet. -/
  | freshetNRelease (highNs : Nat)
  /-- TRST_N_ASSERT (R386). Asserting TRST_N resets the JTAG test access port, and so ends EXTEST control of the lands, independently of RESET_N. -/
  | trstNAssert
  /-- CKPT_SHARD_RECEIVE (R253). A holder takes a buddy checkpoint shard record from the BKG channel, writes it into a slot frame of its Backwater, or fails the destination with CKPT_DEST_FULL when no frame is free. -/
  | ckptShardReceive (source : Nat) (shard : List Byte)
deriving DecidableEq, Repr

end Sys2Proof
end

