-- ==== Sys2Proof/Decode.lean ====
section
/-! DEFINITION. The words of commands. The opcode table gives its rows no bits, so no table word spells a command. The
one encoding that the spec gives is that of the control core's instructions (R143): its decoder and its encoder. -/

namespace Sys2Proof

open Sys2Proof.Machine (bits)

/-- The command that a word spells by the table's bits: the table gives none. -/
def decodeTableWord (_nbits _w : Nat) : Option Instr := none

/-! The control core's encoding (R143). -/

/-- The five bits of a register number from bit `lo`. -/
def regAt (w lo : Nat) : Reg := BitVec.ofNat 5 (bits w lo 5)

/-- ALU: [27:22] FUNC, [21:17] RD, [16:12] RA, [11:7] RB. -/
def decodeAlu (core w : Nat) : Option Instr :=
  let rd := regAt w 17
  let ra := regAt w 12
  let rb := regAt w 7
  match bits w 22 6 with
  | 0x00 => some (.add core rd ra rb)
  | 0x01 => some (.sub core rd ra rb)
  | 0x02 => some (.and core rd ra rb)
  | 0x03 => some (.or core rd ra rb)
  | 0x04 => some (.xor core rd ra rb)
  | 0x05 => some (.shl core rd ra rb)
  | 0x06 => some (.shr core rd ra rb)
  | 0x07 => some (.sra core rd ra rb)
  | 0x08 => some (.mul core rd ra rb)
  | 0x09 => some (.mulhu core rd ra rb)
  | 0x0A => some (.slt core rd ra rb)
  | 0x0B => some (.sltu core rd ra rb)
  | 0x0C => some (.min core rd ra rb)
  | 0x0D => some (.max core rd ra rb)
  | 0x10 => some (.fadd core rd ra rb)
  | 0x11 => some (.fmul core rd ra rb)
  | 0x12 => some (.fmax core rd ra rb)
  | 0x13 => some (.flt core rd ra rb)
  | _ => none

/-- ALUI: [27:22] FUNC, [21:17] RD, [16:12] RA, [11:0] IMM12. -/
def decodeAlui (core w : Nat) : Option Instr :=
  let rd := regAt w 17
  let ra := regAt w 12
  let imm := BitVec.ofNat 12 (bits w 0 12)
  match bits w 22 6 with
  | 0x00 => some (.addi core rd ra imm)
  | 0x01 => some (.subi core rd ra imm)
  | 0x02 => some (.andi core rd ra imm)
  | 0x03 => some (.ori core rd ra imm)
  | 0x04 => some (.xori core rd ra imm)
  | 0x05 => some (.shli core rd ra imm)
  | 0x06 => some (.shri core rd ra imm)
  | 0x07 => some (.srai core rd ra imm)
  | 0x08 => some (.muli core rd ra imm)
  | 0x09 => some (.mulhui core rd ra imm)
  | 0x0A => some (.slti core rd ra imm)
  | 0x0B => some (.sltui core rd ra imm)
  | 0x0C => some (.mini core rd ra imm)
  | 0x0D => some (.maxi core rd ra imm)
  | _ => none

/-- MEM: [27:24] OP, [23:19] RD or source, [18:14] RA, [13:0] IMM14. -/
def decodeMem (core w : Nat) : Option Instr :=
  let r := regAt w 19
  let ra := regAt w 14
  let imm := BitVec.ofNat 14 (bits w 0 14)
  match bits w 24 4 with
  | 0x0 => some (.ld8 core r ra imm)
  | 0x1 => some (.ld16 core r ra imm)
  | 0x2 => some (.ld32 core r ra imm)
  | 0x3 => some (.ld64 core r ra imm)
  | 0x4 => some (.st8 core r ra imm)
  | 0x5 => some (.st16 core r ra imm)
  | 0x6 => some (.st32 core r ra imm)
  | 0x7 => some (.st64 core r ra imm)
  | _ => none

/-- BR: [27:24] COND, [23:19] RA, [18:14] RB, [13:0] the signed offset; CALL ignores RA and RB. -/
def decodeBr (core w : Nat) : Option Instr :=
  let ra := regAt w 19
  let rb := regAt w 14
  let off := BitVec.ofNat 14 (bits w 0 14)
  match bits w 24 4 with
  | 0x0 => some (.beq core ra rb off)
  | 0x1 => some (.bne core ra rb off)
  | 0x2 => some (.blt core ra rb off)
  | 0x3 => some (.bge core ra rb off)
  | 0x4 => some (.bltu core ra rb off)
  | 0x5 => some (.bgeu core ra rb off)
  | 0x6 => some (.call core off)
  | _ => none

/-- CTRL: [27:24] OP, [23:19] RD, [18:14] RA, [13:9] RB. -/
def decodeCtrl (core w : Nat) : Option Instr :=
  let rd := regAt w 19
  let ra := regAt w 14
  let rb := regAt w 9
  match bits w 24 4 with
  | 0x0 => some (.setvl core ra)
  | 0x1 => some (.getvl core rd)
  | 0x2 => some (.oxb core ra rb)
  | 0x3 => some (.drain core ra rb)
  | 0x4 => some (.stepend core rd)
  | 0x5 => some (.tokrd core rd)
  | 0x6 => some (.halt core)
  | _ => none

/-- An instruction that is not reserved: bits [31:28] select the class. QUEUE code 7 is for WAIT only, and FTQRD with RD
s31 is reserved. -/
def decodeKnown (core w : Nat) : Option Instr :=
  match bits w 28 4 with
  | 0x0 => decodeAlu core w
  | 0x1 => decodeAlui core w
  | 0x2 => some (.lui core (BitVec.ofNat 2 (bits w 26 2)) (regAt w 21) (BitVec.ofNat 16 (bits w 5 16)))
  | 0x3 => decodeMem core w
  | 0x4 => decodeBr core w
  | 0x5 => if bits w 25 3 = 7 then none else some (.desc core (BitVec.ofNat 3 (bits w 25 3)) (regAt w 20) (regAt w 15))
  | 0x6 => some (.wait core (BitVec.ofNat 3 (bits w 25 3)) (regAt w 20) (regAt w 15))
  | 0x7 => some (.pick core (regAt w 20))
  | 0x8 => some (.qrd core (BitVec.ofNat 3 (bits w 25 3)) (BitVec.ofNat 2 (bits w 23 2)) (regAt w 18))
  | 0x9 => if bits w 20 5 = 31 then none else some (.ftqrd core (regAt w 20))
  | 0xA => decodeCtrl core w
  | 0xB => some (.jr core (regAt w 19) (regAt w 14))
  | _ => none

/-- The command that a 32-bit instruction is at core `core`; a reserved encoding is RESERVED_INSTRUCTION (R143). Bits
that a class gives no field are ignored (assumption 11). -/
def decodeCoreWord (core : Nat) (w : BitVec 32) : Instr :=
  match decodeKnown core w.toNat with
  | some i => i
  | none => .reservedInstruction core w

/-- An ALU word. -/
def aluWord (func : Nat) (rd ra rb : Reg) : Nat :=
  func * 2 ^ 22 + rd.toNat * 2 ^ 17 + ra.toNat * 2 ^ 12 + rb.toNat * 2 ^ 7

/-- An ALUI word. -/
def aluiWord (func : Nat) (rd ra : Reg) (imm : BitVec 12) : Nat :=
  1 * 2 ^ 28 + func * 2 ^ 22 + rd.toNat * 2 ^ 17 + ra.toNat * 2 ^ 12 + imm.toNat

/-- A MEM or BR word: class, operation, two registers and 14 bits. -/
def memWord (cls op : Nat) (r ra : Reg) (imm : BitVec 14) : Nat :=
  cls * 2 ^ 28 + op * 2 ^ 24 + r.toNat * 2 ^ 19 + ra.toNat * 2 ^ 14 + imm.toNat

/-- A CTRL word. -/
def ctrlWord (op : Nat) (rd ra rb : Reg) : Nat :=
  0xA * 2 ^ 28 + op * 2 ^ 24 + rd.toNat * 2 ^ 19 + ra.toNat * 2 ^ 14 + rb.toNat * 2 ^ 9

/-- The 32-bit word of a control-core instruction; other commands have none. Bits without a field are 0. -/
def encodeCoreWord : Instr → Option Nat
  | .add _ rd ra rb => some (aluWord 0x00 rd ra rb)
  | .sub _ rd ra rb => some (aluWord 0x01 rd ra rb)
  | .and _ rd ra rb => some (aluWord 0x02 rd ra rb)
  | .or _ rd ra rb => some (aluWord 0x03 rd ra rb)
  | .xor _ rd ra rb => some (aluWord 0x04 rd ra rb)
  | .shl _ rd ra rb => some (aluWord 0x05 rd ra rb)
  | .shr _ rd ra rb => some (aluWord 0x06 rd ra rb)
  | .sra _ rd ra rb => some (aluWord 0x07 rd ra rb)
  | .mul _ rd ra rb => some (aluWord 0x08 rd ra rb)
  | .mulhu _ rd ra rb => some (aluWord 0x09 rd ra rb)
  | .slt _ rd ra rb => some (aluWord 0x0A rd ra rb)
  | .sltu _ rd ra rb => some (aluWord 0x0B rd ra rb)
  | .min _ rd ra rb => some (aluWord 0x0C rd ra rb)
  | .max _ rd ra rb => some (aluWord 0x0D rd ra rb)
  | .fadd _ rd ra rb => some (aluWord 0x10 rd ra rb)
  | .fmul _ rd ra rb => some (aluWord 0x11 rd ra rb)
  | .fmax _ rd ra rb => some (aluWord 0x12 rd ra rb)
  | .flt _ rd ra rb => some (aluWord 0x13 rd ra rb)
  | .addi _ rd ra imm => some (aluiWord 0x00 rd ra imm)
  | .subi _ rd ra imm => some (aluiWord 0x01 rd ra imm)
  | .andi _ rd ra imm => some (aluiWord 0x02 rd ra imm)
  | .ori _ rd ra imm => some (aluiWord 0x03 rd ra imm)
  | .xori _ rd ra imm => some (aluiWord 0x04 rd ra imm)
  | .shli _ rd ra imm => some (aluiWord 0x05 rd ra imm)
  | .shri _ rd ra imm => some (aluiWord 0x06 rd ra imm)
  | .srai _ rd ra imm => some (aluiWord 0x07 rd ra imm)
  | .muli _ rd ra imm => some (aluiWord 0x08 rd ra imm)
  | .mulhui _ rd ra imm => some (aluiWord 0x09 rd ra imm)
  | .slti _ rd ra imm => some (aluiWord 0x0A rd ra imm)
  | .sltui _ rd ra imm => some (aluiWord 0x0B rd ra imm)
  | .mini _ rd ra imm => some (aluiWord 0x0C rd ra imm)
  | .maxi _ rd ra imm => some (aluiWord 0x0D rd ra imm)
  | .lui _ q rd imm => some (2 * 2 ^ 28 + q.toNat * 2 ^ 26 + rd.toNat * 2 ^ 21 + imm.toNat * 2 ^ 5)
  | .ld8 _ rd ra imm => some (memWord 3 0 rd ra imm)
  | .ld16 _ rd ra imm => some (memWord 3 1 rd ra imm)
  | .ld32 _ rd ra imm => some (memWord 3 2 rd ra imm)
  | .ld64 _ rd ra imm => some (memWord 3 3 rd ra imm)
  | .st8 _ rs ra imm => some (memWord 3 4 rs ra imm)
  | .st16 _ rs ra imm => some (memWord 3 5 rs ra imm)
  | .st32 _ rs ra imm => some (memWord 3 6 rs ra imm)
  | .st64 _ rs ra imm => some (memWord 3 7 rs ra imm)
  | .beq _ ra rb off => some (memWord 4 0 ra rb off)
  | .bne _ ra rb off => some (memWord 4 1 ra rb off)
  | .blt _ ra rb off => some (memWord 4 2 ra rb off)
  | .bge _ ra rb off => some (memWord 4 3 ra rb off)
  | .bltu _ ra rb off => some (memWord 4 4 ra rb off)
  | .bgeu _ ra rb off => some (memWord 4 5 ra rb off)
  | .call _ off => some (memWord 4 6 0 0 off)
  | .jr _ rd ra => some (0xB * 2 ^ 28 + rd.toNat * 2 ^ 19 + ra.toNat * 2 ^ 14)
  | .desc _ q rd ra => some (5 * 2 ^ 28 + q.toNat * 2 ^ 25 + rd.toNat * 2 ^ 20 + ra.toNat * 2 ^ 15)
  | .wait _ q rd ra => some (6 * 2 ^ 28 + q.toNat * 2 ^ 25 + rd.toNat * 2 ^ 20 + ra.toNat * 2 ^ 15)
  | .pick _ rd => some (7 * 2 ^ 28 + rd.toNat * 2 ^ 20)
  | .qrd _ q w rd => some (8 * 2 ^ 28 + q.toNat * 2 ^ 25 + w.toNat * 2 ^ 23 + rd.toNat * 2 ^ 18)
  | .ftqrd _ rd => some (9 * 2 ^ 28 + rd.toNat * 2 ^ 20)
  | .setvl _ ra => some (ctrlWord 0 0 ra 0)
  | .getvl _ rd => some (ctrlWord 1 rd 0 0)
  | .oxb _ ra rb => some (ctrlWord 2 0 ra rb)
  | .drain _ ra rb => some (ctrlWord 3 0 ra rb)
  | .stepend _ rd => some (ctrlWord 4 rd 0 0)
  | .tokrd _ rd => some (ctrlWord 5 rd 0 0)
  | .halt _ => some (ctrlWord 6 0 0 0)
  | _ => none

end Sys2Proof
end

