-- ==== Sys2Proof/Config.lean ====
section
/-! DEFINITION. What the part fixes (R1, R2), and the free values: constants with no body, so that no proof can see
what they are, for what the spec leaves open or names without printing it. -/

namespace Sys2Proof

/-- Compute dies of a part (R1, R2). -/
def Part.dies : Part → Nat
  | .hn9_8x => 8
  | .hn9_6l => 6

/-- Memory stacks of a part (R1). -/
def Part.stacks : Part → Nat
  | .hn9_8x => 16
  | .hn9_6l => 12

/-- Millrace ports of a part (R1). -/
def Part.ports : Part → Nat
  | .hn9_8x => 6
  | .hn9_6l => 4

/-- Backwater channels of a part (R1). -/
def Part.bwChannels : Part → Nat
  | .hn9_8x => 12
  | .hn9_6l => 6

/-- Whether the part carries the matrix-rule sequencer (R2). -/
def Part.matrixRules : Part → Bool
  | .hn9_8x => true
  | .hn9_6l => false

/-- Whether a core coordinate 16 × d + c names a core of the part (R12). -/
def Part.hasCore (p : Part) (core : Nat) : Bool := core / 16 < p.dies && core % 16 < 14

namespace Config

/-- A fresh free value for the counter reading given (assumption 2). -/
opaque freeNat : Nat → Nat

/-- Byte `i` of a run of bytes that the spec gives no value, at the counter reading given (assumption 2). -/
opaque freeByte : Nat → Nat → Byte

/-- What a padding byte between a tile's raw bytes and its stride reads as in a mapped tile page, by address: the stored
tile does not hold it (R193). -/
opaque padByte : Nat → Byte

/-- A memory upset: a bit of a word of a core's window, or a symbol of a line of a tier with the pattern that it changes by. -/
inductive Upset where
  | core (core word bit : Nat)
  | line (tier line symbol pattern : Nat)
deriving DecidableEq, Repr

/-- What strikes memory as the block idles, at the counter reading given: nothing, or an upset (assumption 171). -/
opaque upset : Nat → Option Upset

/-- AES-256-XTS over a Backwater line by the key of a generation of slot 2, tweaked by the line's index (R212). The algorithm
is named, not printed. -/
opaque xtsEncrypt : Nat → Nat → List Byte → List Byte

/-- Its decryption. -/
opaque xtsDecrypt : Nat → Nat → List Byte → List Byte

/-- The reason code of a PROGRAM_FAULT event (R143), whose values the spec does not give; the argument tells the causes
of R143 apart (assumption 3). -/
opaque faultReason : Nat → BitVec 8

/-- Fresh entropy: byte `i` of the draw at the counter reading given (nonces, keys; R280, R358). -/
opaque entropy : Nat → Nat → Byte

/-- ML-DSA-44 verification: public key, message, signature (R355). The algorithm is named, not printed. -/
opaque mldsaVerify : List Byte → List Byte → List Byte → Bool

/-- The ML-DSA-44 signature by the key of a security-block slot and generation over a message. -/
opaque mldsaSign : Nat → Nat → List Byte → List Byte

/-- The ML-DSA-44 public key of a slot and generation, 1,312 bytes. -/
opaque mldsaPublic : Nat → Nat → List Byte

/-- ML-KEM-768 encapsulation to a key at a counter reading: the ciphertext and the secret (R280, R361). -/
opaque mlkemEncaps : List Byte → Nat → List Byte × List Byte

/-- The ML-KEM-768 encapsulation key generated at a counter reading, and the decapsulation of a ciphertext with it. -/
opaque mlkemPublic : Nat → List Byte

/-- Decapsulation of a ciphertext by the key generated at a counter reading. -/
opaque mlkemDecaps : Nat → List Byte → List Byte

/-- What the package is given at manufacture (R2, R355): serial number, identity certificate, vendor identifier. -/
opaque serial : List Byte

/-- The identity certificate (R355). -/
opaque identityCert : List Byte

/-- The bank records and the banks of the flash as programmed at manufacture (R349). -/
opaque flashRecord : Nat → List Byte

/-- The contents of a bank as programmed at manufacture. -/
opaque flashBank : Nat → List Byte

/-- The digests of the four image-signing public keys in the boot ROM (R351). -/
opaque romDigests : List (List Byte)

/-- The public key of the manufacturing key whose digest the boot ROM holds (R355). -/
opaque makerKey : List Byte

/-- The destination of a Kolfin packet, 0 to 7 for CDn and 8 for HD: the packet's layout is not printed (R17). -/
opaque kolfinDest : List Byte → Nat

/-- The position that a page or shard record of the BKG channel goes to: the record as printed carries no destination (R376, R216). -/
opaque bkgDest : List Byte → Nat

/-- The hops of the path from this package, by its CTRL_ROUTE, to a position: the rest of the path stands in other packages' tables
(R216, R230). -/
opaque ctrlHops : List Byte → Nat → Nat

/-- The non-spare positions of a job of several groups, by its CHILD_MASTERS: no object of the description counts them
(R258). -/
opaque jobPositions : List Byte → Nat

/-- The MASTER_EPOCH that a cascade command carries in its frame: only HEARTBEAT and TAKEOVER_MASTER print a field for it (R231). -/
opaque frameEpoch : List Byte → Nat

/-- The largest share of rated endurance, in per cent, that a block of the save store has used after a number of writes: the endurance is not
printed (R322). -/
opaque storeWear : Nat → Nat

/-- The residue mismatches that descriptors of a sequencer's program meet on its home core, at the counter reading given: the descriptors
in order, each with its engine and the mismatching cells of its attempts (R110, R177, assumption 189). -/
opaque engineMismatches : Nat → List (Nat × List (List (Nat × Nat)))

/-- The cells of a die that a residue self-test finds faulty, at the counter reading given: core, engine, row and column (R318). -/
opaque faultyCells : Nat → List (Nat × Nat × Nat × Nat)

/-- The PCIe vendor identifier, PCIE_IDS [15:0]. -/
opaque vendorId : BitVec 16

/-- Whether die `d`'s spare core was consumed at manufacture (SPARE_CORE, R307). -/
opaque spareConsumed : Nat → Bool

/-- The frame that answers a frame at the management port (R382): the protocols are named, not printed. -/
opaque mgmtReply : MgmtFrame → List Byte

end Config

end Sys2Proof
end

