-- ==== Sys2Proof/Machine/Ecc.lean ====
section
/-! DEFINITION. Line protection (R186, R209): the Reed–Solomon codes of *Line protection codes* over GF(2⁸), their check
symbols, syndromes and decoder, and the SEC-DED words of core memory. -/

namespace Sys2Proof.Machine

/-! GF(2⁸) with x⁸ + x⁴ + x³ + x² + 1 and α = 0x02. -/

/-- A symbol times α. -/
def gfX (a : Nat) : Nat := if 128 ≤ a then (2 * a) ^^^ 0x11D else 2 * a

/-- The product of two symbols. -/
def gfMul (a b : Nat) : Nat :=
  ((List.range 8).foldl (fun (x : Nat × Nat) i => (if bitOf b i then x.1 ^^^ x.2 else x.1, gfX x.2)) (0, a)).1

/-- α to a power. -/
def alphaPow (n : Nat) : Nat := forN (n % 255) 1 (fun a _ => gfX a)

/-- The inverse of a symbol other than 0: its 254th power. -/
def gfInv (a : Nat) : Nat :=
  let sq := fun x => gfMul x x
  let p2 := sq a
  let p3 := gfMul p2 a
  let p15 := gfMul (sq (sq p3)) p3
  let p127 := gfMul (gfMul (sq (sq (sq p15))) (sq p3)) a
  sq p127

/-- A polynomial, lowest coefficient first, at a point. -/
def polyAt (p : List Nat) (x : Nat) : Nat := p.foldr (fun c acc => c ^^^ gfMul acc x) 0

/-- The sum of two polynomials. -/
def polyAdd : List Nat → List Nat → List Nat
  | [], q => q
  | p, [] => p
  | a :: p, b :: q => (a ^^^ b) :: polyAdd p q

/-- A polynomial times a symbol. -/
def polyScale (k : Nat) (p : List Nat) : List Nat := p.map (gfMul k)

/-- The product of two polynomials. -/
def polyMul : List Nat → List Nat → List Nat
  | [], _ => []
  | a :: p, q => polyAdd (polyScale a q) (0 :: polyMul p q)

/-! The codes. -/

/-- A code: symbols of a line with its checks, and check symbols; it corrects half as many symbols as it has checks. -/
structure LineCode where
  n      : Nat
  checks : Nat
deriving DecidableEq, Repr

/-- The code of the stacks. -/
def stackCode : LineCode := ⟨68, 4⟩

/-- The code of Backwater. -/
def bwCode : LineCode := ⟨80, 16⟩

/-- g(x): the product of (x − αⁱ) over the code's roots. -/
def LineCode.generator (c : LineCode) : List Nat := (List.range c.checks).foldl (fun g i => polyMul g [alphaPow i, 1]) [1]

/-- The check symbols of 64 data symbols (R209): (d(x) × x^(n − 64)) mod g(x), highest power first. Data symbol i is the
coefficient of x^(n − 1 − i). -/
def LineCode.check (c : LineCode) (data : List Nat) : List Nat :=
  let low := (c.generator.take c.checks).reverse
  data.foldl (fun r d => match r with
    | [] => []
    | h :: t => List.zipWith (fun (x y : Nat) => x ^^^ gfMul (h ^^^ d) y) (t ++ [0]) low) (List.replicate c.checks 0)

/-- The syndromes of an error pattern: errors by position. A code word has none, so that they are those of the word read. -/
def LineCode.syndromes (c : LineCode) (e : SMap Nat) : List Nat :=
  (List.range c.checks).map (fun j => e.foldl (fun a x => a ^^^ gfMul x.2 (alphaPow (j * (c.n - 1 - x.1)))) 0)

/-- What the error locator is found from: the locator, the one before its last change of length, its length, the
discrepancy of that change and the steps since. -/
structure Locate where
  cur  : List Nat
  prev : List Nat
  len  : Nat
  disc : Nat
  gap  : Nat

/-- One syndrome taken in. -/
def Locate.step (syn : List Nat) (x : Locate) (k : Nat) : Locate :=
  let d := (List.range (x.len + 1)).foldl (fun a i => a ^^^ gfMul (x.cur.getD i 0) (if i ≤ k then syn.getD (k - i) 0 else 0)) 0
  if d = 0 then { x with gap := x.gap + 1 }
  else
    let next := polyAdd x.cur (List.replicate x.gap 0 ++ polyScale (gfMul d (gfInv x.disc)) x.prev)
    if 2 * x.len ≤ k then ⟨next, x.cur, k + 1 - x.len, d, 1⟩ else { x with cur := next, gap := x.gap + 1 }

/-- The shortest error locator of the syndromes. -/
def LineCode.locator (c : LineCode) (syn : List Nat) : Locate := forN c.checks ⟨[1], [1], 0, 1, 1⟩ (Locate.step syn)

/-- The errors that the syndromes resolve to: at most half as many symbols as there are checks, or none where they do not
resolve (R209). -/
def LineCode.resolve (c : LineCode) (syn : List Nat) : Option (SMap Nat) :=
  let loc := c.locator syn
  let omega := (polyMul syn loc.cur).take c.checks
  let slope := (loc.cur.zipIdx.filter (fun p => p.2 % 2 = 1)).map (fun p => (p.2 - 1, p.1))
  let found := (List.range c.n).filterMap (fun i =>
    let x := alphaPow (c.n - 1 - i)
    let y := gfInv x
    if polyAt loc.cur y = 0 then
      let s := slope.foldl (fun a p => a ^^^ gfMul p.2 (forN p.1 1 (fun z _ => gfMul z y))) 0
      some (i, gfMul (gfMul x (polyAt omega y)) (gfInv s))
    else none)
  if 2 * loc.len ≤ c.checks ∧ found.length = loc.len ∧ c.syndromes found = syn then some found else none

/-- What a decoder makes of an error pattern: no syndrome, or corrected, each with what is left of the pattern (nothing, unless it resolved
wrongly), or uncorrectable (R209). -/
inductive Decoded where
  | clean (left : SMap Nat)
  | corrected (left : SMap Nat)
  | uncorrectable
deriving DecidableEq, Repr

/-- Two error patterns added. -/
def addErrors (a b : SMap Nat) : SMap Nat := b.foldl (fun m x => mset 0 m x.1 (mget 0 m x.1 ^^^ x.2)) a

/-- A line with an error pattern read (R209). -/
def LineCode.decode (c : LineCode) (e : SMap Nat) : Decoded :=
  let syn := c.syndromes e
  if syn.all (fun x => x = 0) then .clean e
  else match c.resolve syn with
    | some fix => .corrected (addErrors e fix)
    | none => .uncorrectable

/-! SEC-DED (R186). -/

/-- The flipped bits of a 72-bit word. -/
def flipCount (m : Nat) : Nat := (upto 72 (bitOf m)).length

end Sys2Proof.Machine
end

