-- ==== Sys2Proof/Machine/Digest.lean ====
section
/-! DEFINITION. The check and digest functions that the spec names: the CRC-32 of R40, and SHA3-256 and KMAC256 of the
standards that R159, R281 and R295 cite. The standards' own constants are PRESUMED (assumption 5): the spec names the
functions and does not print them. -/

namespace Sys2Proof.Machine

/-- Eight shifts of the reflected CRC register for the byte in its low bits (R40). -/
def crcShift : Nat → Nat → Nat
  | 0, c => c
  | n + 1, c => crcShift n (if c % 2 = 1 then (c / 2) ^^^ 0xEDB88320 else c / 2)

/-- The CRC register after one byte (R40: reflected input). -/
def crcByte (c : Nat) (b : Byte) : Nat := crcShift 8 (c ^^^ b.toNat)

/-- The CRC-32 of IEEE 802.3 over a byte string (R40). -/
def crc32 (bs : List Byte) : Nat := (bs.foldl crcByte 0xFFFFFFFF) ^^^ 0xFFFFFFFF

/-- The 1,600 bits that a digest mixes, as five planes of five 64-bit lanes. -/
abbrev Planes := List (List (BitVec 64))

/-- The lane in column `x` of plane `y`, both modulo 5. -/
def Planes.lane (a : Planes) (x y : Nat) : BitVec 64 := (a.getD (y % 5) []).getD (x % 5) 0

/-- The planes whose lanes a function gives. -/
def Planes.of (f : Nat → Nat → BitVec 64) : Planes := (List.range 5).map (fun y => (List.range 5).map (fun x => f x y))

/-- The parity of a column. -/
def Planes.column (a : Planes) (x : Nat) : BitVec 64 := (List.range 5).foldl (fun v y => v ^^^ a.lane x y) 0

/-- A move of the walk over the lanes other than (0, 0). -/
def laneMove (p : Nat × Nat) : Nat × Nat := (p.2, (2 * p.1 + 3 * p.2) % 5)

/-- Where the walk stands after `t` moves. -/
def laneWalk (t : Nat) : Nat × Nat := (List.range t).foldl (fun p _ => laneMove p) (1, 0)

/-- How far a lane turns: the triangular number of its place in the walk. -/
def laneTurn (x y : Nat) : Nat := match (List.range 24).find? (fun t => laneWalk t = (x % 5, y % 5)) with
  | some t => (t + 1) * (t + 2) / 2 % 64
  | none => 0

/-- A shift of the register that the round constants are read from. -/
def roundShift (v : Nat) : Nat := if v < 128 then 2 * v else (2 * v - 256) ^^^ 0x71

/-- The register after `t` shifts. -/
def roundBits (t : Nat) : Nat := (List.range t).foldl (fun v _ => roundShift v) 1

/-- The constant of a round: seven bits of the register, at the places 2^j - 1. -/
def roundConst (i : Nat) : Nat := (List.range 7).foldl (fun v j => v + roundBits (j + 7 * i) % 2 * 2 ^ (2 ^ j - 1)) 0

/-- One round: columns mixed in, lanes turned and moved, rows combined, the constant added. -/
def Planes.round (a : Planes) (i : Nat) : Planes :=
  let mixed := Planes.of (fun x y => a.lane x y ^^^ a.column (x + 4) ^^^ (a.column (x + 1)).rotateLeft 1)
  let moved := Planes.of (fun x y => (mixed.lane (x + 3 * y) x).rotateLeft (laneTurn (x + 3 * y) x))
  Planes.of (fun x y => moved.lane x y ^^^ (moved.lane (x + 2) y &&& ~~~ moved.lane (x + 1) y)
    ^^^ (if x = 0 ∧ y = 0 then BitVec.ofNat 64 (roundConst i) else 0))

/-- The 24 rounds. -/
def Planes.permute (a : Planes) : Planes := (List.range 24).foldl Planes.round a

/-- A block of 136 bytes added into the first lanes, and the rounds run. -/
def Planes.absorb (a : Planes) (blk : List Byte) : Planes :=
  (Planes.of (fun x y => a.lane x y ^^^ BitVec.ofNat 64 (fld blk (8 * (x + 5 * y)) 8))).permute

/-- The bytes of the planes. -/
def Planes.bytes (a : Planes) : List Byte := a.flatten.flatMap (fun w => leBytes 8 w.toNat)

/-- A message closed by its suffix byte and zeros up to a whole block, whose last bit is set. -/
def closed (suffix : Byte) (msg : List Byte) : List Byte :=
  let m := msg ++ [suffix]
  let z := m ++ List.replicate ((136 - m.length % 136) % 136) 0
  z.dropLast ++ [z.getLastD 0 ||| 128]

/-- The sponge of rate 136 bytes, output up to 136 bytes. -/
def sponge (suffix : Byte) (msg : List Byte) (outLen : Nat) : List Byte :=
  (((records 136 (closed suffix msg)).foldl Planes.absorb []).bytes).take outLen

/-- SHA3-256. -/
def sha3 (msg : List Byte) : List Byte := sponge 6 msg 32

/-- The big-endian bytes of a number, at least one. -/
def beNat (v : Nat) : List Byte := (leBytes (if v < 256 then 1 else if v < 65536 then 2 else if v < 2 ^ 24 then 3 else 4) v).reverse

/-- left_encode of SP 800-185. -/
def leftEncode (v : Nat) : List Byte := BitVec.ofNat 8 (beNat v).length :: beNat v

/-- right_encode of SP 800-185. -/
def rightEncode (v : Nat) : List Byte := beNat v ++ [BitVec.ofNat 8 (beNat v).length]

/-- encode_string of SP 800-185. -/
def encodeString (bs : List Byte) : List Byte := leftEncode (8 * bs.length) ++ bs

/-- bytepad of SP 800-185 to a multiple of 136 bytes. -/
def bytepad (bs : List Byte) : List Byte :=
  let x := leftEncode 136 ++ bs
  x ++ List.replicate ((136 - x.length % 136) % 136) 0

/-- KMAC256(K, X, L, S) of SP 800-185, L in bits up to 1,088. -/
def kmac256 (key msg : List Byte) (outBits : Nat) (custom : List Byte) : List Byte :=
  sponge 4 (bytepad (encodeString (strBytes "KMAC") ++ encodeString custom) ++ bytepad (encodeString key)
    ++ msg ++ rightEncode outBits) (outBits / 8)

end Sys2Proof.Machine
end

