-- ==== Sys2Proof/Machine/NapFrame.lean ====
section
/-! DEFINITION. NAP frames (R268, R270, R279, R281): a frame written from its fields, a request read from its bytes, and
the routing envelope of the sideband. -/

namespace Sys2Proof.Machine

/-- The fields of *NAP frame header*, the value and the key of an authenticated session (empty for none). -/
structure NapFrame where
  opcode   : Nat
  response : Bool := false
  staged   : Bool := false
  last     : Bool := false
  auth     : Bool := false
  status   : Nat := 0
  session  : Nat := 0
  seq      : Nat := 0
  index    : Nat := 0
  sub      : Nat := 0
  type     : Nat := 0
  offset   : Nat := 0
  total    : Nat := 0
  detail   : Nat := 0
  value    : List Byte := []
deriving DecidableEq, Repr

/-- Zero bytes that pad a length to a multiple of 4. -/
def pad4 (n : Nat) : List Byte := List.replicate ((4 - n % 4) % 4) 0

/-- The bytes of a frame before its tag (R281: X). -/
def NapFrame.body (f : NapFrame) : List Byte :=
  wordsLE [1 + f.opcode % 256 * 2 ^ 8 + b01 f.response * 2 ^ 16 + b01 f.staged * 2 ^ 17 + b01 f.last * 2 ^ 18
      + b01 f.auth * 2 ^ 19 + f.status * 2 ^ 24,
    f.session, f.seq, f.index + f.sub * 2 ^ 16 + f.type % 16 * 2 ^ 24, f.offset, f.value.length, f.total, f.detail]
  ++ f.value ++ pad4 f.value.length

/-- The tag of an authenticated session's frame (R281). -/
def napTag (key body : List Byte) : List Byte := kmac256 key body 128 (strBytes "NAP")

/-- A whole frame: tagged under a session key where there is one, and closed by its CRC-32 (R268). -/
def NapFrame.bytes (f : NapFrame) (key : List Byte) : List Byte :=
  let b := { f with auth := !key.isEmpty }.body
  let b1 := if key.isEmpty then b else b ++ napTag key b
  b1 ++ leBytes 4 (crc32 b1)

/-- The request that the fields of a frame make. -/
def frameOf (r : NapReq) : NapFrame :=
  { opcode := r.opcode, staged := r.staged, last := r.last, auth := !r.tag.isEmpty, status := r.status, session := r.session,
    seq := r.seq, index := r.index, sub := r.sub, type := r.type, offset := r.offset, total := r.total, detail := r.detail,
    value := r.value }

/-- A response kept before its session was authenticated, sent again on the authenticated session: with its tag (R281). -/
def retag (key frame : List Byte) : List Byte :=
  if key.isEmpty || wb frame 0 19 1 = 1 then frame
  else
    let b := wordsLE [wd frame 0 + 2 ^ 19] ++ (frame.take (frame.length - 4)).drop 4
    let b1 := b ++ napTag key b
    b1 ++ leBytes 4 (crc32 b1)

/-- Why R270 refuses a frame: its CRC, VERSION, reserved fields, length fields, or the RESPONSE bit of a request. -/
def frameBad (bs : List Byte) : Bool :=
  let n := wb bs 5 0 11
  let body := 32 + n + (pad4 n).length
  let auth := wb bs 0 19 1
  bs.length < 36 || 1076 < bs.length || crc32 (bs.take (bs.length - 4)) ≠ fld bs (bs.length - 4) 4 || wb bs 0 0 8 ≠ 1
    || wb bs 0 20 4 ≠ 0 || wb bs 1 16 16 ≠ 0 || wb bs 3 28 4 ≠ 0 || wb bs 5 11 21 ≠ 0 || 1024 < n
    || bs.length ≠ body + 16 * auth + 4 || ((bs.drop (32 + n)).take (pad4 n).length).any (fun b => b ≠ 0)

/-- A response frame. -/
def frameResponse (bs : List Byte) : Bool := wb bs 0 16 1 = 1

/-- A request with the fields that a frame's bytes carry. -/
def reqOf (c : Carrier) (bs : List Byte) : NapReq :=
  let n := wb bs 5 0 11
  { carrier := c, opcode := wb bs 0 8 8, staged := wb bs 0 17 1 = 1, last := wb bs 0 18 1 = 1, session := wb bs 1 0 16,
    seq := wd bs 2, index := wb bs 3 0 16, sub := wb bs 3 16 8, type := wb bs 3 24 4, offset := wd bs 4, total := wd bs 6,
    value := (bs.drop 32).take n,
    tag := if wb bs 0 19 1 = 1 then (bs.drop (32 + n + (pad4 n).length)).take 16 else [], status := wb bs 0 24 8, detail := wd bs 7,
    epoch := Config.frameEpoch bs }

/-- The request in a frame, if R270 passes it; a frame with RESPONSE set is no request. -/
def parseReq (c : Carrier) (bs : List Byte) : Option NapReq :=
  if frameBad bs || frameResponse bs then none else some (reqOf c bs)

/-- The answer to a frame that fails R270: TYPE_MISMATCH with DETAIL 0xFFFF_FFFF, the header fields echoed. -/
def malformedAnswer (bs : List Byte) : List Byte :=
  ({ frameOf (reqOf (.pf1 0) (padTo 32 (bs.take 32))) with
      response := true, staged := false, last := false, status := 3, offset := 0, total := 0, value := [],
      detail := 0xFFFFFFFF } : NapFrame).bytes []

/-- The routing envelope of the sideband (R279). -/
def envelope (dest src hops : Nat) : List Byte := wordsLE [dest % 4096 + src % 4096 * 2 ^ 16, hops % 32]

/-- A record of the SIDEBAND or BKG channel: the prefix of R376 with the whole record's length, and what follows. -/
def portRecord (type : Nat) (body : List Byte) : List Byte := leBytes 4 (type + (body.length + 4) * 2 ^ 8) ++ body

end Sys2Proof.Machine
end

