-- ==== Sys2Proof/Machine/Objects.lean ====
section
/-! DEFINITION. The object map of the Nguvor dictionary (R301): one row per object of the spec's object tables, with
its indices and sub-indices, type (R265), access class (R266), default on each part, the unit that its sub-index
names, and the takes-effect marks that the Weir reads (R293, R294). A default that is no number is 0 here, and the
definition that reads the object says what it is. -/

namespace Sys2Proof.Machine

/-- Object types (R265). -/
inductive ObjTy where
  | u8 | u16 | u32 | u64 | i32 | f32 | bitset | str | blob | keyref
deriving DecidableEq, Repr

/-- The code of a type (R265). -/
def ObjTy.code : ObjTy → Nat
  | .u8 => 0 | .u16 => 1 | .u32 => 2 | .u64 => 3 | .i32 => 4 | .f32 => 5 | .bitset => 6 | .str => 7 | .blob => 8
  | .keyref => 9

/-- The bytes of a scalar type; 0 for STR and BLOB (R265). -/
def ObjTy.size : ObjTy → Nat
  | .u8 => 1 | .u16 => 2 | .u32 => 4 | .u64 => 8 | .i32 => 4 | .f32 => 4 | .bitset => 8 | .str => 0 | .blob => 0
  | .keyref => 4

/-- Access classes (R266). -/
inductive Acs where
  | ro | staged | live | command
deriving DecidableEq, Repr

/-- The class code that ENUM reports (R269). -/
def Acs.code : Acs → Nat
  | .ro => 0 | .staged => 1 | .live => 2 | .command => 3

/-- The unit that an object's sub-index names (R4). -/
inductive UnitKind where
  | none | core | die | dieOrHub | stack | stackOrBw | engine | port | rail
deriving DecidableEq, Repr

/-- A row of the object map. -/
structure ObjRow where
  iLo  : Nat
  iHi  : Nat
  sLo  : Nat
  sHi  : Nat
  ty   : ObjTy
  acs  : Acs
  d8   : Nat
  d6   : Nat
  unit : UnitKind
  /-- The rule reads "Weir commit, at once" (R293). -/
  once : Bool
  /-- Group-only by R294. -/
  group : Bool
deriving DecidableEq, Repr

/-- The objects of spec/00_*.md. -/
def objs00 : List ObjRow := [
  ⟨0x1000, 0x1000, 0x01, 0x01, .str, .ro, 0, 0, .none, false, false⟩, -- PART_NUMBER
  ⟨0x1000, 0x1000, 0x02, 0x02, .u16, .ro, 2312, 2310, .none, false, false⟩, -- PART_CODE
  ⟨0x1001, 0x1001, 0x01, 0x01, .bitset, .ro, 255, 63, .none, false, false⟩, -- CD_PRESENT
  ⟨0x1001, 0x1001, 0x02, 0x02, .bitset, .ro, 0xffff, 4095, .none, false, false⟩, -- STACK_PRESENT
  ⟨0x1001, 0x1001, 0x03, 0x03, .bitset, .ro, 63, 15, .none, false, false⟩, -- PORT_PRESENT
  ⟨0x1001, 0x1001, 0x04, 0x04, .bitset, .ro, 4095, 63, .none, false, false⟩, -- BW_CHANNEL_PRESENT
  ⟨0x1001, 0x1001, 0x05, 0x05, .u8, .ro, 1, 0, .none, false, false⟩ -- MATRIX_RULE_SEQ
]

/-- The objects of spec/01_*.md. -/
def objs01 : List ObjRow := [
  ⟨0x1002, 0x1002, 0x01, 0x01, .u8, .ro, 14, 14, .none, false, false⟩, -- CORES_PER_DIE
  ⟨0x1002, 0x1002, 0x02, 0x02, .u8, .ro, 8, 8, .none, false, false⟩, -- ENGINES_PER_CORE
  ⟨0x1002, 0x1002, 0x03, 0x03, .u8, .ro, 64, 64, .none, false, false⟩, -- ARRAY_DIM
  ⟨0x1002, 0x1002, 0x04, 0x04, .u16, .ro, 256, 256, .none, false, false⟩, -- VECTOR_LANES
  ⟨0x1002, 0x1002, 0x05, 0x05, .u32, .ro, 0x4000, 0x4000, .none, false, false⟩, -- CORE_SRAM_KIB
  ⟨0x1002, 0x1002, 0x06, 0x06, .u32, .ro, 2048, 2048, .none, false, false⟩, -- SIDE_MEM_KIB
  ⟨0x1002, 0x1002, 0x07, 0x07, .u32, .ro, 256, 256, .none, false, false⟩, -- PANEL_KIB
  ⟨0x1002, 0x1002, 0x08, 0x08, .u8, .ro, 32, 32, .none, false, false⟩, -- FTQ_ENTRIES
  ⟨0x1002, 0x1002, 0x09, 0x09, .u16, .ro, 64, 64, .none, false, false⟩, -- STACK_GIB
  ⟨0x1003, 0x1003, 0x01, 0x01, .u8, .ro, 64, 64, .none, false, false⟩, -- KOLFIN_HUB_LANES
  ⟨0x1003, 0x1003, 0x02, 0x02, .u8, .ro, 32, 32, .none, false, false⟩, -- KOLFIN_RING_LANES
  ⟨0x1003, 0x1003, 0x03, 0x03, .u16, .ro, 112, 112, .none, false, false⟩, -- KOLFIN_LANE_GBPS
  ⟨0x7010, 0x7010, 0x00, 0x07, .u8, .ro, 64, 64, .die, false, false⟩, -- KOLFIN_HUB_WIDTH
  ⟨0x7010, 0x7010, 0x10, 0x17, .u8, .ro, 32, 32, .die, false, false⟩, -- KOLFIN_RING_WIDTH
  ⟨0xA110, 0xA110, 0x00, 0x7D, .u32, .ro, 0, 0, .core, false, false⟩, -- BEAT_RATE
  ⟨0xA111, 0xA111, 0x00, 0x7D, .u64, .ro, 0, 0, .core, false, false⟩, -- BUSY_BEATS
  ⟨0xB001, 0xB001, 0x01, 0x01, .u64, .ro, 0, 0, .none, false, false⟩, -- EVENT_SEQ
  ⟨0xA120, 0xA120, 0x00, 0x08, .u8, .ro, 2, 2, .dieOrHub, false, false⟩ -- DELAY_CAL_STATE
]

/-- The objects of spec/02_*.md. -/
def objs02 : List ObjRow := [
  ⟨0x1004, 0x1004, 0x01, 0x01, .u16, .ro, 1024, 1024, .none, false, false⟩, -- STREAMS_MAX
  ⟨0x1004, 0x1004, 0x02, 0x02, .u16, .ro, 512, 512, .none, false, false⟩, -- SLUICE_SLOTS_MAX
  ⟨0x1004, 0x1004, 0x03, 0x03, .u16, .ro, 256, 256, .none, false, false⟩, -- OXBOW_ENTRIES
  ⟨0x1004, 0x1004, 0x04, 0x04, .u8, .ro, 8, 8, .none, false, false⟩, -- VERSION_SLOTS
  ⟨0x1004, 0x1004, 0x05, 0x05, .u8, .ro, 64, 64, .none, false, false⟩, -- VARIANTS_MAX
  ⟨0x1004, 0x1004, 0x06, 0x06, .u32, .ro, 0x10000, 0x10000, .none, false, false⟩, -- MSG_PAYLOAD_MAX
  ⟨0x1004, 0x1004, 0x07, 0x07, .u8, .ro, 64, 64, .none, false, false⟩, -- SEND_QUEUE_DEPTH
  ⟨0x4001, 0x4001, 0x01, 0x01, .u8, .staged, 0, 0, .none, false, true⟩, -- SCHEDULE_MODE
  ⟨0x4001, 0x4001, 0x02, 0x02, .u16, .staged, 1, 1, .none, false, true⟩, -- MICROBATCHES_PER_STEP
  ⟨0x4001, 0x4001, 0x03, 0x03, .u16, .staged, 1, 1, .none, false, true⟩, -- STASH_UPDATE_INTERVAL
  ⟨0x4001, 0x4001, 0x04, 0x04, .u8, .staged, 0, 0, .none, false, true⟩, -- PICK_POLICY
  ⟨0x4001, 0x4001, 0x05, 0x05, .u16, .staged, 1, 1, .none, false, true⟩, -- STAGE_COUNT
  ⟨0x4001, 0x4001, 0x06, 0x06, .blob, .staged, 0, 0, .none, false, true⟩, -- VARIANT_CYCLE
  ⟨0xB100, 0xB100, 0x00, 0x7D, .u64, .ro, 0, 0, .core, false, false⟩, -- SEND_BLOCKED_BEATS
  ⟨0xB101, 0xB101, 0x00, 0x7D, .u64, .ro, 0, 0, .core, false, false⟩, -- RECV_EMPTY_BEATS
  ⟨0xB102, 0xB102, 0x00, 0x7D, .u64, .ro, 0, 0, .core, false, false⟩, -- OXBOW_RUN_BEATS
  ⟨0xB103, 0xB103, 0x00, 0x7D, .u16, .ro, 0, 0, .core, false, false⟩, -- OXBOW_PEAK
  ⟨0xB104, 0xB104, 0x00, 0x7D, .u32, .ro, 0, 0, .core, false, false⟩, -- LATE_DISCARDS
  ⟨0xB105, 0xB105, 0x00, 0x7D, .u8, .ro, 0, 0, .core, false, false⟩, -- VERSION_LIVE_PEAK
  ⟨0xB106, 0xB106, 0x00, 0x7D, .u32, .ro, 0, 0, .core, false, false⟩ -- CREDIT_WAITS
]

/-- The objects of spec/03_*.md. -/
def objs03 : List ObjRow := [
  ⟨0x1005, 0x1005, 0x01, 0x01, .bitset, .ro, 2047, 2047, .none, false, false⟩, -- FORMATS_SUPPORTED
  ⟨0x1005, 0x1005, 0x02, 0x02, .bitset, .ro, 15, 15, .none, false, false⟩, -- BLOCK_SIZES
  ⟨0x1005, 0x1005, 0x03, 0x03, .u16, .ro, 256, 256, .none, false, false⟩, -- SCALE_TABLE_ENTRIES
  ⟨0x5010, 0x5010, 0x00, 0x7D, .u64, .ro, 0, 0, .core, false, false⟩, -- SAT_COUNT_TOTAL
  ⟨0x5011, 0x5011, 0x00, 0x7D, .u64, .ro, 0, 0, .core, false, false⟩, -- NAN_ZEROED
  ⟨0x5012, 0x5012, 0x00, 0x7D, .u64, .ro, 0, 0, .core, false, false⟩, -- LOAD_SAT_COUNT
  ⟨0x5013, 0x5013, 0x00, 0x7D, .u32, .ro, 0, 0, .core, false, false⟩, -- SCALE_CHANGES
  ⟨0x5014, 0x5014, 0x00, 0x07, .u64, .ro, 0, 0, .die, false, false⟩, -- UPDATE_SAT_COUNT
  ⟨0x5001, 0x5001, 0x01, 0x01, .u64, .staged, 0, 0, .none, false, true⟩ -- JOB_SEED
]

/-- The objects of spec/04_*.md. -/
def objs04 : List ObjRow := [
  ⟨0x1006, 0x1006, 0x01, 0x01, .u16, .ro, 256, 256, .none, false, false⟩, -- ADAPTER_RANK_MAX
  ⟨0x1006, 0x1006, 0x02, 0x02, .u8, .ro, 64, 64, .none, false, false⟩, -- ADAPTER_ENTRIES
  ⟨0x1006, 0x1006, 0x03, 0x03, .u32, .ro, 0x100000, 0x100000, .none, false, false⟩, -- ACC_GROUPS_MAX
  ⟨0x1006, 0x1006, 0x04, 0x04, .u16, .ro, 240, 240, .none, false, false⟩, -- OPERAND_MAG_LIMIT_EXP
  ⟨0x8030, 0x8037, 0x00, 0x6F, .u32, .ro, 0, 0, .engine, false, false⟩, -- ENGINE_REPAIR
  ⟨0x8038, 0x8038, 0x00, 0x7D, .u32, .ro, 0, 0, .core, false, false⟩ -- REPLAYS
]

/-- The objects of spec/05_*.md. -/
def objs05 : List ObjRow := [
  ⟨0x1007, 0x1007, 0x01, 0x01, .u16, .ro, 4096, 4096, .none, false, false⟩, -- VL_MAX
  ⟨0x1007, 0x1007, 0x02, 0x02, .u8, .ro, 32, 32, .none, false, false⟩, -- VREGS
  ⟨0x1007, 0x1007, 0x03, 0x03, .u16, .ro, 256, 256, .none, false, false⟩, -- VREG_ELEMENTS
  ⟨0x1007, 0x1007, 0x04, 0x04, .u8, .ro, 8, 8, .none, false, false⟩, -- MASK_REGS
  ⟨0x1007, 0x1007, 0x05, 0x05, .u8, .ro, 8, 8, .none, false, false⟩, -- SUMMARY_REGS
  ⟨0x1007, 0x1007, 0x06, 0x06, .u8, .ro, 8, 8, .none, false, false⟩, -- TABLE_SLOTS
  ⟨0x1007, 0x1007, 0x07, 0x07, .u16, .ro, 8192, 8192, .none, false, false⟩, -- ROW_COUNT_MAX
  ⟨0x1007, 0x1007, 0x08, 0x08, .u32, .ro, 0x20000, 0x20000, .none, false, false⟩, -- STAT_RECORDS
  ⟨0x5015, 0x5015, 0x00, 0x7D, .u64, .ro, 0, 0, .core, false, false⟩, -- ROW_EMPTY_COUNT
  ⟨0x5016, 0x5016, 0x00, 0x7D, .u64, .ro, 0, 0, .core, false, false⟩, -- ROW_INF_COUNT
  ⟨0x5017, 0x5017, 0x00, 0x7D, .u64, .ro, 0, 0, .core, false, false⟩, -- ROW_NAN_COUNT
  ⟨0x5018, 0x5018, 0x00, 0x7D, .u8, .ro, 0, 0, .core, false, false⟩, -- NF_STEP
  ⟨0x5020, 0x5027, 0x00, 0x7D, .u32, .ro, 0, 0, .core, false, false⟩, -- TABLE_SLOT
  ⟨0xB107, 0xB107, 0x00, 0x7D, .u64, .ro, 0, 0, .core, false, false⟩, -- FTQ_FULL_BEATS
  ⟨0xB108, 0xB108, 0x00, 0x7D, .u64, .ro, 0, 0, .core, false, false⟩ -- VECTOR_BUSY_BEATS
]

/-- The objects of spec/06_*.md. -/
def objs06 : List ObjRow := [
  ⟨0x1008, 0x1008, 0x01, 0x01, .u16, .ro, 256, 256, .none, false, false⟩, -- PROG_MEM_KIB
  ⟨0x1008, 0x1008, 0x02, 0x02, .u16, .ro, 64, 64, .none, false, false⟩, -- SDATA_KIB
  ⟨0x1008, 0x1008, 0x03, 0x03, .u8, .ro, 16, 16, .none, false, false⟩, -- MX_QUEUE_DEPTH
  ⟨0x1008, 0x1008, 0x04, 0x04, .u8, .ro, 32, 32, .none, false, false⟩, -- VEC_QUEUE_DEPTH
  ⟨0x1008, 0x1008, 0x05, 0x05, .u8, .ro, 16, 16, .none, false, false⟩, -- ROW_QUEUE_DEPTH
  ⟨0x1008, 0x1008, 0x06, 0x06, .u8, .ro, 32, 32, .none, false, false⟩, -- TM_QUEUE_DEPTH
  ⟨0x1008, 0x1008, 0x07, 0x07, .u8, .ro, 64, 64, .none, false, false⟩, -- RECV_QUEUE_DEPTH
  ⟨0x1008, 0x1008, 0x08, 0x08, .u8, .ro, 16, 16, .none, false, false⟩, -- UPD_QUEUE_DEPTH
  ⟨0x1008, 0x1008, 0x09, 0x09, .u8, .ro, 16, 16, .none, false, false⟩, -- ERROR_LOG_ENTRIES
  ⟨0x4010, 0x4010, 0x01, 0x01, .u32, .command, 0, 0, .none, false, false⟩, -- LOAD_COMMAND
  ⟨0x4010, 0x4010, 0x02, 0x02, .u32, .ro, 0, 0, .none, false, false⟩, -- LOAD_STATUS
  ⟨0x4011, 0x4011, 0x00, 0x7D, .u32, .ro, 0, 0, .core, false, false⟩, -- PROGRAM_VERSION
  ⟨0x4012, 0x4012, 0x00, 0x7D, .u8, .ro, 0, 0, .core, false, false⟩, -- CORE_STATE
  ⟨0x4013, 0x4013, 0x00, 0x7D, .u32, .ro, 0, 0, .core, false, false⟩ -- ERR_LOST
]

/-- The objects of spec/07_*.md. -/
def objs07 : List ObjRow := [
  ⟨0x1009, 0x1009, 0x01, 0x01, .u16, .ro, 4096, 4096, .none, false, false⟩, -- TENSORS_PER_DIE
  ⟨0x1009, 0x1009, 0x02, 0x02, .u32, .ro, 8192, 8192, .none, false, false⟩, -- ARRIVAL_BUFFER_KIB
  ⟨0x1009, 0x1009, 0x03, 0x03, .u8, .ro, 64, 64, .none, false, false⟩, -- RULE_SETS
  ⟨0x1009, 0x1009, 0x04, 0x04, .u16, .ro, 8192, 8192, .none, false, false⟩, -- FACTOR_DIM_MAX
  ⟨0x1009, 0x1009, 0x05, 0x05, .u16, .ro, 256, 256, .none, false, false⟩, -- UPDATE_LANES
  ⟨0x4100, 0x4100, 0x00, 0x07, .blob, .staged, 0, 0, .die, false, false⟩, -- TENSOR_TABLE
  ⟨0x4102, 0x4102, 0x01, 0x01, .u32, .staged, 0xc00000, 0xc00000, .none, false, false⟩, -- SEQ_SRAM_BASE
  ⟨0x4102, 0x4102, 0x02, 0x02, .u32, .staged, 4096, 4096, .none, false, false⟩, -- SEQ_SRAM_KIB
  ⟨0x4103, 0x4103, 0x00, 0x07, .u64, .staged, 0, 0, .die, false, false⟩, -- SEQ_SCRATCH_BASE
  ⟨0x4104, 0x4104, 0x00, 0x07, .u64, .staged, 0, 0, .die, false, false⟩, -- SEQ_SCRATCH_STRIDE
  ⟨0x4020, 0x4020, 0x01, 0x01, .u16, .staged, 8, 8, .none, false, false⟩, -- SKIP_HALT_LIMIT
  ⟨0x5100, 0x513F, 0x01, 0x01, .f32, .staged, 0x3f666666, 0x3f666666, .none, false, false⟩, -- BETA1
  ⟨0x5100, 0x513F, 0x02, 0x02, .f32, .staged, 0x3f7fbe77, 0x3f7fbe77, .none, false, false⟩, -- BETA2
  ⟨0x5100, 0x513F, 0x03, 0x03, .f32, .staged, 0x322bcc77, 0x322bcc77, .none, false, false⟩, -- EPS
  ⟨0x5100, 0x513F, 0x04, 0x04, .f32, .staged, 0, 0, .none, false, false⟩, -- WEIGHT_DECAY
  ⟨0x5100, 0x513F, 0x05, 0x05, .f32, .staged, 0x3f800000, 0x3f800000, .none, false, false⟩, -- GRAD_SCALE
  ⟨0x5100, 0x513F, 0x06, 0x06, .u8, .staged, 0, 0, .none, false, false⟩, -- NESTEROV
  ⟨0x5100, 0x513F, 0x07, 0x07, .u8, .staged, 5, 5, .none, false, false⟩, -- NS_ITERS
  ⟨0x5100, 0x513F, 0x08, 0x08, .f32, .staged, 0x405c0000, 0x405c0000, .none, false, false⟩, -- NS_A
  ⟨0x5100, 0x513F, 0x09, 0x09, .f32, .staged, 0xc0980000, 0xc0980000, .none, false, false⟩, -- NS_B
  ⟨0x5100, 0x513F, 0x0A, 0x0A, .f32, .staged, 0x40000000, 0x40000000, .none, false, false⟩, -- NS_C
  ⟨0x5100, 0x513F, 0x0B, 0x0B, .f32, .staged, 0x3f800000, 0x3f800000, .none, false, false⟩, -- RULE_MULT
  ⟨0x5100, 0x513F, 0x0C, 0x0C, .u8, .staged, 0, 0, .none, false, false⟩, -- NS_SPLIT3
  ⟨0x5100, 0x513F, 0x0D, 0x0D, .u16, .staged, 10, 10, .none, false, false⟩, -- KF_REFRESH
  ⟨0x5100, 0x513F, 0x0E, 0x0E, .u8, .staged, 10, 10, .none, false, false⟩, -- KF_ITERS
  ⟨0x5100, 0x513F, 0x0F, 0x0F, .f32, .staged, 0x358637bd, 0x358637bd, .none, false, false⟩, -- KF_EPS
  ⟨0x5100, 0x513F, 0x10, 0x10, .u8, .staged, 1, 1, .none, false, false⟩, -- LR_POINT_COUNT
  ⟨0x5100, 0x513F, 0x11, 0x20, .u64, .staged, 0, 0, .none, false, false⟩, -- LR_POINT
  ⟨0x4020, 0x4020, 0x02, 0x02, .u16, .ro, 0, 0, .none, false, false⟩, -- SKIP_RUN
  ⟨0x4020, 0x4020, 0x03, 0x03, .u32, .ro, 0, 0, .none, false, false⟩, -- SKIPS_TOTAL
  ⟨0x4020, 0x4020, 0x04, 0x04, .u64, .ro, 0, 0, .none, false, false⟩, -- LAST_SKIP_STEP
  ⟨0x5019, 0x5019, 0x00, 0x7D, .u64, .ro, 0, 0, .core, false, false⟩, -- NF_MB_LOG
  ⟨0x501A, 0x501A, 0x00, 0x7D, .u8, .ro, 0, 0, .core, false, false⟩, -- NF_MB_COUNT
  ⟨0x5030, 0x5030, 0x00, 0x07, .u64, .ro, 0, 0, .die, false, false⟩, -- TIER_MISSES
  ⟨0x5031, 0x5031, 0x00, 0x07, .u64, .ro, 0, 0, .die, false, false⟩, -- TIER_MISS_HOLD_US
  ⟨0x5032, 0x5032, 0x00, 0x07, .u64, .ro, 0, 0, .die, false, false⟩, -- STAGNATION_TOTAL
  ⟨0x5033, 0x5033, 0x00, 0x07, .u64, .ro, 0, 0, .die, false, false⟩, -- FROZEN_DISCARDS
  ⟨0x5034, 0x5034, 0x00, 0x07, .u64, .ro, 0, 0, .die, false, false⟩, -- SEQ_RUN_US
  ⟨0x5035, 0x5035, 0x00, 0x07, .u16, .ro, 0, 0, .die, false, false⟩ -- ARRIVAL_PEAK
]

/-- The objects of spec/08_*.md. -/
def objs08 : List ObjRow := [
  ⟨0x100A, 0x100A, 0x01, 0x01, .u16, .ro, 64, 64, .none, false, false⟩, -- PLAIN_PAGE_KIB
  ⟨0x100A, 0x100A, 0x02, 0x02, .u16, .ro, 4, 4, .none, false, false⟩, -- SECTOR_KIB
  ⟨0x100A, 0x100A, 0x03, 0x03, .u8, .ro, 16, 16, .none, false, false⟩, -- TILE_PAGE_TILES
  ⟨0x100A, 0x100A, 0x04, 0x04, .u16, .ro, 1024, 1024, .none, false, false⟩, -- TILE_REGIONS_MAX
  ⟨0x100A, 0x100A, 0x05, 0x05, .u16, .ro, 1024, 1024, .none, false, false⟩, -- HINT_RECORDS_MAX
  ⟨0x100A, 0x100A, 0x06, 0x06, .u16, .ro, 4096, 4096, .none, false, false⟩, -- STEP_PLAN_MAX
  ⟨0x100A, 0x100A, 0x07, 0x07, .u16, .ro, 256, 256, .none, false, false⟩, -- SYSTEM_REGION_MIB
  ⟨0x6010, 0x6010, 0x00, 0x00, .blob, .staged, 0, 0, .none, false, false⟩, -- TILE_REGIONS
  ⟨0x6011, 0x6011, 0x00, 0x00, .blob, .staged, 0, 0, .none, false, false⟩, -- HINTS
  ⟨0x6012, 0x6012, 0x00, 0x00, .blob, .staged, 0, 0, .none, false, false⟩, -- STEP_PLAN
  ⟨0x6013, 0x6013, 0x01, 0x01, .u16, .staged, 64, 64, .none, false, false⟩, -- SNAPSHOT_RESERVE_GIB
  ⟨0x6013, 0x6013, 0x02, 0x02, .u8, .staged, 6, 6, .none, false, false⟩, -- FREE_FLOOR_PCT
  ⟨0x6013, 0x6013, 0x03, 0x03, .u16, .staged, 256, 256, .none, false, false⟩, -- PROMOTE_HEAT
  ⟨0x6013, 0x6013, 0x04, 0x04, .u8, .staged, 64, 64, .none, false, false⟩, -- MIGRATE_LEAD
  ⟨0x6014, 0x6014, 0x01, 0x01, .blob, .command, 0, 0, .none, false, false⟩, -- MEM_RELEASE
  ⟨0x6015, 0x6015, 0x01, 0x01, .u64, .live, 0, 0, .none, false, false⟩, -- PAGE_QUERY_ADDR
  ⟨0x6015, 0x6015, 0x02, 0x02, .blob, .ro, 0, 0, .none, false, false⟩, -- PAGE_QUERY_RESULT
  ⟨0x6001, 0x6001, 0x01, 0x01, .u32, .ro, 0, 0, .none, false, false⟩, -- TIERED_LIMIT_GIB
  ⟨0x6001, 0x6001, 0x02, 0x02, .bitset, .ro, 0, 0, .none, false, false⟩, -- BW_CHANNELS
  ⟨0x6001, 0x6001, 0x03, 0x03, .u16, .ro, 0, 0, .none, false, false⟩, -- BW_DIMM_GIB
  ⟨0x6001, 0x6001, 0x04, 0x04, .u8, .ro, 0, 0, .none, false, false⟩, -- BW_DIMMS_PER_CH
  ⟨0x6020, 0x6020, 0x00, 0x0F, .u32, .ro, 0, 0, .stack, false, false⟩, -- STACK_FREE_SECTORS
  ⟨0x6021, 0x6021, 0x00, 0x00, .u32, .ro, 0, 0, .none, false, false⟩, -- BW_FREE_SECTORS
  ⟨0x6022, 0x6022, 0x00, 0x0F, .u64, .ro, 0, 0, .stack, false, false⟩, -- STACK_CE
  ⟨0x6023, 0x6023, 0x00, 0x0F, .u64, .ro, 0, 0, .stack, false, false⟩, -- STACK_UE
  ⟨0x6024, 0x6024, 0x00, 0x00, .u64, .ro, 0, 0, .none, false, false⟩, -- BW_CE
  ⟨0x6025, 0x6025, 0x00, 0x00, .u64, .ro, 0, 0, .none, false, false⟩, -- BW_UE
  ⟨0x6026, 0x6026, 0x01, 0x04, .u64, .ro, 0, 0, .none, false, false⟩, -- PROMOTIONS, DEMOTIONS, MIGRATIONS, MIGRATIONS_VOIDED
  ⟨0x6027, 0x6027, 0x01, 0x02, .u64, .ro, 0, 0, .none, false, false⟩, -- RAW_LINES_READ, STORED_LINES_READ
  ⟨0x6028, 0x6028, 0x00, 0x00, .u64, .ro, 0, 0, .none, false, false⟩, -- SNAPSHOT_HOLDS
  ⟨0xB109, 0xB109, 0x00, 0x7D, .u64, .ro, 0, 0, .core, false, false⟩, -- BW_WAIT_BEATS
  ⟨0xB10A, 0xB10A, 0x00, 0x7D, .u64, .ro, 0, 0, .core, false, false⟩, -- BW_DEMAND_READS
  ⟨0xB10B, 0xB10B, 0x00, 0x7D, .u64, .ro, 0, 0, .core, false, false⟩ -- PARTIAL_TILE_WRITES
]

/-- The objects of spec/09_*.md. -/
def objs09 : List ObjRow := [
  ⟨0x100B, 0x100B, 0x01, 0x01, .u16, .ro, 512, 512, .none, false, false⟩, -- COLLECTIVES_MAX
  ⟨0x100B, 0x100B, 0x02, 0x02, .u16, .ro, 256, 256, .none, false, false⟩, -- REPLICA_GROUPS_MAX
  ⟨0x100B, 0x100B, 0x03, 0x03, .u8, .ro, 4, 4, .none, false, false⟩, -- TRIB_WINDOW_TILES
  ⟨0x100B, 0x100B, 0x04, 0x04, .u32, .ro, 0x20000, 0x20000, .none, false, false⟩, -- TRIB_WINDOW_KIB
  ⟨0x100B, 0x100B, 0x05, 0x05, .u16, .ro, 4096, 4096, .none, false, false⟩, -- PERMUTE_ENTRIES_MAX
  ⟨0x100B, 0x100B, 0x06, 0x06, .u8, .ro, 64, 64, .none, false, false⟩, -- GROUP_SIZE_MAX
  ⟨0x4030, 0x4030, 0x01, 0x01, .u16, .staged, 0, 0, .none, false, true⟩, -- JOB_POSITION
  ⟨0x4030, 0x4030, 0x02, 0x02, .u16, .staged, 0, 0, .none, false, true⟩, -- GROUP_ID
  ⟨0x4030, 0x4030, 0x03, 0x03, .u16, .staged, 0, 0, .none, false, true⟩, -- MASTER_POSITION
  ⟨0x4030, 0x4030, 0x04, 0x04, .u16, .staged, 0, 0, .none, false, true⟩, -- DEPUTY_POSITION
  ⟨0x4030, 0x4030, 0x05, 0x05, .u16, .staged, 0xffff, 0xffff, .none, false, true⟩, -- PARENT_MASTER
  ⟨0x4030, 0x4030, 0x06, 0x06, .blob, .staged, 0, 0, .none, false, true⟩, -- GROUP_MEMBERS
  ⟨0x4030, 0x4030, 0x07, 0x07, .blob, .staged, 0, 0, .none, false, true⟩, -- CHILD_MASTERS
  ⟨0x4030, 0x4030, 0x08, 0x08, .blob, .staged, 0, 0, .none, false, true⟩, -- SPARES
  ⟨0x4030, 0x4030, 0x09, 0x09, .u8, .staged, 0, 0, .none, false, true⟩, -- ROLE
  ⟨0x4030, 0x4030, 0x0A, 0x0A, .u16, .staged, 0xffff, 0xffff, .none, false, true⟩, -- BUDDY_POSITION
  ⟨0x4030, 0x4030, 0x0B, 0x0B, .u32, .staged, 0, 0, .none, false, true⟩, -- BUDDY_RESERVE_GIB
  ⟨0x4031, 0x4031, 0x00, 0x00, .blob, .staged, 0, 0, .none, false, true⟩, -- REPLICA_GROUPS
  ⟨0x4032, 0x4032, 0x00, 0x00, .blob, .staged, 0, 0, .none, false, true⟩, -- COLLECTIVES
  ⟨0x4033, 0x4033, 0x00, 0x00, .blob, .staged, 0, 0, .none, false, true⟩, -- PERMUTE_PLAN
  ⟨0x4034, 0x4034, 0x01, 0x01, .u32, .staged, 0, 0, .none, false, true⟩, -- LAYOUT_GEN_NEXT
  ⟨0x7020, 0x7020, 0x00, 0x05, .u32, .staged, 0, 0, .port, false, true⟩, -- LINK_MAP
  ⟨0x7021, 0x7021, 0x00, 0x00, .blob, .staged, 0, 0, .none, false, true⟩, -- CTRL_ROUTE
  ⟨0x4040, 0x4040, 0x01, 0x01, .blob, .command, 0, 0, .none, false, false⟩, -- VOTE_REPORT
  ⟨0x4040, 0x4040, 0x02, 0x02, .blob, .command, 0, 0, .none, false, false⟩, -- VERDICT
  ⟨0x4040, 0x4040, 0x03, 0x03, .blob, .command, 0, 0, .none, false, false⟩, -- PERMUTE_DONE
  ⟨0x4040, 0x4040, 0x04, 0x04, .blob, .command, 0, 0, .none, false, false⟩, -- LAYOUT_COMMIT
  ⟨0x4040, 0x4040, 0x05, 0x05, .u32, .command, 0, 0, .none, false, false⟩, -- HEARTBEAT
  ⟨0x4040, 0x4040, 0x06, 0x06, .blob, .command, 0, 0, .none, false, false⟩, -- TAKEOVER
  ⟨0x4040, 0x4040, 0x07, 0x07, .u32, .command, 0, 0, .none, false, false⟩, -- TAKEOVER_MASTER
  ⟨0x4035, 0x4035, 0x01, 0x01, .u32, .ro, 0, 0, .none, false, false⟩, -- LAYOUT_GEN
  ⟨0x4035, 0x4035, 0x02, 0x02, .u8, .ro, 0, 0, .none, false, false⟩, -- ATTEMPT
  ⟨0x4035, 0x4035, 0x03, 0x03, .u32, .ro, 0, 0, .none, false, false⟩, -- MASTER_EPOCH
  ⟨0x4035, 0x4035, 0x04, 0x04, .u32, .ro, 0, 0, .none, false, false⟩, -- STATE_FRAMES_GIB
  ⟨0x7022, 0x7022, 0x00, 0x05, .u32, .ro, 0, 0, .port, false, false⟩, -- PORT_PEER
  ⟨0xB110, 0xB110, 0x01, 0x01, .u64, .ro, 0, 0, .none, false, false⟩, -- TRIB_LATE_DISCARDS
  ⟨0xB110, 0xB110, 0x02, 0x02, .u64, .ro, 0, 0, .none, false, false⟩, -- RSEND_ORDER_WAITS
  ⟨0xB110, 0xB110, 0x03, 0x03, .u64, .ro, 0, 0, .none, false, false⟩, -- WINDOW_WAIT_US
  ⟨0xB111, 0xB111, 0x00, 0x05, .u64, .ro, 0, 0, .port, false, false⟩, -- TRIB_TX_BYTES
  ⟨0xB112, 0xB112, 0x00, 0x05, .u64, .ro, 0, 0, .port, false, false⟩ -- FORWARD_TX_BYTES
]

/-- The objects of spec/10_*.md. -/
def objs10 : List ObjRow := [
  ⟨0x8001, 0x8001, 0x01, 0x01, .u8, .command, 0, 0, .none, false, false⟩, -- FRESHET
  ⟨0x8001, 0x8001, 0x02, 0x02, .u8, .staged, 1, 1, .none, true, false⟩, -- FRESHET_PIN_HALT
  ⟨0x8001, 0x8001, 0x03, 0x03, .u8, .ro, 0, 0, .none, false, false⟩, -- FRESHET_STATE
  ⟨0x8001, 0x8001, 0x04, 0x04, .u32, .ro, 0, 0, .none, false, false⟩, -- FRESHET_MERGED
  ⟨0x8001, 0x8001, 0x05, 0x05, .u8, .command, 0, 0, .none, false, false⟩, -- JOB_RESUME
  ⟨0x8001, 0x8001, 0x06, 0x06, .u8, .command, 0, 0, .none, false, false⟩, -- CKPT_ABORT
  ⟨0x8002, 0x8002, 0x01, 0x01, .bitset, .staged, 1, 1, .none, false, false⟩, -- CKPT_DEST
  ⟨0x8002, 0x8002, 0x02, 0x05, .u64, .staged, 0, 0, .none, false, false⟩, -- CKPT_HOST_SLOT
  ⟨0x8002, 0x8002, 0x06, 0x06, .u16, .staged, 64, 64, .none, true, false⟩, -- CKPT_HOST_GBPS
  ⟨0x8002, 0x8002, 0x07, 0x07, .u8, .staged, 10, 10, .none, true, false⟩, -- CKPT_PORT_SHARE_PCT
  ⟨0x8003, 0x8003, 0x00, 0x00, .blob, .staged, 0, 0, .none, false, false⟩, -- CKPT_TENSOR_MAP
  ⟨0x8004, 0x8004, 0x01, 0x01, .u64, .ro, 0, 0, .none, false, false⟩, -- CKPT_STEP
  ⟨0x8004, 0x8004, 0x02, 0x02, .u64, .ro, 0, 0, .none, false, false⟩, -- CKPT_BYTES_LEFT
  ⟨0x8004, 0x8004, 0x03, 0x03, .u32, .ro, 0, 0, .none, false, false⟩, -- CKPT_REWRITES
  ⟨0x8004, 0x8004, 0x04, 0x04, .u64, .ro, 0, 0, .none, false, false⟩, -- JOB_CKPT_STEP
  ⟨0x8004, 0x8004, 0x05, 0x05, .u8, .ro, 255, 255, .none, false, false⟩, -- JOB_CKPT_SLOT
  ⟨0x8005, 0x8005, 0x01, 0x01, .u64, .ro, 0, 0, .none, false, false⟩, -- COMMITTED_STEP
  ⟨0x8005, 0x8005, 0x02, 0x02, .u32, .ro, 0, 0, .none, false, false⟩, -- ROLLBACKS
  ⟨0x8005, 0x8005, 0x03, 0x03, .u64, .ro, 0, 0, .none, false, false⟩, -- LAST_ROLLBACK_TARGET
  ⟨0x8006, 0x8006, 0x01, 0x01, .u8, .staged, 1, 1, .none, false, true⟩, -- BUDDY_COMMIT_GATE
  ⟨0x8006, 0x8006, 0x02, 0x02, .u8, .staged, 15, 15, .none, false, false⟩, -- BUDDY_SHARE_PCT
  ⟨0x8006, 0x8006, 0x03, 0x03, .u64, .ro, 0, 0, .none, false, false⟩, -- BUDDY_STEP
  ⟨0x8006, 0x8006, 0x04, 0x04, .u32, .ro, 0xffffffff, 0xffffffff, .none, false, false⟩, -- BUDDY_LAG
  ⟨0x8006, 0x8006, 0x05, 0x05, .u64, .ro, 0, 0, .none, false, false⟩, -- BUDDY_GATE_HOLD_US
  ⟨0x8006, 0x8006, 0x06, 0x06, .u64, .ro, 0, 0, .none, false, false⟩, -- TAKEOVER_BYTES
  ⟨0x8007, 0x8007, 0x01, 0x01, .u32, .command, 0, 0, .none, false, false⟩, -- RESTORE_COMMAND
  ⟨0x8007, 0x8007, 0x02, 0x02, .u32, .ro, 0, 0, .none, false, false⟩, -- RESTORE_STATUS
  ⟨0x8007, 0x8007, 0x03, 0x03, .blob, .command, 0, 0, .none, false, false⟩, -- CKPT_EXPORT
  ⟨0x4040, 0x4040, 0x08, 0x08, .blob, .command, 0, 0, .none, false, false⟩, -- FAULT_REPORT
  ⟨0x4040, 0x4040, 0x09, 0x09, .blob, .command, 0, 0, .none, false, false⟩, -- COMMIT_READY
  ⟨0x4040, 0x4040, 0x0A, 0x0A, .blob, .command, 0, 0, .none, false, false⟩, -- STEP_COMMIT
  ⟨0x4040, 0x4040, 0x0B, 0x0B, .blob, .command, 0, 0, .none, false, false⟩, -- ROLLBACK
  ⟨0x4040, 0x4040, 0x0C, 0x0C, .blob, .command, 0, 0, .none, false, false⟩, -- RESTART_READY
  ⟨0x4040, 0x4040, 0x0D, 0x0D, .blob, .command, 0, 0, .none, false, false⟩, -- RESTART
  ⟨0x4040, 0x4040, 0x0E, 0x0E, .blob, .command, 0, 0, .none, false, false⟩, -- FRESHET_NOTICE
  ⟨0x4040, 0x4040, 0x0F, 0x0F, .blob, .command, 0, 0, .none, false, false⟩, -- CUT_AT
  ⟨0x4040, 0x4040, 0x10, 0x10, .blob, .command, 0, 0, .none, false, false⟩, -- CKPT_DONE
  ⟨0x4040, 0x4040, 0x11, 0x11, .blob, .command, 0, 0, .none, false, false⟩, -- CKPT_COMMIT
  ⟨0x4040, 0x4040, 0x12, 0x12, .blob, .command, 0, 0, .none, false, false⟩, -- CKPT_ABORT_JOB
  ⟨0x4040, 0x4040, 0x13, 0x13, .u64, .command, 0, 0, .none, false, false⟩, -- BUDDY_ACK
  ⟨0x4040, 0x4040, 0x14, 0x14, .blob, .command, 0, 0, .none, false, false⟩, -- RESTORE_READY
  ⟨0x4040, 0x4040, 0x15, 0x15, .blob, .command, 0, 0, .none, false, false⟩ -- RESTORE_COMMIT
]

/-- The objects of spec/11_*.md. -/
def objs11 : List ObjRow := [
  ⟨0x2006, 0x2006, 0x01, 0x01, .u8, .live, 0, 0, .none, false, false⟩, -- EVENT_SUBSCRIBE
  ⟨0x4002, 0x4002, 0x01, 0x01, .u8, .command, 0, 0, .none, false, false⟩, -- JOB_START
  ⟨0x4002, 0x4002, 0x02, 0x02, .u8, .command, 0, 0, .none, false, false⟩, -- JOB_END
  ⟨0x4002, 0x4002, 0x03, 0x03, .u8, .ro, 0, 0, .none, false, false⟩, -- JOB_STATE
  ⟨0x100C, 0x100C, 0x01, 0x01, .u16, .ro, 1024, 1024, .none, false, false⟩, -- NAP_VALUE_MAX
  ⟨0x100C, 0x100C, 0x02, 0x02, .u8, .ro, 32, 32, .none, false, false⟩, -- SESSIONS_MAX
  ⟨0x100C, 0x100C, 0x03, 0x03, .u8, .ro, 64, 64, .none, false, false⟩, -- NAP_QUEUE_DEPTH
  ⟨0x100C, 0x100C, 0x04, 0x04, .u32, .ro, 0x4000, 0x4000, .none, false, false⟩, -- WEIR_KIB
  ⟨0x100C, 0x100C, 0x05, 0x05, .u32, .ro, 4096, 4096, .none, false, false⟩, -- BLOB_MAX_KIB
  ⟨0x100C, 0x100C, 0x06, 0x06, .u16, .ro, 0x4e39, 0x4e39, .none, false, false⟩, -- NAP_UDP_PORT
  ⟨0x2001, 0x2001, 0x01, 0x01, .u64, .command, 0, 0, .none, false, false⟩, -- OWNER_CLAIM
  ⟨0x2001, 0x2001, 0x02, 0x02, .u32, .command, 0, 0, .none, false, false⟩, -- OWNER_HEARTBEAT
  ⟨0x2001, 0x2001, 0x03, 0x03, .u8, .command, 0, 0, .none, false, false⟩, -- OWNER_RELEASE
  ⟨0x2001, 0x2001, 0x04, 0x04, .u16, .command, 0, 0, .none, false, false⟩, -- OWNER_OFFER
  ⟨0x2001, 0x2001, 0x05, 0x05, .u32, .command, 0, 0, .none, false, false⟩, -- OWNER_ACCEPT
  ⟨0x2002, 0x2002, 0x01, 0x01, .u16, .ro, 0, 0, .none, false, false⟩, -- OWNER_SESSION
  ⟨0x2002, 0x2002, 0x02, 0x02, .u8, .ro, 0, 0, .none, false, false⟩, -- OWNER_CARRIER
  ⟨0x2002, 0x2002, 0x03, 0x03, .u8, .ro, 0, 0, .none, false, false⟩, -- OWNER_PRIORITY
  ⟨0x2002, 0x2002, 0x04, 0x04, .u32, .ro, 0, 0, .none, false, false⟩, -- OWNER_LEASE_LEFT_MS
  ⟨0x2002, 0x2002, 0x05, 0x05, .u32, .ro, 0, 0, .none, false, false⟩, -- OWNER_EPOCH
  ⟨0x2002, 0x2002, 0x06, 0x06, .blob, .ro, 0, 0, .none, false, false⟩, -- OWNER_KEY_ID
  ⟨0x2002, 0x2002, 0x07, 0x07, .blob, .ro, 0, 0, .none, false, false⟩, -- OWNER_SAVED
  ⟨0x2003, 0x2003, 0x01, 0x01, .u16, .ro, 0, 0, .none, false, false⟩, -- SESSION_SELF
  ⟨0x2003, 0x2003, 0x02, 0x02, .u8, .ro, 0, 0, .none, false, false⟩, -- SESSIONS_OPEN
  ⟨0x2005, 0x2005, 0x01, 0x01, .blob, .ro, 0, 0, .none, false, false⟩, -- AUTH_CHALLENGE
  ⟨0x2005, 0x2005, 0x02, 0x02, .blob, .command, 0, 0, .none, false, false⟩, -- AUTH_RESPONSE
  ⟨0x2005, 0x2005, 0x03, 0x03, .blob, .ro, 0, 0, .none, false, false⟩, -- AUTH_RESULT
  ⟨0x3001, 0x3001, 0x01, 0x01, .u8, .command, 0, 0, .none, false, false⟩, -- WEIR_COMMAND
  ⟨0x3001, 0x3001, 0x02, 0x02, .u8, .ro, 0, 0, .none, false, false⟩, -- WEIR_STATE
  ⟨0x3001, 0x3001, 0x03, 0x03, .blob, .ro, 0, 0, .none, false, false⟩, -- WEIR_RESULT
  ⟨0x3001, 0x3001, 0x04, 0x04, .u32, .ro, 0, 0, .none, false, false⟩, -- WEIR_USED_KIB
  ⟨0x3001, 0x3001, 0x05, 0x05, .u64, .ro, 0xffffffffffffffff, 0xffffffffffffffff, .none, false, false⟩, -- WEIR_PENDING_STEP
  ⟨0x3001, 0x3001, 0x06, 0x06, .u32, .ro, 0, 0, .none, false, false⟩, -- COMMIT_COUNT
  ⟨0x3001, 0x3001, 0x07, 0x07, .u32, .ro, 0, 0, .none, false, false⟩, -- GROUP_SEQ
  ⟨0x3002, 0x3002, 0x00, 0x00, .blob, .ro, 0, 0, .none, false, false⟩, -- STAGED_LIST
  ⟨0x4040, 0x4040, 0x16, 0x16, .blob, .command, 0, 0, .none, false, false⟩, -- GROUP_ARMED
  ⟨0x4040, 0x4040, 0x17, 0x17, .blob, .command, 0, 0, .none, false, false⟩, -- GROUP_COMMIT
  ⟨0x4040, 0x4040, 0x18, 0x18, .blob, .command, 0, 0, .none, false, false⟩, -- GROUP_REJECT
  ⟨0xB200, 0xB200, 0x01, 0x01, .u64, .ro, 0, 0, .none, false, false⟩, -- NAP_REQUESTS
  ⟨0xB200, 0xB200, 0x02, 0x02, .u64, .ro, 0, 0, .none, false, false⟩, -- NAP_FRAMES_DROPPED
  ⟨0xB200, 0xB200, 0x03, 0x03, .u64, .ro, 0, 0, .none, false, false⟩, -- NAP_BUSY
  ⟨0xB200, 0xB200, 0x04, 0x04, .u32, .ro, 0, 0, .none, false, false⟩, -- MAILBOX_OVERRUNS
  ⟨0xB200, 0xB200, 0x05, 0x05, .u32, .ro, 0, 0, .none, false, false⟩ -- AUTH_FAILURES
]

/-- The objects of spec/12_*.md. -/
def objs12 : List ObjRow := [
  ⟨0x8010, 0x8010, 0x00, 0x07, .u8, .ro, 0, 0, .die, false, false⟩, -- DIE_STATE
  ⟨0x8010, 0x8010, 0x10, 0x17, .u16, .ro, 0, 0, .die, false, false⟩, -- DIE_FENCE_CAUSE
  ⟨0x8011, 0x8011, 0x00, 0x07, .u8, .ro, 0, 0, .die, false, false⟩, -- SPARE_CORE
  ⟨0x8012, 0x8012, 0x00, 0x7D, .u8, .ro, 0, 0, .core, false, false⟩, -- CORE_HEALTH
  ⟨0x8013, 0x8013, 0x00, 0x7D, .u32, .ro, 0, 0, .core, false, false⟩, -- CORE_ERR_SCORE
  ⟨0x8014, 0x8014, 0x01, 0x01, .u32, .staged, 4096, 4096, .none, false, false⟩, -- CORE_ERR_BUDGET
  ⟨0x8015, 0x8015, 0x01, 0x01, .u8, .command, 0, 0, .none, false, false⟩, -- DIE_REJOIN
  ⟨0x8015, 0x8015, 0x02, 0x02, .u32, .ro, 0, 0, .none, false, false⟩, -- REJOIN_STATUS
  ⟨0x8016, 0x8016, 0x00, 0x07, .u64, .ro, 0, 0, .die, false, false⟩, -- KOLFIN_HUB_REPLAYS
  ⟨0x8016, 0x8016, 0x10, 0x17, .u64, .ro, 0, 0, .die, false, false⟩, -- KOLFIN_RING_REPLAYS
  ⟨0x8017, 0x8017, 0x00, 0x07, .u32, .ro, 0, 0, .die, false, false⟩, -- KOLFIN_HUB_RETRAINS
  ⟨0x8017, 0x8017, 0x10, 0x17, .u32, .ro, 0, 0, .die, false, false⟩, -- KOLFIN_RING_RETRAINS
  ⟨0x8018, 0x8018, 0x00, 0x7D, .u64, .ro, 0, 0, .core, false, false⟩, -- SRAM_CE
  ⟨0x8019, 0x8019, 0x00, 0x7D, .u64, .ro, 0, 0, .core, false, false⟩, -- SRAM_UE
  ⟨0x801A, 0x801A, 0x00, 0x10, .u32, .ro, 0, 0, .stackOrBw, false, false⟩, -- SCRUB_PASSES
  ⟨0x801B, 0x801B, 0x00, 0x0F, .u64, .ro, 0, 0, .stack, false, false⟩, -- ROW_DISTURB_REFRESH
  ⟨0x801C, 0x801C, 0x01, 0x01, .u8, .ro, 0, 0, .none, false, false⟩, -- SAVE_STORE_WEAR
  ⟨0xB002, 0xB002, 0x01, 0x01, .u64, .command, 0, 0, .none, false, false⟩, -- EVENT_SNAPSHOT
  ⟨0xB002, 0xB002, 0x02, 0x02, .blob, .ro, 0, 0, .none, false, false⟩, -- EVENT_LOG
  ⟨0xB002, 0xB002, 0x03, 0x03, .u64, .ro, 0, 0, .none, false, false⟩, -- EVENT_LOG_OLDEST
  ⟨0xB002, 0xB002, 0x04, 0x04, .u64, .ro, 0, 0, .none, false, false⟩ -- EVENTS_OVERWRITTEN
]

/-- The objects of spec/13_*.md. -/
def objs13 : List ObjRow := [
  ⟨0xA001, 0xA001, 0x01, 0x01, .u8, .staged, 1, 1, .none, true, false⟩, -- PROFILE
  ⟨0xA001, 0xA001, 0x02, 0x02, .u8, .ro, 1, 1, .none, false, false⟩, -- PROFILE_ACTIVE
  ⟨0xA001, 0xA001, 0x03, 0x03, .u8, .ro, 15, 15, .none, false, false⟩, -- BUDDY_SHARE_EFFECTIVE
  ⟨0xA002, 0xA002, 0x01, 0x01, .u16, .live, 3000, 3000, .none, false, false⟩, -- POWER_CAP_W
  ⟨0xA002, 0xA002, 0x02, 0x02, .u16, .ro, 0, 0, .none, false, false⟩, -- PACKAGE_POWER_W
  ⟨0xA002, 0xA002, 0x03, 0x03, .u8, .ro, 16, 16, .none, false, false⟩, -- ISSUE_DUTY
  ⟨0xA002, 0xA002, 0x04, 0x04, .u16, .ro, 0, 0, .none, false, false⟩, -- POWER_OFFSET_MV
  ⟨0xA002, 0xA002, 0x05, 0x05, .u64, .ro, 0, 0, .none, false, false⟩, -- CAP_HELD_US
  ⟨0xA003, 0xA003, 0x00, 0x07, .u16, .ro, 750, 750, .die, false, false⟩, -- VCORE_CMD_MV
  ⟨0xA004, 0xA004, 0x00, 0x0C, .u16, .ro, 0, 0, .rail, false, false⟩, -- RAIL_MV
  ⟨0xA005, 0xA005, 0x00, 0x0A, .u16, .ro, 0, 0, .rail, false, false⟩, -- RAIL_W
  ⟨0xA010, 0xA010, 0x00, 0x08, .i32, .ro, 0, 0, .dieOrHub, false, false⟩, -- TJ_DECI_C
  ⟨0xA011, 0xA011, 0x00, 0x0F, .i32, .ro, 0, 0, .stack, false, false⟩, -- STACK_DECI_C
  ⟨0xA012, 0xA012, 0x00, 0x07, .u16, .ro, 0, 0, .die, false, false⟩, -- THERMAL_OFFSET_MV
  ⟨0xA013, 0xA013, 0x01, 0x01, .u32, .ro, 0, 0, .none, false, false⟩, -- THERMAL_THROTTLES
  ⟨0xC000, 0xC000, 0x00, 0x00, .blob, .ro, 0, 0, .none, false, false⟩, -- OPTION_BYTES
  ⟨0xC001, 0xC001, 0x01, 0x01, .blob, .command, 0, 0, .none, false, false⟩, -- OB_WRITE
  ⟨0xC001, 0xC001, 0x02, 0x02, .blob, .ro, 0, 0, .none, false, false⟩, -- OB_PENDING
  ⟨0xC001, 0xC001, 0x03, 0x03, .u8, .ro, 0, 0, .none, false, false⟩, -- OB_SOURCE
  ⟨0xC002, 0xC002, 0x01, 0x01, .u8, .command, 0, 0, .none, false, false⟩, -- RESET_REQUEST
  ⟨0xC002, 0xC002, 0x02, 0x02, .u8, .ro, 0, 0, .none, false, false⟩, -- RESET_CAUSE
  ⟨0xC002, 0xC002, 0x03, 0x03, .u32, .ro, 0, 0, .none, false, false⟩, -- RESET_COUNT
  ⟨0xC003, 0xC003, 0x01, 0x01, .blob, .ro, 0, 0, .none, false, false⟩, -- SAVED_RECORD
  ⟨0xC003, 0xC003, 0x02, 0x02, .u8, .ro, 0, 0, .none, false, false⟩, -- SAVED_STATE
  ⟨0xC004, 0xC004, 0x01, 0x01, .u8, .ro, 0, 0, .none, false, false⟩ -- HOLDUP_STATE
]

/-- The objects of spec/14_*.md. -/
def objs14 : List ObjRow := [
  ⟨0x1010, 0x1010, 0x01, 0x01, .str, .ro, 0, 0, .none, false, false⟩, -- SERIAL
  ⟨0x1010, 0x1010, 0x02, 0x02, .blob, .ro, 0, 0, .none, false, false⟩, -- IDENTITY_PUBKEY
  ⟨0x1010, 0x1010, 0x03, 0x03, .blob, .ro, 0, 0, .none, false, false⟩, -- IDENTITY_KEY_ID
  ⟨0x1010, 0x1010, 0x04, 0x04, .blob, .ro, 0, 0, .none, false, false⟩, -- IDENTITY_CERT
  ⟨0x1011, 0x1011, 0x00, 0x00, .blob, .ro, 0, 0, .none, false, false⟩, -- MEASUREMENT_LOG
  ⟨0x1012, 0x1012, 0x01, 0x06, .u32, .ro, 0, 0, .none, false, false⟩, -- MIN_SECURITY_VERSION
  ⟨0x1012, 0x1012, 0x10, 0x10, .u8, .ro, 0, 0, .none, false, false⟩, -- BOOT_BANK
  ⟨0x9001, 0x9001, 0x00, 0x2F, .keyref, .ro, 0, 0, .none, false, false⟩, -- KEY_SLOT
  ⟨0x9002, 0x9002, 0x01, 0x01, .blob, .ro, 0, 0, .none, false, false⟩, -- MANIFEST_KEY_ID
  ⟨0x9002, 0x9002, 0x02, 0x02, .blob, .ro, 0, 0, .none, false, false⟩, -- MANIFEST_PUBKEY
  ⟨0x9002, 0x9002, 0x03, 0x03, .blob, .ro, 0, 0, .none, false, false⟩, -- MANIFEST_KEY_CERT
  ⟨0x9003, 0x9003, 0x01, 0x01, .u8, .command, 0, 0, .none, false, false⟩, -- MANIFEST_KEY_ROTATE
  ⟨0x9003, 0x9003, 0x02, 0x02, .u32, .command, 0, 0, .none, false, false⟩, -- IMAGE_UPDATE
  ⟨0x9010, 0x9010, 0x00, 0x0F, .blob, .staged, 0, 0, .none, true, false⟩, -- TRUSTED_MASTER
  ⟨0x9040, 0x904F, 0x00, 0xFF, .blob, .staged, 0, 0, .none, true, false⟩, -- TRUSTED_SIGNER
  ⟨0x9020, 0x9020, 0x01, 0x01, .u8, .ro, 0, 0, .none, false, false⟩, -- ALARM_LEVEL
  ⟨0x9020, 0x9020, 0x02, 0x02, .bitset, .ro, 0, 0, .none, false, false⟩, -- ALARM_SENSORS
  ⟨0x9020, 0x9020, 0x03, 0x03, .blob, .ro, 0, 0, .none, false, false⟩, -- ALARM_LOG
  ⟨0x9020, 0x9020, 0x04, 0x04, .u16, .ro, 0, 0, .none, false, false⟩, -- AUTH_FAIL_RUN
  ⟨0x9021, 0x9021, 0x01, 0x01, .blob, .command, 0, 0, .none, false, false⟩, -- ATTEST_NONCE
  ⟨0x9021, 0x9021, 0x02, 0x02, .blob, .ro, 0, 0, .none, false, false⟩, -- ATTEST_QUOTE
  ⟨0x9030, 0x9030, 0x00, 0x05, .blob, .ro, 0, 0, .port, false, false⟩ -- PORT_PEER_KEY_ID
]

/-- The objects of spec/15_*.md. -/
def objs15 : List ObjRow := [
  ⟨0x7001, 0x7001, 0x01, 0x01, .u8, .ro, 0, 0, .none, false, false⟩, -- PCIE_LINK_SPEED
  ⟨0x7001, 0x7001, 0x02, 0x02, .u8, .ro, 0, 0, .none, false, false⟩, -- PCIE_LINK_WIDTH
  ⟨0x7001, 0x7001, 0x03, 0x03, .u8, .ro, 0, 0, .none, false, false⟩, -- PCIE_FLIT
  ⟨0x7001, 0x7001, 0x04, 0x04, .u64, .ro, 0, 0, .none, false, false⟩, -- PCIE_IDS
  ⟨0x7001, 0x7001, 0x05, 0x05, .u64, .ro, 0, 0, .none, false, false⟩, -- PCIE_AER_CORRECTED
  ⟨0x7001, 0x7001, 0x06, 0x06, .u64, .ro, 0, 0, .none, false, false⟩, -- PCIE_AER_UNCORRECTED
  ⟨0x7002, 0x7002, 0x00, 0x05, .u8, .ro, 0, 0, .port, false, false⟩, -- PORT_STATE
  ⟨0x7003, 0x7003, 0x00, 0x05, .u8, .ro, 0, 0, .port, false, false⟩, -- PORT_WIDTH
  ⟨0x7004, 0x7004, 0x00, 0x05, .u64, .ro, 0, 0, .port, false, false⟩, -- PORT_REPLAYS
  ⟨0x7005, 0x7005, 0x00, 0x05, .u64, .ro, 0, 0, .port, false, false⟩, -- PORT_FEC_CORRECTED
  ⟨0x7006, 0x7006, 0x00, 0x05, .u64, .ro, 0, 0, .port, false, false⟩, -- PORT_FEC_UNCORRECTED
  ⟨0x7007, 0x7007, 0x00, 0x05, .u32, .ro, 0, 0, .port, false, false⟩, -- PORT_RETRAINS
  ⟨0x7008, 0x7008, 0x00, 0x05, .u64, .ro, 0, 0, .port, false, false⟩, -- PORT_CREDIT_WAIT_US
  ⟨0x7009, 0x7009, 0x00, 0x05, .u32, .staged, 0x62a04, 0x62a04, .port, true, false⟩, -- PORT_TX_EQ
  ⟨0x700A, 0x700A, 0x01, 0x01, .u8, .ro, 0, 0, .none, false, false⟩, -- MGMT_LINK
  ⟨0x700A, 0x700A, 0x02, 0x02, .u64, .ro, 0, 0, .none, false, false⟩, -- MGMT_RX_FRAMES
  ⟨0x700A, 0x700A, 0x03, 0x03, .u64, .ro, 0, 0, .none, false, false⟩ -- MGMT_RX_DISCARDS
]

/-- The object map (R301), in the order of the spec's files. -/
def objMap : List ObjRow :=
  objs00 ++ objs01 ++ objs02 ++ objs03 ++ objs04 ++ objs05 ++ objs06 ++ objs07 ++ objs08 ++ objs09 ++ objs10 ++ objs11
    ++ objs12 ++ objs13 ++ objs14 ++ objs15

/-- Whether a core row's sub-index 16 × d + c names an enabled core number: 14 and 15 name no object (assumption 184). -/
def ObjRow.hasSub (r : ObjRow) (i s : Nat) : Bool :=
  r.iLo ≤ i && i ≤ r.iHi && r.sLo ≤ s && s ≤ r.sHi && (r.unit ≠ .core || s % 16 < 14)

/-- The object at Index:Sub, if the map has one (R301). -/
def objRow (i s : Nat) : Option ObjRow := objMap.find? (fun r => r.hasSub i s)

/-- Whether the unit that an object's sub-index names is on the part (R4). -/
def ObjRow.present (r : ObjRow) (p : Part) (i s : Nat) : Bool :=
  match r.unit with
  | .none => true
  | .core => s / 16 < p.dies
  | .die => s % 16 < p.dies
  | .dieOrHub => s < p.dies || s = 8
  | .stack => s < p.stacks
  | .stackOrBw => s < p.stacks || s = 16
  | .engine => i - 0x8030 < p.dies
  | .port => s < p.ports
  | .rail => 8 ≤ s || s < p.dies

/-- The default of an object on a part. -/
def ObjRow.dflt (r : ObjRow) : Part → Nat
  | .hn9_8x => r.d8
  | .hn9_6l => r.d6

/-- The key under which the dictionary stores Index:Sub. -/
def objKey (i s : Nat) : Nat := i * 256 + s

/-- The default of the object at a key. -/
def keyDflt (p : Part) (k : Nat) : Nat :=
  match objRow (k / 256) (k % 256) with
  | some r => r.dflt p
  | none => 0

/-- The smallest key above `k` in one row of the map, with the row. -/
def ObjRow.next (r : ObjRow) (k : Nat) : Option Nat :=
  ((List.range (r.iHi - r.iLo + 1)).flatMap (fun di =>
    ((List.range (r.sHi - r.sLo + 1)).filter (fun ds => r.hasSub (r.iLo + di) (r.sLo + ds))).map
      (fun ds => objKey (r.iLo + di) (r.sLo + ds)))).find? (fun x => k < x)

/-- The first implemented Index:Sub after a key, for ENUM (R269). -/
def nextKey (k : Nat) : Option Nat :=
  objMap.foldl (fun acc r =>
    match r.next k, acc with
    | none, a => a
    | some x, none => some x
    | some x, some y => some (if x < y then x else y)) none

end Sys2Proof.Machine
end

