-- ==== Sys2Proof/Machine/Num.lean ====
section
/-! DEFINITION. Exact numbers and the one rounding procedure (R68 to R86): the eleven element formats, exact binary
values, round-to-nearest-even and stochastic rounding, saturation, FP32 lane arithmetic (R118) and the A40
accumulator format (R98). Bit patterns of elements are natural numbers here; registers hold them as bit vectors. -/

namespace Sys2Proof.Machine

/-- A number as an engine sees it: a NaN, an infinity, or the exact value (−1)^neg × m × 2^e. -/
inductive Num where
  | nan
  | inf (neg : Bool)
  | fin (neg : Bool) (m : Nat) (e : Int)
deriving DecidableEq, Repr

/-- An exact binary value m × 2^e. -/
structure Dy where
  m : Int
  e : Int
deriving DecidableEq, Repr

/-- floor(log2) of m × 2^e, for m > 0. -/
def flog2 (m : Nat) (e : Int) : Int := (Nat.log2 m : Int) + e

/-- m × 2^e brought to exponent `lo`, which is at most e. -/
def alignTo (m : Nat) (e lo : Int) : Nat := m * 2 ^ (e - lo).toNat

/-- Sign of an exact comparison of two magnitudes m × 2^e. -/
def magLe (m₁ : Nat) (e₁ : Int) (m₂ : Nat) (e₂ : Int) : Bool :=
  let lo := if e₁ ≤ e₂ then e₁ else e₂
  decide (alignTo m₁ e₁ lo ≤ alignTo m₂ e₂ lo)

/-- Whether the first magnitude is the smaller. -/
def magLt (m₁ : Nat) (e₁ : Int) (m₂ : Nat) (e₂ : Int) : Bool := !magLe m₂ e₂ m₁ e₁

/-- The sum of two exact values. -/
def Dy.add (a b : Dy) : Dy :=
  let lo := if a.e ≤ b.e then a.e else b.e
  ⟨a.m * 2 ^ (a.e - lo).toNat + b.m * 2 ^ (b.e - lo).toNat, lo⟩

/-- The product of two exact values. -/
def Dy.mul (a b : Dy) : Dy := ⟨a.m * b.m, a.e + b.e⟩

/-- floor(a / 2^k) of an exact value. -/
def Dy.floorAt (a : Dy) (k : Int) : Int :=
  if k ≤ a.e then a.m * 2 ^ (a.e - k).toNat else a.m / 2 ^ (k - a.e).toNat

/-- A signed magnitude as an exact value. -/
def dyOf (neg : Bool) (m : Nat) (e : Int) : Dy := ⟨if neg then -(m : Int) else m, e⟩

/-- An exact value as a number; zero is +0. -/
def Dy.num (a : Dy) : Num := .fin (decide (a.m < 0)) a.m.natAbs a.e

/-- Whether a number is a NaN. -/
def Num.isNan : Num → Bool
  | .nan => true
  | _ => false

/-- Whether a number is an infinity. -/
def Num.isInf : Num → Bool
  | .inf _ => true
  | _ => false

/-- Whether a number is finite. -/
def Num.isFin : Num → Bool
  | .fin _ _ _ => true
  | _ => false

/-- Whether a number is zero of either sign. -/
def Num.isZero : Num → Bool
  | .fin _ m _ => m = 0
  | _ => false

/-- The sign of a number. -/
def Num.sign : Num → Bool
  | .nan => false
  | .inf n => n
  | .fin n _ _ => n

/-- A number times 2^k, exact. -/
def Num.scale (x : Num) (k : Int) : Num :=
  match x with
  | .fin n m e => .fin n m (e + k)
  | y => y

/-! The formats (R68). -/

/-- An element format of *Element format encodings*: width, fraction width and bias of a float, what it can hold beside
finite values, its canonical NaN and its largest finite value maxM × 2^maxE. -/
structure Fmt where
  bits   : Nat
  frac   : Nat
  bias   : Nat
  isInt  : Bool
  hasInf : Bool
  hasNan : Bool
  cNan   : Nat
  maxM   : Nat
  maxE   : Int
deriving DecidableEq, Repr

/-- The element formats by code (R68); UE8M0, code 0xA, and the reserved codes are no element format. -/
def fmtOf : Nat → Option Fmt
  | 0 => some ⟨32, 23, 127, false, true, true, 0x7FC00000, 2 ^ 24 - 1, 104⟩
  | 1 => some ⟨16, 7, 127, false, true, true, 0x7FC0, 255, 120⟩
  | 2 => some ⟨16, 10, 15, false, true, true, 0x7E00, 2047, 5⟩
  | 3 => some ⟨8, 2, 15, false, true, true, 0x7E, 7, 13⟩
  | 4 => some ⟨8, 3, 7, false, false, true, 0x7F, 7, 6⟩
  | 5 => some ⟨6, 2, 3, false, false, false, 0, 7, 2⟩
  | 6 => some ⟨6, 3, 1, false, false, false, 0, 15, -1⟩
  | 7 => some ⟨4, 1, 1, false, false, false, 0, 3, 1⟩
  | 8 => some ⟨8, 0, 0, true, false, false, 0, 127, 0⟩
  | 9 => some ⟨4, 0, 0, true, false, false, 0, 7, 0⟩
  | _ => none

/-- FP32, the format code 0x0. -/
def fp32 : Fmt := ⟨32, 23, 127, false, true, true, 0x7FC00000, 2 ^ 24 - 1, 104⟩

/-- BF16, the format code 0x1. -/
def bf16 : Fmt := ⟨16, 7, 127, false, true, true, 0x7FC0, 255, 120⟩

/-- Whether a code names an element format (R68). -/
def elemFormat (code : Nat) : Bool := (fmtOf code).isSome

/-- The format of a code; FP32 for a code that names none, which every caller refuses first. -/
def fmtD (code : Nat) : Fmt := (fmtOf code).getD fp32

/-- The value that an element's bits stand for (R69, R71). -/
def decodeElem (f : Fmt) (b : Nat) : Num :=
  if f.isInt then
    let v := sx f.bits b
    .fin (decide (v < 0)) v.natAbs 0
  else
    let m := bits b 0 f.frac
    let ew := f.bits - 1 - f.frac
    let e := bits b f.frac ew
    let s := bitOf b (f.bits - 1)
    if f.hasInf ∧ e = 2 ^ ew - 1 then (if m = 0 then .inf s else .nan)
    else if f.hasNan ∧ ¬ f.hasInf ∧ e = 2 ^ ew - 1 ∧ m = 2 ^ f.frac - 1 then .nan
    else if e = 0 then .fin s m (1 - (f.bias : Int) - f.frac)
    else .fin s (2 ^ f.frac + m) ((e : Int) - f.bias - f.frac)

/-- A block scale byte as a power of two; none for 0xFF, the NaN scale (R69, R73). -/
def blockExp (b : Nat) : Option Int := if b = 0xFF then none else some ((b : Int) - 127)

/-- The exponent of an FP32 stream scale that meets R75: fraction 0, exponent field 1 to 254, sign 0. -/
def streamExp (w : Nat) : Option Int :=
  if bits w 0 23 = 0 ∧ bitOf w 31 = false ∧ 1 ≤ bits w 23 8 ∧ bits w 23 8 ≤ 254 then
    some ((bits w 23 8 : Int) - 127)
  else none

/-- The FP32 bits of 2^k, k of −126 to 127. -/
def pow2Bits (k : Int) : Nat := (k + 127).toNat * 2 ^ 23

/-! Rounding. -/

/-- A magnitude m × 2^e rounded to a quantum 2^q: the number of quanta (R79's procedure). `draw` is the Riffle draw under
stochastic rounding and none under round-to-nearest-even (R80, R82). -/
def roundQ (m : Nat) (e q : Int) (draw : Option Nat) : Nat :=
  if q ≤ e then alignTo m e q
  else
    let d := 2 ^ (q - e).toNat
    let lo := m / d
    let r := m % d
    let up := match draw with
      | none => decide (2 * r > d) || (decide (2 * r = d) && lo % 2 = 1)
      | some t => decide (t < r * 65536 / d)
    if up then lo + 1 else lo

/-- The quantum exponent of a non-zero magnitude in a float format, subnormals sharing emin's (the procedure's q). -/
def quantum (f : Fmt) (m : Nat) (e : Int) : Int :=
  if f.isInt then 0
  else
    let emin : Int := 1 - (f.bias : Int)
    let k := flog2 m e
    (if k < emin then emin else k) - f.frac

/-- The bits of a magnitude n × 2^q that the format holds exactly; zero is +0. -/
def encodeMag (f : Fmt) (neg : Bool) (n : Nat) (q : Int) : Nat :=
  if n = 0 then 0
  else if f.isInt then ux f.bits (if neg then -(alignTo n q 0 : Int) else alignTo n q 0)
  else
    let s := if neg then 2 ^ (f.bits - 1) else 0
    let emin : Int := 1 - (f.bias : Int)
    let k := flog2 n q
    if k < emin then s + n * 2 ^ (q - (emin - f.frac)).toNat
    else
      let sh := k - f.frac
      let mant := if q ≥ sh then n * 2 ^ (q - sh).toNat else n / 2 ^ (sh - q).toNat
      s + (k + f.bias).toNat * 2 ^ f.frac + (mant - 2 ^ f.frac)

/-- The bits of the largest finite magnitude with a sign (R81); for an integer format −128 or −8 when `neg` and `full`. -/
def maxBits (f : Fmt) (neg full : Bool) : Nat :=
  if f.isInt ∧ neg ∧ full then 2 ^ (f.bits - 1) else encodeMag f neg f.maxM f.maxE

/-- A finite value rounded into a format: its bits and whether it saturated (R79 to R83). -/
def roundTo (f : Fmt) (neg : Bool) (m : Nat) (e : Int) (draw : Option Nat) : Nat × Bool :=
  if m = 0 then (0, false)
  else
    let q := quantum f m e
    let n := roundQ m e q draw
    let past := if f.isInt ∧ neg then decide (n > f.maxM + 1) else !magLe n q f.maxM f.maxE
    if past then (maxBits f neg true, true) else (encodeMag f neg n q, false)

/-- A tensor output element that carries no block scale (R83 to R85): bits, saturated, NaN written as zero. -/
structure OutElem where
  bits   : Nat
  sat    : Bool
  zeroed : Bool
deriving DecidableEq, Repr

/-- A number written as one element, already divided by its scales (R81, R84, R85). -/
def storeElem (f : Fmt) (x : Num) (draw : Option Nat) : OutElem :=
  match x with
  | .nan => if f.hasNan then ⟨f.cNan, false, false⟩ else ⟨0, false, true⟩
  | .inf n => ⟨maxBits f n true, true, false⟩
  | .fin n m e =>
    let r := roundTo f n m e draw
    ⟨r.1, r.2, false⟩

/-! FP32 lane arithmetic (R118): correctly rounded to nearest-even, subnormals kept, canonical NaN, overflow to infinity. -/

/-- The value of FP32 bits. -/
def f32 (w : Nat) : Num := decodeElem fp32 w

/-- The canonical NaN of FP32. -/
def qnan : Nat := 0x7FC00000

/-- The FP32 infinity of a sign. -/
def infBits (neg : Bool) : Nat := if neg then 0xFF800000 else 0x7F800000

/-- The FP32 zero of a sign. -/
def zeroBits (neg : Bool) : Nat := if neg then 0x80000000 else 0

/-- A finite magnitude rounded once to FP32, overflow giving an infinity and a zero keeping its sign. -/
def rne32Mag (neg : Bool) (m : Nat) (e : Int) : Nat :=
  if m = 0 then zeroBits neg
  else
    let q := quantum fp32 m e
    let n := roundQ m e q none
    if n = 0 then zeroBits neg
    else if magLe n q fp32.maxM fp32.maxE then encodeMag fp32 neg n q else infBits neg

/-- A number rounded once to FP32 (rne32). -/
def rne32 : Num → Nat
  | .nan => qnan
  | .inf n => infBits n
  | .fin n m e => rne32Mag n m e

/-- The exact sum of two numbers; a zero sum is −0 only when both terms are negative zeros (IEEE 754). -/
def numAdd (a b : Num) : Num :=
  match a, b with
  | .nan, _ => .nan
  | _, .nan => .nan
  | .inf x, .inf y => if x = y then .inf x else .nan
  | .inf x, _ => .inf x
  | _, .inf y => .inf y
  | .fin s m e, .fin t n k =>
    let d := (dyOf s m e).add (dyOf t n k)
    if d.m = 0 then .fin (s && t && m = 0 && n = 0) 0 0 else d.num

/-- The exact product of two numbers. -/
def numMul (a b : Num) : Num :=
  match a, b with
  | .nan, _ => .nan
  | _, .nan => .nan
  | .inf x, .inf y => .inf (x != y)
  | .inf x, .fin t n _ => if n = 0 then .nan else .inf (x != t)
  | .fin s m _, .inf y => if m = 0 then .nan else .inf (s != y)
  | .fin s m e, .fin t n k => .fin (s != t) (m * n) (e + k)

/-- A number negated. -/
def numNeg : Num → Num
  | .nan => .nan
  | .inf n => .inf (!n)
  | .fin n m e => .fin (!n) m e

/-- FP32 addition. -/
def fadd (a b : Nat) : Nat := rne32 (numAdd (f32 a) (f32 b))

/-- FP32 subtraction. -/
def fsub (a b : Nat) : Nat := rne32 (numAdd (f32 a) (numNeg (f32 b)))

/-- FP32 multiplication. -/
def fmul (a b : Nat) : Nat := rne32 (numMul (f32 a) (f32 b))

/-- A fused multiply-add whose first factor is an exact value, one rounding to FP32. -/
def ffmaN (u : Num) (b c : Nat) : Nat := rne32 (numAdd (numMul u (f32 b)) (f32 c))

/-- FP32 fused multiply-add, one rounding. -/
def ffma (a b c : Nat) : Nat := ffmaN (f32 a) b c

/-- The exact order of two numbers that are no NaN: whether a < b. -/
def numLt (a b : Num) : Bool :=
  match a, b with
  | .nan, _ => false
  | _, .nan => false
  | .inf x, .inf y => x && !y
  | .inf x, .fin _ _ _ => x
  | .fin _ _ _, .inf y => !y
  | .fin s m e, .fin t n k =>
    let lo := if e ≤ k then e else k
    let x : Int := alignTo m e lo
    let y : Int := alignTo n k lo
    decide ((if s then -x else x) < (if t then -y else y))

/-- Whether two numbers that are no NaN have the same real value. -/
def numEq (a b : Num) : Bool := !a.isNan && !b.isNan && !numLt a b && !numLt b a

/-- Zero of either sign written as +0. -/
def posZero (w : Nat) : Nat := if w = 0x80000000 then 0 else w

/-- FP32 maximum (R88): a NaN gives the canonical NaN, and zeros give +0. -/
def fmaxB (a b : Nat) : Nat :=
  if (f32 a).isNan || (f32 b).isNan then qnan else posZero (if numLt (f32 a) (f32 b) then b else a)

/-- FP32 minimum (R88). -/
def fminB (a b : Nat) : Nat :=
  if (f32 a).isNan || (f32 b).isNan then qnan else posZero (if numLt (f32 b) (f32 a) then b else a)

/-- FP32 less-than (R88). -/
def fltB (a b : Nat) : Bool := numLt (f32 a) (f32 b)

/-- A quotient n / d of magnitudes as m × 2^e with a sticky last bit, enough bits for one correct FP32 rounding. -/
def divSticky (n : Nat) (e : Int) (d : Nat) (k : Int) : Nat × Int :=
  let s := 64 + Nat.log2 d
  let q := n * 2 ^ s / d
  let r := n * 2 ^ s % d
  (2 * q + b01 (r ≠ 0), e - k - s - 1)

/-- FP32 division, correctly rounded (R132). -/
def fdiv (a b : Nat) : Nat :=
  match f32 a, f32 b with
  | .nan, _ => qnan
  | _, .nan => qnan
  | .inf x, .inf _ => let _ := x; qnan
  | .inf x, .fin t _ _ => infBits (x != t)
  | .fin s _ _, .inf y => zeroBits (s != y)
  | .fin s m e, .fin t n k =>
    if n = 0 then (if m = 0 then qnan else infBits (s != t))
    else if m = 0 then zeroBits (s != t)
    else
      let r := divSticky m e n k
      rne32Mag (s != t) r.1 r.2

/-- 1.0 in FP32. -/
def one32 : Nat := 0x3F800000

/-- FP32 reciprocal (RCP, R118). -/
def frcp (a : Nat) : Nat := fdiv one32 a

/-- FP32 reciprocal square root (RSQ, R118): NaN for a negative value, +∞ for ±0. -/
def frsq (a : Nat) : Nat :=
  match f32 a with
  | .nan => qnan
  | .inf n => if n then qnan else 0
  | .fin n m e =>
    if m = 0 then infBits false
    else if n then qnan
    else
      -- m × 2^e with e even; 1/√v = 2^(−e/2) / √m, taken from the root of 2^(2s) / m
      let m' := if e % 2 = 0 then m else 2 * m
      let e' := if e % 2 = 0 then e else e - 1
      let s := 64 + Nat.log2 m'
      let r := Nat.sqrt (2 ^ (2 * s) / m')
      let exact := decide (r * r * m' = 2 ^ (2 * s))
      rne32Mag false (2 * r + b01 (!exact)) (-(e' / 2) - s - 1)

/-- FP32 square root, correctly rounded. -/
def fsqrt (a : Nat) : Nat :=
  match f32 a with
  | .nan => qnan
  | .inf n => if n then qnan else infBits false
  | .fin n m e =>
    if m = 0 then zeroBits n
    else if n then qnan
    else
      let m' := (if e % 2 = 0 then m else 2 * m) * 2 ^ 128
      let e' := (if e % 2 = 0 then e else e - 1) - 128
      let r := Nat.sqrt m'
      rne32Mag false (2 * r + b01 (r * r ≠ m')) (e' / 2 - 1)

/-- ABS: the sign bit cleared; a NaN becomes canonical. -/
def fabsB (a : Nat) : Nat := if (f32 a).isNan then qnan else bits a 0 31

/-- NEG: the sign bit inverted; a NaN becomes canonical. -/
def fnegB (a : Nat) : Nat := if (f32 a).isNan then qnan else setBitOf a 31 (!bitOf a 31)

/-- SCL: a × 2^n. -/
def fscl (a : Nat) (n : Int) : Nat := rne32 ((f32 a).scale n)

/-- Whether FP32 bits are finite. -/
def finB (a : Nat) : Bool := (f32 a).isFin

/-- An exact integer as FP32. -/
def ofNat32 (n : Nat) : Nat := rne32 (.fin false n 0)

/-- An element widened to FP32 on a load path (R86): exact within range, one rounding below the smallest subnormal,
saturated beyond the largest finite value, infinities kept. -/
def widen (x : Num) : Nat × Bool :=
  match x with
  | .nan => (qnan, false)
  | .inf n => (infBits n, false)
  | .fin n m e =>
    let w := rne32Mag n m e
    if w = infBits n then (maxBits fp32 n false, true) else (w, false)

/-- A value rounded upwards in magnitude to FP32, saturating at 0x7F7F_FFFF (RUN_MAX, R77). -/
def magUp32 (m : Nat) (e : Int) : Nat :=
  if m = 0 then 0
  else
    let q := quantum fp32 m e
    let n := if q ≤ e then alignTo m e q else (m + 2 ^ (q - e).toNat - 1) / 2 ^ (q - e).toNat
    if magLe n q fp32.maxM fp32.maxE then encodeMag fp32 false n q else 0x7F7FFFFF

/-! The A40 accumulator (R98). -/

/-- The state and value of one bank element (R98, R101): the A40 value as a signed magnitude. -/
inductive Acc where
  | fin (v : Dy)
  | posinf
  | neginf
  | nan
deriving DecidableEq, Repr

/-- The A40 zero, the value START gives (R102). -/
def Acc.zero : Acc := .fin ⟨0, 0⟩

/-- A value rounded by round-to-nearest-even to A40's 29 fraction bits, subnormals below 2^−510 (R98). -/
def roundA40 (v : Dy) : Dy :=
  if v.m = 0 then ⟨0, 0⟩
  else
    let a := v.m.natAbs
    let k := flog2 a v.e
    let q := (if k < -510 then -510 else k) - 29
    let n := roundQ a v.e q none
    if n = 0 then ⟨0, 0⟩ else ⟨if v.m < 0 then -(n : Int) else n, q⟩

/-- The A40 bits of a finite accumulator value (R98). -/
def a40Bits (v : Dy) : Nat :=
  let a := v.m.natAbs
  if a = 0 then 0
  else
    let s := if v.m < 0 then 2 ^ 39 else 0
    let k := flog2 a v.e
    if k < -510 then s + alignTo a v.e (-539)
    else
      let sh := k - 29
      let mant := if v.e ≥ sh then a * 2 ^ (v.e - sh).toNat else a / 2 ^ (sh - v.e).toNat
      s + (k + 511).toNat * 2 ^ 29 + (mant - 2 ^ 29)

end Sys2Proof.Machine
end

