-- ==== Sys2Proof/Machine/CoreState.lean ====
section
/-! DEFINITION. The state of one core: its control core, its memories, its eight matrix engines, its vector and row
engines, its work queues, its Oxbow and its picks; and the state of a stream and of a version table. -/

namespace Sys2Proof.Machine

/-- CORE_STATE (0x4012): 0 idle, 1 running, 2 halted, 3 faulted. -/
inductive Run where
  | idle
  | running
  | halted
  | faulted
deriving DecidableEq, Repr

/-- The code of a run state in CORE_STATE. -/
def Run.code : Run → Nat
  | .idle => 0
  | .running => 1
  | .halted => 2
  | .faulted => 3

/-- What a running control core waits for between two commands (R144, R146, R151). -/
inductive Waiting where
  | none
  /-- WAIT.q for every descriptor numbered n or lower; the code goes to rd. -/
  | wait (queue n : Nat) (rd : Reg)
  /-- PICK waits to be answered; KIND goes to rd. -/
  | pick (rd : Reg)
  /-- STEPEND waits for the step boundary; the new step goes to rd. -/
  | stepend (rd : Reg)
deriving DecidableEq, Repr

/-- A descriptor in a work queue (R147): its issue number, its 64 bytes, and what the issuing item was. -/
structure Desc where
  num    : Nat
  bytes  : List Byte
  /-- For a RECV, REL or SEND: it breaks R153 and completes with OUT_OF_RANGE. -/
  badItem : Bool
  /-- For an RSEND: its number on the reduction count (R151); 0 otherwise. -/
  rnum   : Nat
deriving DecidableEq, Repr

/-- A descriptor that retired with an error and its code (R151). -/
structure Retired where
  num      : Nat
  code     : Nat
  reported : Bool
deriving DecidableEq, Repr

/-- A work queue and its issue numbers (R147, R151). -/
structure Queue where
  /-- Descriptors issued since the program's start or restart. -/
  issued  : Nat
  /-- Descriptors in the queue, oldest first. -/
  waiting : List Desc
  /-- Numbers of descriptors that have begun and left the queue but have not retired. -/
  begun   : List Nat
  errs    : List Retired
deriving DecidableEq, Repr

/-- An empty queue that has issued nothing. -/
def Queue.empty : Queue := ⟨0, [], [], []⟩

/-- A summary register (R121). -/
structure Summary where
  max   : Word32
  sum   : Word32
  nf    : Nat
  flags : Nat
deriving DecidableEq, Repr

/-- A summary register after reset or CLEAR (R123). -/
def Summary.clear : Summary := ⟨0xFF800000, 0, 0, 0⟩

/-- A finished-tile queue entry (R125). -/
structure Ftq where
  addr    : Nat
  engine  : Nat
  bank    : Nat
  nan     : Bool
  inf     : Bool
  sat     : Bool
  tileRow : Nat
  tileCol : Nat
  tensor  : Nat
  format  : Nat
  rows    : Nat
  cols    : Nat
  mbId    : Nat
  tag     : Nat
deriving DecidableEq, Repr

/-- The state of an accumulator bank (R102). -/
inductive BankSt where
  | empty
  | accumulating
  | draining
  | void
deriving DecidableEq, Repr

/-- The scale-table settings that a store descriptor latches (R78). -/
structure Latch where
  entry    : Nat
  scale    : Nat
  format   : Nat
  sr       : Bool
  headroom : Nat
  blockSize : Nat
  blockDir : Nat
  scaled   : Bool
deriving DecidableEq, Repr

/-- An accumulator bank (R102): its state, its group count, its elements by 64 × m + n, and, while it drains, the FINISH
descriptor with the settings that it latched. -/
structure Bank where
  st     : BankSt
  groups : Nat
  acc    : SMap Acc
  finish : Option (Desc × Latch)
deriving DecidableEq, Repr

/-- An empty bank. -/
def Bank.empty : Bank := ⟨.empty, 0, [], none⟩

/-- What an engine's adapter buffer holds (R109): u, by 256 × row + column, and what it was computed for. -/
structure Adapter where
  /-- The x tensor: the descriptor fields that name it, and its micro-batch. -/
  x       : List Nat
  row     : Nat
  variant : Nat
  version : Nat
  ufmt    : Nat
  rank    : Nat
  u       : SMap Nat
deriving DecidableEq, Repr

/-- A matrix engine: its banks, the replay copy (R111), the fault count of each cell by 64 × row + column (R110) and
its adapter buffer. Its retirement map stands in the save store (R112). -/
structure Engine where
  bankA   : Bank
  bankB   : Bank
  replay  : Bank
  faults  : SMap Nat
  adapter : Option Adapter
deriving DecidableEq, Repr

/-- An engine after reset. -/
def Engine.reset : Engine := ⟨.empty, .empty, .empty, [], none⟩

/-- The kinds of work item (R144). -/
inductive Kind where
  | forward
  | backward
  | oxbow
  | done
deriving DecidableEq, Repr

/-- The code of a kind in the pick record. -/
def Kind.code : Kind → Nat
  | .forward => 0
  | .backward => 1
  | .oxbow => 2
  | .done => 3

/-- The work item that the core runs, from its PICK to the next PICK or STEPEND (R153). -/
structure Item where
  kind    : Kind
  block   : Nat
  mbId    : Nat
  /-- The job micro-batch number n (R42). -/
  n       : Nat
  variant : Nat
  version : Nat
  layer   : Nat
  /-- An OXB has been executed in this item's block (R156). -/
  oxbDone : Bool
  /-- Sluice tiles that the item's retired RECVs delivered, by 2 × stream + side (R154). -/
  got     : SMap Nat
  /-- Tiles that its issued RELs cover, by 2 × stream + side (R154). -/
  rels    : SMap Nat
  /-- Issue numbers in the receive queue of this item's RECVs that have not retired (R154). -/
  recvs   : List Nat
  /-- A cause of R124 has occurred during the item (R181). -/
  nf      : Bool := false
deriving DecidableEq, Repr

/-- An Oxbow entry (R145). -/
structure OxEntry where
  layer   : Nat
  payload : List Byte
  mbId    : Nat
  n       : Nat
  variant : Nat
  version : Nat
deriving DecidableEq, Repr

/-- A layer's Oxbow counts in the step (R57, R145). -/
structure LayerCount where
  declared : Nat
  queued   : Nat
  ran      : Nat
deriving DecidableEq, Repr

/-- A core's in-flight record of one micro-batch (R60) and how far its items have come. -/
structure InFlight where
  n       : Nat
  mbId    : Nat
  variant : Nat
  version : Nat
  /-- Forward items that have ended. -/
  fwdDone : Nat
  /-- Backward items that have ended. -/
  bwdDone : Nat
  /-- The input-gradient half has completed at this core (R54). -/
  igDone  : Bool
  /-- Upstream streams on which the LAST backward send has completed. -/
  bwdSent : List Nat
deriving DecidableEq, Repr

/-- A SEND whose header is built (R149): the descriptor, the header with its payload, and its tiles. -/
structure ReadySend where
  desc    : Desc
  stream  : Nat
  side    : Nat
  tiles   : Nat
  last    : Bool
  /-- The 32-byte header; its VERSION was fixed when it was built. -/
  header  : List Byte
deriving DecidableEq, Repr

/-- One core, by its logical coordinate (R6, R142). -/
structure CoreState where
  run       : Run
  /-- s1 to s31; s0 is not stored (R142). -/
  regs      : SMap Word64
  pc        : BitVec 16
  vl        : BitVec 13
  /-- Program memory: the stage-program image held, whole (R159); empty for none. -/
  image     : List Byte
  /-- Scalar data memory, 64 KiB (R11). -/
  sdm       : List Host.Cell
  /-- The scale and adapter tables, 0xEE00 to 0xFFFF, as the last boundary or the image left them (R161). -/
  tableCopy : List Host.Cell
  /-- The copies taken at the boundaries from the committed step on, by step (R161, R240). -/
  tablePast : List (Nat × List Host.Cell)
  sram      : List Host.Cell
  side      : List Host.Cell
  /-- 64-byte lines of the core window that read UNCORRECTABLE until written whole (R186, R306). -/
  poison    : List Nat
  /-- Flipped bits of the 72-bit words of the core window, by word (R186). -/
  flips     : SMap Nat
  /-- Reads of Backwater that have been counted, by 2^32 × queue + issue number (R208). -/
  bwNoted   : List Nat
  /-- v0 to v31, element 256 × r + j (R114). -/
  vregs     : SMap Word32
  /-- m0 to m7, bit i of mask m as bit i of entry m. -/
  masks     : SMap Nat
  summaries : SMap Summary
  ftq       : List Ftq
  /-- Function-table images by slot (R128). -/
  slots     : SMap (List Byte)
  mxQ       : Queue
  vecQ      : Queue
  rowQ      : Queue
  tmQ       : Queue
  sendQ     : Queue
  recvQ     : Queue
  updQ      : Queue
  /-- RSENDs issued on the reduction count, those unretired, and their errors (R151, WAIT code 7). -/
  redIssued : Nat
  redErrs   : List Retired
  /-- RSENDs in the drain hold (R57, R149). -/
  drainHold : List Desc
  /-- RSENDs whose drain point is met and that wait for lower tiles (R219). -/
  orderHold : List Desc
  /-- The SEND at the head of the send queue, once its header is built. -/
  ready     : Option ReadySend
  /-- The error log of 16 tokens, oldest first, as words 0 and 1 (R152). -/
  errLog    : List (Nat × Nat)
  engines   : SMap Engine
  oxbow     : List OxEntry
  layers    : SMap LayerCount
  item      : Option Item
  /-- The program is in the span between a PICK that returned KIND 3 and its STEPEND (R146). -/
  doneSpan  : Bool
  waiting   : Waiting
  inflight  : SMap (Option InFlight)
  /-- Micro-batches, from the step's first, that the core has taken without an upstream stream (R52). -/
  taken     : Nat
  /-- Riffle states by 512 × unit + lane, units 0 to 9 (R89, R91). -/
  riffle    : SMap Word64
  /-- Error score (R302). -/
  score     : Nat
deriving DecidableEq, Repr

/-- A core after reset. -/
def CoreState.reset : CoreState where
  run := .idle
  regs := []
  pc := 0
  vl := 0
  image := []
  sdm := []
  tableCopy := []
  tablePast := []
  sram := []
  side := []
  poison := []
  flips := []
  bwNoted := []
  vregs := []
  masks := []
  summaries := []
  ftq := []
  slots := []
  mxQ := .empty
  vecQ := .empty
  rowQ := .empty
  tmQ := .empty
  sendQ := .empty
  recvQ := .empty
  updQ := .empty
  redIssued := 0
  redErrs := []
  drainHold := []
  orderHold := []
  ready := none
  errLog := []
  engines := []
  oxbow := []
  layers := []
  item := none
  doneSpan := false
  waiting := .none
  inflight := []
  taken := 0
  riffle := []
  score := 0

/-! Streams (R35 to R51). -/

/-- A stream record (R37). -/
structure StreamRec where
  index     : Nat
  upCore    : Nat
  downCore  : Nat
  upPkg     : Nat
  downPkg   : Nat
  upPort    : Nat
  downPort  : Nat
  isLocal   : Bool
  slotUnits : Nat
  fwdSlots  : Nat
  bwdSlots  : Nat
  fwdBase   : Nat
  bwdBase   : Nat
  fwdTiles  : Nat
  bwdTiles  : Nat
deriving DecidableEq, Repr

/-- A message accepted into a Sluice and not yet delivered by a RECV: its header and the slots of its tiles. -/
structure Accepted where
  header : List Byte
  slots  : List Nat
deriving DecidableEq, Repr

/-- A Sluice's entry for one micro-batch index (R43). `gen` is none while the generation still follows from R42. -/
structure MbEntry where
  live    : Bool
  gen     : Option Nat
  version : Nat
  /-- Next MSG_INDEX expected on arrival. -/
  rxNext  : Nat
  /-- The message with LAST set has been accepted. -/
  lastIn  : Bool
  arrived : List Accepted
  /-- Slots, in filling order, that a RECV has delivered and no REL has freed. -/
  held    : List Nat
deriving DecidableEq, Repr

/-- A free entry that no use has touched. -/
def MbEntry.free : MbEntry := ⟨false, none, 0, 0, false, [], []⟩

/-- One side of a stream: the Sluice at its receiving end and the credit counter at its sending end. -/
structure Side where
  entries : SMap MbEntry
  /-- Slots that hold a tile, by slot number. -/
  used    : List Nat
  /-- Slots freed since the last credit return (R49). -/
  freed   : Nat
  /-- The sender's credit counter (R48). -/
  credit  : Nat
  /-- SENDs made on this side so far, by micro-batch identifier (MSG_INDEX, R149). -/
  sent    : SMap Nat
deriving DecidableEq, Repr

/-- A stream with an end on this package. -/
structure Stream where
  record  : StreamRec
  fwd  : Side
  bwd  : Side
  /-- FAULT (R46). -/
  fault : Bool
  /-- The job micro-batch counter at job start or the last re-creation, from which R42 gives generations. -/
  base : Nat
deriving DecidableEq, Repr

/-- A stage entry of the pipeline description (R159), kept by core. -/
structure StageEntry where
  stage    : Nat
  limit    : Nat
  blocks   : Nat
  homeDie  : Nat
  imageVer : Nat
deriving DecidableEq, Repr

/-- The state of a version slot (R59). -/
inductive VSt where
  | free
  | pending
  | current
  | held
deriving DecidableEq, Repr

/-- A version-table slot (R59). -/
structure VSlot where
  st      : VSt
  number  : Nat
  holders : Nat
deriving DecidableEq, Repr

/-- A free version slot. -/
def VSlot.free : VSlot := ⟨.free, 0, 0⟩

/-- A micro-batch in flight at a stage (R54, R60): its version and the cores where its input-gradient half is done. -/
structure StageMb where
  variant : Nat
  version : Nat
  done    : List Nat
deriving DecidableEq, Repr

end Sys2Proof.Machine
end

