-- ==== Sys2Proof/Machine/NapState.lean ====
section
/-! DEFINITION. The state of the dictionary's protocol: sessions, the request queue, ownership and the Weir; the event
log; and what the package sends out. -/

namespace Sys2Proof.Machine

/-- What the package sends to the outside: the commands' visible effects. -/
inductive Output where
  /-- A NAP response frame to a carrier address (R269). -/
  | nap (dest : Carrier) (frame : List Byte)
  /-- A NOTIFY frame that carries an event record (R282). -/
  | notify (dest : Carrier) (session : Nat) (record : List Byte)
  /-- A WRITE frame that the package itself sends on SESSION 0 of the sideband to a position (R231, R274): one segment of
  the value, with its SEQ and the sender's MASTER_EPOCH. To its own position it comes back as a command of its own. -/
  | command (position epoch seq index sub offset total : Nat) (value : List Byte)
  /-- A Millrace message that leaves on a port, header and payload (R35). -/
  | millrace (port : Nat) (message : List Byte)
  /-- A credit return (R49): the stream identifier, the side and the slots. -/
  | credit (port streamId side count : Nat)
  /-- A Tributary ring message (R223). -/
  | tributary (port : Nat) (message : List Byte)
  /-- A record on the BKG channel to a position (R376): 3 a page, 4 a shard, 5 permute data. -/
  | bkg (position type : Nat) (body : List Byte)
  /-- A page record of a buddy drain or a takeover transfer asked for again from a position (R244): step, address and KIND. -/
  | resend (position step address kind : Nat)
  /-- A holder tells a position that what it wrote could not be kept (R253). -/
  | kept (position : Nat) (ok : Bool)
  /-- A record that a port has received whole, for the unit that serves it: Tributary, a Sluice, buddy replication. -/
  | delivered (port pvc : Nat) (record : List Byte)
  /-- A write to host memory (R372, R373). -/
  | hostWrite (address : Nat) (bytes : List Byte)
  /-- A read of host memory asked for (R371). -/
  | hostRead (address length : Nat)
  /-- An interrupt of function `fn` (R373). -/
  | interrupt (fn vector : Nat)
  /-- A Kolfin frame sent (R21): the sender, the virtual channel and the payload. -/
  | kolfin (sender vc : Nat) (payload : List Byte)
  /-- An entry of a boundary queue returned to its sender as an error, for a domain in local reset (R28). -/
  | returned (domain : Nat) (entry : List Byte)
  /-- A replay asked for on a Kolfin link from a sequence number (R16). -/
  | kolfinReplay (link seq : Nat)
  /-- A lane offer or echo sent on a Kolfin link (R314). -/
  | laneOffer (link : Nat) (words : List (BitVec 32))
  /-- A port frame sent (R375): port, sequence number, acknowledge, NAK, channel, the channel whose credit it returns
  with the frames of credit, and payload. -/
  | portFrame (port seq ack : Nat) (nak : Bool) (pvc creditPvc creditCount : Nat) (payload : List Byte)
  /-- A link-authentication message sent on a port (R361). -/
  | linkAuth (port : Nat) (message : LinkAuth)
  /-- A management-port frame sent in answer (R382). -/
  | mgmt (frame : List Byte)
deriving DecidableEq, Repr

/-- A stored response of a session: the request's SEQ and the frame that answered it (R274). -/
structure Stored where
  seq   : Nat
  frame : List Byte
deriving DecidableEq, Repr

/-- A session slot (R273). A slot that was never used has generation 0. -/
structure Session where
  isOpen    : Bool
  gen       : Nat
  carrier   : Carrier
  /-- The session key K once authenticated (R280), and the key ID that authenticated. -/
  key       : Option (List Byte)
  keyId     : List Byte
  /-- The session is authenticated from its next request (R280 step 5). -/
  authed    : Bool
  newestSeq : Option Nat
  stored    : List Stored
  subscribe : Nat
  /-- The nonce of the last AUTH_CHALLENGE, until an AUTH_RESPONSE uses it (R280). -/
  nonce     : Option (List Byte)
  result    : List Byte
deriving DecidableEq, Repr

/-- A slot that holds no session. -/
def Session.closed : Session := ⟨false, 0, .pf1 0, none, [], false, none, [], 0, none, []⟩

/-- SESSION 0 writes of one source position (R274). -/
structure Pos0 where
  newestSeq : Option Nat
  stored    : List Stored
deriving DecidableEq, Repr

/-- A slot of the PF1 mailbox in BAR0 (R278): the bytes that the request and the response area hold, zeros after them, and the
last REQ_LEN written. -/
structure Mailbox where
  request  : List Byte
  response : List Byte
  reqLen   : Nat
deriving DecidableEq, Repr

/-- A slot that nothing has been written to. -/
def Mailbox.empty : Mailbox := ⟨[], [], 0⟩

/-- The NAP endpoint. -/
structure Nap where
  sessions : SMap Session
  queue    : List NapReq
  /-- RSP_LEN by mailbox slot, 0xFFFF_FFFF when free (R278). -/
  rspLen   : SMap Nat
  /-- The areas of the mailbox slots (R278). -/
  mailbox  : SMap Mailbox
  /-- SESSION 0 writes by source position (R274). -/
  pos0     : SMap (Option Pos0)
  /-- The package's own SEQ series of SESSION 0 writes by destination position (R274). -/
  outSeq   : SMap Nat
  /-- BLOB values in assembly: object key, session (an open one by its SESSION, SESSION 0 by its sender), and the bytes so far
  (R271). -/
  assemblies : List (Nat × Carrier × List Byte)
deriving DecidableEq, Repr

/-- An endpoint with no session and nothing queued. -/
def Nap.reset : Nap := ⟨[], [], [], [], [], [], []⟩

/-- A claim in the claim window (R284): the request that made it. -/
structure Claim where
  req      : NapReq
  session  : Nat
  priority : Nat
  nonce    : Nat
deriving DecidableEq, Repr

/-- The owner (R284). -/
structure Owner where
  session  : Nat
  carrier  : Nat
  priority : Nat
  keyId    : List Byte
deriving DecidableEq, Repr

/-- Ownership (R284 to R289). The epoch stands in the save store's ownership record. -/
structure Ownership where
  owner  : Option Owner
  window : Option (List Claim)
  /-- The session to which ownership is offered (R288). -/
  offer  : Option Nat
deriving DecidableEq, Repr

/-- No owner. -/
def Ownership.reset : Ownership := ⟨none, none, none⟩

/-- A staged value: a scalar or a BLOB. -/
inductive StVal where
  | scalar (v : Nat)
  | blob (bytes : List Byte)
deriving DecidableEq, Repr

/-- *Weir states*. -/
inductive WeirSt where
  | empty | staged | validating | valid | armed | pending
deriving DecidableEq, Repr

/-- The code of a Weir state in WEIR_STATE. -/
def WeirSt.code : WeirSt → Nat
  | .empty => 0 | .staged => 1 | .validating => 2 | .valid => 3 | .armed => 4 | .pending => 5

/-- A commit that was applied at the boundary of a step, with the values it changed as they stood before (R298). -/
structure Shadow where
  step   : Nat
  group  : Bool
  staged : List (Nat × StVal)
  before : List (Nat × StVal)
deriving DecidableEq, Repr

/-- The Weir (R290). -/
structure Weir where
  st          : WeirSt
  /-- Staged values by key, rising. -/
  bank        : SMap StVal
  /-- The validation in progress was started by GROUP_ARM. -/
  arming      : Bool
  /-- The step whose boundary applies a PENDING bank. -/
  pendingStep : Option Nat
  /-- The PENDING bank came from a group commit. -/
  pendingGroup : Bool
  /-- The group commit that armed or fixed the bank. -/
  groupSeq    : Option Nat
  /-- Commits of a rolled-back boundary that wait for the same step number again (R298). -/
  replays     : List Shadow
  /-- The configuration shadow: commits applied at boundaries whose step has not committed. -/
  shadows     : List Shadow
  /-- GROUP_COMMITs that have been answered, by GROUP_SEQ (R297). -/
  seen        : List Nat
  /-- The bank's owner has lapsed: a rejection discards it (R286). -/
  orphan      : Bool
  /-- How often the staged value of an object has changed: a part of the value version of its staged READs (R272). -/
  vers        : SMap Nat
deriving DecidableEq, Repr

/-- The Weir after reset. -/
def Weir.reset : Weir := ⟨.empty, [], false, none, false, none, [], [], [], false, []⟩

/-- The staged value of an object has changed. -/
def Weir.changed (w : Weir) (k : Nat) : Weir := { w with vers := mset 0 w.vers k (mget 0 w.vers k + 1) }

/-- A Weir without its bank: every staged value is gone. -/
def Weir.drop (w : Weir) : Weir :=
  { w.bank.foldl (fun (v : Weir) (e : Nat × StVal) => v.changed e.1) w with bank := [] }

/-- The bank of a group commit: armed, arming, or pending by GROUP_COMMIT (R295). -/
def Weir.grouped (w : Weir) : Bool :=
  w.st = .armed || (w.st = .validating && w.arming) || (w.st = .pending && w.pendingGroup)

/-- The event log (R310, R311): records newest last, 32 bytes each. -/
structure EventLog where
  /-- Epoch of the newest record, held in the hub (R30). -/
  epoch   : Nat
  /-- Count of the newest record in its epoch; 0 when none has been made (R30). -/
  count   : Nat
  records : List (List Byte)
deriving DecidableEq, Repr

/-- An empty log in epoch 0. -/
def EventLog.reset : EventLog := ⟨0, 0, []⟩

end Sys2Proof.Machine
end

