-- ==== Sys2Proof/Machine/MemState.lean ====
section
/-! DEFINITION. The state of tiered memory (R187 to R213): pages, frames, moves, retained pages, merge locks. -/

namespace Sys2Proof.Machine

/-- A frame (R189): contiguous sectors of one tier. Tier `n` below 16 is stack Sn; tier 16 is Backwater. -/
structure Frame where
  tier    : Nat
  first   : Nat
  sectors : Nat
deriving DecidableEq, Repr

/-- The tier number of Backwater. -/
def tierBw : Nat := 16

/-- A page (R187, R198, R214). Its contents stand in the memory's cells. -/
structure Page where
  frame   : Frame
  lead    : Nat
  leadCnt : Nat
  /-- LEAD_CNT at the last epoch close. -/
  prevCnt : Nat
  heat    : Nat
  acc     : Nat
  /-- WRITTEN_STEP. -/
  written : Nat
  /-- Poisoned lines, by their place in the frame (R210). -/
  poison  : List Nat
  /-- Held in the stacks until the next step boundary (R184, R203). -/
  held    : Bool
  /-- A demand promotion is in progress for a reader's die (R201). -/
  demand  : Option Nat
  /-- The data of a demand promotion arrived, and no stack had room for the frame. -/
  fetched : Bool
  /-- The frame to which a move copies the page (R204). -/
  move    : Option Frame
  /-- The epoch close that decided the move; 0 for a forced one, which does not travel with the bulk moves (R200). -/
  order   : Nat
  /-- Decisions that wait for the page's move to end (R204): the die for whose stacks, or none for Backwater, and the order. -/
  later   : List (Option Nat × Nat)
  /-- Lines of a tile page whose symbols resolved wrongly, by their place in the frame (R209). -/
  damaged : List Nat
  /-- The page is a fresh page of an uncommitted step (R171): the page it supersedes, if it was mapped. -/
  fresh   : Bool
  old     : Option Nat
deriving DecidableEq, Repr

/-- A retained page (R205): a shadow or snapshot-held page, with the contents that it keeps. -/
structure Retained where
  key   : Nat
  page  : Page
  cells : List Host.Cell
  snap  : Bool
deriving DecidableEq, Repr

/-- A unit that accesses tiered memory. -/
inductive Agent where
  /-- A core's tile mover. -/
  | core (c : Nat)
  /-- A die's update unit. -/
  | update (die : Nat)
  /-- A unit of HD: Tributary, PF0, checkpoint and buddy paths. -/
  | hub
deriving DecidableEq, Repr

/-- The compute die of an agent. -/
def Agent.die : Agent → Option Nat
  | .core c => some (c / 16)
  | .update d => some d
  | .hub => none

/-- A tile write in a tile's lock queue (R191): its writer, with the descriptor of a tile mover; where the bytes go; and the
merged tile of a partial write once the holder of the lock has read the tile. -/
structure Merge where
  agent  : Agent
  desc   : Option Desc
  addr   : Nat
  bytes  : List Byte
  merged : Option (List Byte)
deriving DecidableEq, Repr

/-- What a page held before an apply that superseded it, for micro-batches that hold the older version (R60): the table and
version that it belonged to, the page, and its contents. -/
structure Past where
  stage   : Nat
  variant : Nat
  version : Nat
  key     : Nat
  cells   : List Host.Cell
deriving DecidableEq, Repr

/-- Tiered memory. -/
structure Tiered where
  /-- Contents of mapped pages by logical address; an unlisted address reads as 0 (R187). -/
  cells    : List Host.Cell
  /-- Pages by key: twice the first address, plus 1 for a tile page. -/
  pages    : SMap (Option Page)
  /-- Shadow and snapshot-held pages by serial number. -/
  retained : SMap (Option Retained)
  serial   : Nat
  /-- Retired sectors by tier (R210, R320). -/
  retired  : SMap (List Nat)
  /-- Lines corrected in the last scrub pass over them, by 2^40 × tier + line (R320). -/
  ceSeen   : List Nat
  /-- Lines whose sectors retire when their frame is freed, in the same form. -/
  retireDue : List Nat
  /-- Merge locks: the queue of each locked tile by its address, the holder first (R191). -/
  locks    : SMap (List Merge)
  /-- MEM_RELEASEs that wait for the step boundary (R207). -/
  releases : List (Nat × Nat)
  /-- Step-plan entries that have moved their pages in this step, by their place in STEP_PLAN (R203). -/
  planDone : List Nat
  /-- Epoch closes so far, which order the bulk moves (R200). -/
  closes   : Nat
  /-- Symbol errors that stand in lines, by 2^40 × tier + line (R209). -/
  errors   : SMap (SMap Nat)
  /-- Contents of older weight versions that micro-batches still hold (R59, R60). -/
  past     : List Past
deriving DecidableEq, Repr

/-- Tiered memory with every page unmapped. -/
def Tiered.reset : Tiered where
  cells := []
  pages := []
  retained := []
  serial := 0
  retired := []
  ceSeen := []
  retireDue := []
  locks := []
  releases := []
  planDone := []
  closes := 0
  errors := []
  past := []

end Sys2Proof.Machine
end

