-- ==== Sys2Proof/Machine/JobState.lean ====
section
/-! DEFINITION. The state of the update units (R162 to R185), of Tributary (R215 to R229) and of the cascade and its
recovery protocol (R230 to R263). -/

namespace Sys2Proof.Machine

/-! Update units. -/

/-- A reduced gradient tile that Tributary delivers (R168): 4,096 FP32 elements. -/
structure GradTile where
  /-- The collective that carried it. -/
  coll   : Nat
  tensor : Nat
  tile   : Nat
  step   : Nat
  nf     : Bool
  data   : List Byte
deriving DecidableEq, Repr

/-- A die's update unit. Its Riffle lanes stand here; its counters stand in the dictionary. -/
structure UpdUnit where
  /-- The arrival buffer, oldest first (R168). -/
  buffer  : List GradTile
  /-- Tiles applied in the step, by 2^32 × tensor + tile (R169). -/
  applied : List Nat
  /-- Tensors whose state header has advanced in the step (R174). -/
  headed  : List Nat
  /-- Tiles announced for each tensor in the step (R222). -/
  due     : SMap Nat
  /-- Tiles of each tensor dealt with in the step. -/
  dealt   : SMap Nat
  /-- Matrix-rule tensors whose momentum is complete and whose program has not started, in order (R176). -/
  waiting : List Nat
  /-- Matrix-rule tensors whose program runs. -/
  running : List Nat
  /-- The tier miss of the head tile has been counted (R183). -/
  missed  : Bool
  /-- The head tile's write has been counted in SNAPSHOT_HOLDS (R206). -/
  blocked : Bool
  /-- Riffle states of lanes that have drawn since they were seeded (R91, unit 10). -/
  riffle  : SMap Word64
deriving DecidableEq, Repr

/-- An update unit after reset. -/
def UpdUnit.reset : UpdUnit := ⟨[], [], [], [], [], [], [], false, false, []⟩

/-! Tributary. -/

/-- A tile inside Tributary: its bytes (FP32 for a reduction, the contribution's own form for a gather), its non-finite bit,
and the format bits and stream scale of a gather's tile as *Tributary message header* words 4 and 5 carry them. -/
structure TribTile where
  data : List Byte
  nf   : Bool
  form : Nat
  sc   : Nat
deriving DecidableEq, Repr

/-- One collective's progress in the step (R219, R221, R224). -/
structure Coll where
  /-- Lowest tile not yet contributed here. -/
  next     : Nat
  /-- Contributed tiles that the chain has not yet used. -/
  own      : SMap (Option TribTile)
  /-- Chain tiles that have arrived and wait for the contribution. -/
  chainIn  : SMap (Option TribTile)
  /-- Chain tiles ready to be sent on. -/
  chainOut : SMap (Option TribTile)
  /-- Results, or gathered tiles, to be sent on. -/
  resOut   : SMap (Option TribTile)
  /-- Results delivered and sent on, by tile, that the result phase still needs: 1 delivery due, 2 send due, 3 both. -/
  resDue   : SMap Nat
  /-- Tiles finished in the chain phase and in the result or gather phase. -/
  chainFin : List Nat
  resFin   : List Nat
  /-- Window bases last announced by this package, by direction. -/
  told     : SMap Nat
  /-- Window bases last announced by the neighbours, by direction of sending. -/
  peer     : SMap Nat
deriving DecidableEq, Repr

/-- A collective at the start of a step. The lowest tile of direction 1 is tile 1. -/
def Coll.start : Coll := ⟨0, [], [], [], [], [], [], [], [(1, 1)], [(1, 1)]⟩

/-- Tributary. The attempt stands in the job, the tables in the dictionary. -/
structure Trib where
  colls   : SMap Coll
  /-- Tiles to be delivered to update units, by die (R168). -/
  deliver : List (Nat × GradTile)
  /-- Permute-plan entries, and units of each, that this package has sent or copied in the layout phase (R228). -/
  sent    : List (Nat × Nat)
  /-- Permute-plan entries, and units of each, that have been written here. -/
  written : List (Nat × Nat)
  /-- The layout phase runs. -/
  layout  : Bool
  /-- PERMUTE_DONE has been written. -/
  reported : Bool
deriving DecidableEq, Repr

/-- Tributary with nothing in progress. -/
def Trib.reset : Trib := ⟨[], [], [], [], false, false⟩

/-! The cascade (R230 to R242). -/

/-- A vote report that a master holds: its step, its sender, the vote and its log entries (R394). -/
structure Vote where
  step    : Nat
  sender  : Nat
  vote    : Bool
  entries : List Nat
deriving DecidableEq, Repr

/-- A rollback in progress at the root (R239). -/
structure Rollback where
  target  : Nat
  attempt : Nat
  lost    : List Nat
deriving DecidableEq, Repr

/-- Commands held back until a deputy has answered (R237, R295): the SEQ awaited, and what follows. -/
structure Awaiting where
  deputy : Nat
  seq    : Nat
  rest   : List (Nat × Nat × Nat × List Byte)
deriving DecidableEq, Repr

/-- What a package holds as a member, a group master and the root. -/
structure Cascade where
  /-- The package acts as master in place of the MASTER_POSITION that the description names (R232). -/
  acting     : Option Nat
  /-- The deputy that has taken over the parent master, as a child master sees it. -/
  parent     : Option Nat
  /-- The root's child masters, once a deputy has taken one over. -/
  kids       : Option (List Nat)
  /-- The GROUP_ARMED values of the last group commit by sender: what a master knows of its packages (R233, R234). -/
  known      : List (Nat × List Byte)
  /-- Vote reports held by a master, by rising sender. -/
  votes      : List Vote
  /-- The last step that a master has decided or reported upward: at the root, whose VERDICT it has written; 0 for none. -/
  decided    : Nat
  /-- Steps that were skipped and are not committed. -/
  skipped    : List Nat
  /-- COMMIT_READYs held: step and sender. -/
  readies    : List (Nat × Nat)
  /-- PERMUTE_DONEs held. -/
  permDone   : List Nat
  /-- Layout phases of the change that have failed (R228). -/
  layoutFails : Nat
  /-- RESTART_READYs held: sender and COMMITTED_STEP. -/
  restarts   : List (Nat × Nat)
  rolling    : Option Rollback
  /-- Positions that have been declared lost and have no spare yet, or for good. -/
  lost       : List Nat
  /-- Spares that have taken a position: the spare's installation position and what it adopted. -/
  taken      : List (Nat × Nat)
  awaiting   : List Awaiting
  /-- ROOT_LIVE as a child master sees it (R232). -/
  rootLive   : Bool
  /-- JOB_END has been accepted in a step: the job ends when that step commits (R300). -/
  ending     : Option Nat
  /-- CKPT_DONEs and RESTORE_READYs held at the root: sender and result. -/
  ckptDone   : List (Nat × Nat)
  restoreReady : List (Nat × Nat)
  /-- Aborts of the Freshet in progress (R258). -/
  aborts     : Nat
  /-- GROUP_ARMEDs held by a master: the value bytes by sender (R295). -/
  armed      : List (Nat × List Byte)
  /-- The last GROUP_COMMIT value received, which a deputy that takes over sends again (R297). -/
  lastCommit : List Byte
  /-- Packages that have not answered a GROUP_COMMIT (R295): destination and SEQ. -/
  unanswered : List (Nat × Nat)
  /-- The package has taken a position and waits until every port that its LINK_MAP uses has passed R215 (R233). -/
  adopting   : Bool
  /-- The GROUP_COMMIT that a child master has not answered, because its packages have not all answered it (R295), and whether the
  response is kept. -/
  commitReq  : Option (NapReq × Bool)
deriving DecidableEq, Repr

/-- A cascade in which nothing has happened. -/
def Cascade.reset : Cascade := ⟨none, none, none, [], [], 0, [], [], [], 0, [], none, [], [], [], false, none, [], [], 0, [], [], [], false, none⟩

/-! Buddy images, checkpoints and restores (R243 to R263). -/

/-- A page of a buddy image (R244): its address, kind and tiles, its bytes, and the Backwater frame that holds it. -/
structure BuddyPage where
  address : Nat
  tile    : Bool
  count   : Nat
  bytes   : List Byte
  frame   : Frame
deriving DecidableEq, Repr

/-- The copy that this package holds for another: complete images, newest first, and the image that arrives. A page that a
newer image did not change stands in that image too. -/
structure Copy where
  source  : Nat
  /-- Complete images: step, pages and configuration record. -/
  images  : List (Nat × List BuddyPage × List Byte)
  /-- Pages of the step that arrives, with its step. -/
  coming  : Option (Nat × List BuddyPage)
  /-- A line of an image was lost (R320): nothing counts until a full drain has come. -/
  broken  : Bool
  /-- Records whose CRC failed and that have been asked for again: address and KIND (R244). -/
  asked   : List (Nat × Nat)
  /-- The record that ends the step that arrives has come: its configuration record (R244). -/
  ending  : Option (List Byte)
deriving DecidableEq, Repr

/-- A takeover transfer that this package sends (R246). -/
structure Transfer where
  /-- The lost position. -/
  lost    : Nat
  /-- The image's step. -/
  step    : Nat
  /-- For each port in use the pages of its stripe still to send. -/
  stripes : List (Nat × List BuddyPage)
  /-- The configuration record that ends the transfer. -/
  config  : List Byte
deriving DecidableEq, Repr

/-- The package's own side of buddy replication. -/
structure Buddy where
  /-- Drains still to be sent, oldest first: the step, the keys of the pages left, and the configuration record where it goes
  with them (empty where not). A full drain sends every page. -/
  queue   : List (Nat × List Nat × List Byte)
  /-- The configuration record as the newest drain found it. -/
  config  : List Byte
  /-- Copies held for other members. -/
  copies  : List Copy
  transfer : Option Transfer
  /-- Pages received as a spare that waits for its position's image, until the transfer is complete. -/
  arriving : Option (List BuddyPage)
  /-- Records of the transfer whose CRC failed and that have been asked for again: address and KIND (R247). -/
  asked    : List (Nat × Nat)
  /-- The record that ends the transfer has come: the image's step and configuration record. -/
  ending   : Option (Nat × List Byte)
  /-- Page records that wait for a free Backwater frame, oldest first, each with its sender (R244). -/
  held     : List (Nat × Sys2Proof.PageRecord)
deriving DecidableEq, Repr

/-- No replication in progress. -/
def Buddy.reset : Buddy := ⟨[], [], [], none, none, [], none, []⟩

/-- A shard of an open cut (R252, R255): its header and payload, where it lies in the slot, and how far each destination
has it. -/
structure Shard where
  header  : List Byte
  payload : List Byte
  offset  : Nat
  /-- The addresses and lengths of what the payload was read from. -/
  extents : List (Nat × Nat)
  /-- Destinations (0 host, 1 buddy) to which the shard is written and not yet read back. -/
  written : List Nat
  /-- Destinations at which it is verified. -/
  verified : List Nat
  /-- Read-backs that have failed, by destination. -/
  fails   : SMap Nat
deriving DecidableEq, Repr

/-- An open checkpoint cut (R250 to R258). -/
structure Cut where
  step   : Nat
  slot   : Nat
  dests  : Nat
  /-- Address and size of the host slot, as the cut latched them (R263). -/
  hostAt   : Nat
  hostSize : Nat
  layout : Nat
  shards : List Shard
  /-- STEP_COMMIT of the step has arrived. -/
  sure   : Bool
  /-- Destinations whose manifest has been written and read back. -/
  manifests : List Nat
  /-- CKPT_DONE has been written. -/
  done   : Bool
deriving DecidableEq, Repr

/-- A shard or manifest that this package keeps for another position (R253, R256): the manifest has number 0, shard `i` has
number i + 1. -/
structure KeptShard where
  position : Nat
  slot     : Nat
  number   : Nat
  bytes    : List Byte
  frame    : Frame
deriving DecidableEq, Repr

/-- Checkpointing: the Freshet in progress and the open cut; and slot images held as a buddy destination. -/
structure Ckpt where
  /-- A cut that CUT_AT has fixed and that has not been taken: step, halt flag, slot. -/
  due   : Option (Nat × Bool × Nat)
  halt  : Bool
  /-- A Freshet has arrived at the root and waits for a rollback or layout change to end. -/
  noticed : Option Bool
  cut   : Option Cut
  /-- The cores are held in STEPEND by a halting cut (R250). -/
  held  : Bool
  /-- Cuts taken since job start (CKPT_SEQ). -/
  seq   : Nat
  /-- Shards and manifests kept for other positions. -/
  kept  : List KeptShard
  /-- The step and slot that the last CUT_AT named (R257). -/
  cutSlot : Option (Nat × Nat)
deriving DecidableEq, Repr

/-- No Freshet. -/
def Ckpt.reset : Ckpt := ⟨none, false, none, none, false, 0, [], none⟩

/-- A restore in progress (R260 to R262): its list, the images read, the candidate steps that have failed, the step chosen
and whether this package has reported. -/
structure Restore where
  entries   : List (Nat × Nat × Nat)
  requested : Nat
  images    : List SlotImage
  failed    : List Nat
  chosen    : Option Nat
  reported  : Bool
deriving DecidableEq, Repr

end Sys2Proof.Machine
end

