-- ==== Sys2Proof/Machine/PkgState.lean ====
section
/-! DEFINITION. The state of the package around its cores: Kolfin links and arbiters (R16 to R23, R313 to R315), Millrace
ports (R375 to R381), the security block (R349 to R366), supply, reset and pins (R324 to R347), and the save store. -/

namespace Sys2Proof.Machine

/-! Kolfin. -/

/-- How far a link's width agreement has come (R313 to R315). -/
inductive LinkSt where
  /-- Up at the agreed width. -/
  | up
  /-- Both ends drive the lane test. -/
  | testing
  /-- This end has sent its offer and waits for the peer's. -/
  | offered
  /-- The offers agreed on a mask; the peer's echo is awaited. -/
  | echoed
  /-- Lane 0 alone at width 1 (R315). -/
  | limping
  /-- Width 0: no retrain until the die resets or rejoins. -/
  | down
deriving DecidableEq, Repr

/-- A Kolfin link by the sub-index of its width object: n for CDn's hub link, 0x10 + n for the ring link CDn to CD(n + 1).
Its width stands in the dictionary. -/
structure Link where
  st      : LinkSt
  /-- 0 for the first attempt of a retrain, 4 for the last. -/
  attempt : Nat
  /-- This end's mask, and the agreed mask, of the attempt. -/
  mask    : Nat
  agreed  : Nat
  /-- The AND of the attempt before, in the same retrain. -/
  before  : Option Nat
  /-- Next sequence number expected. -/
  rxSeq   : Nat
  /-- Frames received since reset, and the numbers of those that made the receiver ask for a replay, of the last 65,536. -/
  frames  : Nat
  asks    : List Nat
deriving DecidableEq, Repr

/-- A link as a reset leaves it: up, with nothing received. -/
def Link.reset : Link := ⟨.up, 0, 0, 0, none, 0, 0, []⟩

/-- A packet that waits at an arbiter (R22). -/
structure KPacket where
  input   : Nat
  age     : Nat
  payload : List Byte
deriving DecidableEq, Repr

/-- An arbiter: a link sender or a hub-switch output (R21). -/
structure Arbiter where
  queues  : SMap (List KPacket)
  /-- Credit that the receiver has granted, by channel (R20). -/
  credit  : SMap Nat
  /-- What VC0 to VC3 may still send in the round of R21. -/
  quota   : List Nat
  /-- Frames of VC5, and frames in all, sent while VC5 and another channel waited. -/
  bkg     : Nat
  rounds  : Nat
deriving DecidableEq, Repr

/-- An arbiter with nothing waiting. -/
def Arbiter.reset : Arbiter := ⟨[], [], [3, 4, 4, 4], 0, 0⟩

/-! Millrace ports. -/

/-- A frame that a port has sent and its peer has not acknowledged (R379). -/
structure SentFrame where
  seq     : Nat
  pvc     : Nat
  /-- The credit that the frame returns: a channel and frames. -/
  back    : Nat × Nat
  payload : List Byte
deriving DecidableEq, Repr

/-- Link authentication in progress (R361). -/
structure LinkKeys where
  /-- This end's nonce. -/
  nonce     : List Byte
  peerNonce : List Byte
  peerKey   : List Byte
  peerPos   : Nat
  peerPort  : Nat
  /-- The counter reading at which this end's encapsulation key was generated. -/
  gen       : Nat
  encap     : List Byte
  ct        : List Byte
  secret    : List Byte
  /-- The step of *Link authentication* that this end awaits. -/
  stage     : Nat
deriving DecidableEq, Repr

/-- A Millrace port. PORT_STATE, PORT_WIDTH and the counters stand in the dictionary. -/
structure Port where
  /-- Records that wait to be sent, by port channel, and the bytes of those that a frame has begun to carry (R376). -/
  tx      : SMap (List (List Byte))
  cur     : SMap (List Byte)
  /-- Bytes of a record that has not arrived whole, by port channel. -/
  rx      : SMap (List Byte)
  /-- The next sequence number to be sent. -/
  next    : Nat
  unacked : List SentFrame
  /-- The last frame received in order. -/
  last    : Nat
  /-- A NAK is due; one has been sent for the gap in progress (R379). -/
  nak     : Bool
  gap     : Bool
  /-- Frames of credit held, by port channel, and frames of credit owed to the peer. -/
  credit  : SMap Nat
  owed    : SMap Nat
  /-- The channel whose credit is returned next; whether REDUCE goes before STREAM; BKG frames and frames while it waited. -/
  turn    : Nat
  flip    : Bool
  bkg     : Nat
  rounds  : Nat
  /-- Frames received, those of the last 65,536 that were discarded, and the uncorrectable codewords with them. -/
  frames  : Nat
  asks    : List Nat
  bad     : List Nat
  /-- Trainings since the last one that brought the port up. -/
  tries   : Nat
  auth    : Option LinkKeys
  /-- The link key (slot 3 + n); empty for none. -/
  key     : List Byte
  /-- Attempts in a row that this port's DEGRADED report has failed, and the last of them (R381). -/
  downRun : Nat
  downAt  : Option Nat
  /-- The port has trained since reset. -/
  trained : Bool
deriving DecidableEq, Repr

/-- The receiver's buffers of a port channel, in frames (R378). -/
def pvcFrames : Nat → Nat
  | 0 => 96
  | 1 => 96
  | 2 => 16
  | 3 => 48
  | _ => 0

/-- A port after reset: nothing sent or received, and the peer's whole buffers as credit. -/
def Port.reset : Port :=
  ⟨[], [], [], 0, [], 4095, false, false, [(0, 96), (1, 96), (2, 16), (3, 48)], [], 0, false, 0, 0, 0, [], [], 0, none, [], 0, none, false⟩

/-! The security block. -/

/-- The security block's own state: key slots (R358), the alarm log (R366) and the flash. Session keys stand in the
sessions, link keys in the ports. -/
structure Security where
  /-- Generations by slot, and the slots that hold a key. -/
  keyGen  : SMap Nat
  held    : List Nat
  /-- The alarm log, oldest first. -/
  alarms  : List (List Byte)
  /-- Alarm-log entries ever written. -/
  count   : Nat
  /-- Sensors that have tripped since they were last cleared, with the level that each raised. -/
  raised  : List (Nat × Nat)
  /-- Flash: the bank records of A and B, and the banks' contents. -/
  records : SMap (List Byte)
  banks   : SMap (List Byte)
deriving DecidableEq, Repr

/-! Supply, reset and pins. -/

/-- Where the package stands between power and service (R337 to R340). -/
inductive Phase where
  /-- Power-on reset. -/
  | powerOn
  /-- A stretch of RESET_N. -/
  | stretch
  /-- RESET_N still reads low after the stretch. -/
  | hold
  /-- The release order waits for lock handshakes. -/
  | release
  /-- Recovery (R353). -/
  | recovery
  | run
deriving DecidableEq, Repr

/-- Supply, reset, thermal and pin state. -/
structure Power where
  phase   : Phase
  /-- Domains whose PLLs report lock, by the numbers of R385. -/
  locked  : List Nat
  /-- What the release order found at its start. -/
  env     : Option BootEnv
  /-- RESET_CAUSE of the reset in progress. -/
  cause   : Nat
  /-- The hub controller has been released since the last power-on reset (R345). -/
  hubUp   : Bool
  /-- A thermal trip holds the package until VAUX is removed (R335). -/
  tripped : Bool
  /-- Control intervals in a row in which a rail's regulator has not answered. -/
  silent  : SMap Nat
  /-- Dies at their temperature limit, and POWER_CAP_UNMET recorded. -/
  limited : List Nat
  unmet   : Bool
  /-- VHOLD was late (R347). -/
  holdLate : Bool
  /-- Pins asserted: RESET_N driven by the package, SAVE_N, FAULT_N, ALARM_N. -/
  resetN  : Bool
  saveN   : Bool
  faultN  : Bool
  alarmN  : Bool
  /-- FRESHET_N has been high for 10 µs since its last Freshet (R386). -/
  freshetArmed : Bool
  /-- JTAG holds the boundary register in EXTEST. -/
  extest  : Bool
  /-- Settings of the matched delays, by path (R24). -/
  delays  : SMap Nat
deriving DecidableEq, Repr

/-- In service, every clock locked. -/
def Power.reset : Power where
  phase := .run
  locked := List.range 20 ++ (List.range 8).map (fun n => 0x20 + n) ++ (List.range 16).map (fun n => 0x30 + n)
  env := none
  cause := 0
  hubUp := true
  tripped := false
  silent := []
  limited := []
  unmet := false
  holdLate := false
  resetN := false
  saveN := false
  faultN := false
  alarmN := false
  freshetArmed := true
  extest := false
  delays := []

/-- A save set of option bytes, the journal and what else the save store keeps through every reset (R341). -/
structure SaveStore where
  /-- The event epoch (R30). -/
  epoch      : Nat
  /-- The save store can be written (R30). -/
  writable   : Bool
  /-- ENGINE_REPAIR by 256 × die + 8 × core + engine: the retirement map (R112). -/
  repair     : SMap Nat
  /-- Coordinates that run on their die's spare core (R306). -/
  subst      : List Nat
  /-- The two option-byte copies (R342). -/
  obA        : List Byte
  obB        : List Byte
  /-- The ownership record (R289). -/
  owner      : List Byte
  /-- The commit journal (R238), 32 bytes an entry, oldest first, at most 65,536. -/
  journal    : List (List Byte)
  /-- The saved record whose header was completed last, the parts of it that check, and whether its save is later than the
  last report (R346). -/
  record     : List Byte
  parts      : Nat
  later      : Bool
  /-- Journal entries appended and saves made, which wear the store (R322). -/
  writes     : Nat
deriving DecidableEq, Repr

/-- The factory defaults of *Option bytes* (R342), with OB_SEQ 0 and their CRC. -/
def factoryOb (p : Part) : List Byte :=
  let ports := match p with
    | .hn9_8x => 0x3F
    | .hn9_6l => 0x0F
  let body := wordsLE ([0x4E394F42, 1 + 1 * 2 ^ 8 + 3000 * 2 ^ 16, 255 * 2 ^ 8, ports, 0, 0, 1 + 8] ++ List.replicate 8 0 ++
    [1 + 1 * 2 ^ 2 + 1 * 2 ^ 4 + 16 * 2 ^ 8, 1] ++ List.replicate 46 0)
  body ++ leBytes 4 (crc32 body)

/-- The save store as it leaves the factory: copy A holds the factory defaults (assumption 20). -/
def SaveStore.factory (p : Part) : SaveStore :=
  ⟨0, true, [], [], factoryOb p, [], List.replicate 48 0, [], [], 0, false, 0⟩

/-- The security block as it leaves the factory: the identity key in slot 0, a manifest key in slot 1, a
Backwater key in slot 2, and the flash as
programmed there (assumption 20). -/
def Security.factory : Security :=
  ⟨[(0, 1), (1, 1), (2, 1)], [0, 1, 2], [], 0, [], [(0, Config.flashRecord 0), (1, Config.flashRecord 1)],
    [(0, Config.flashBank 0), (1, Config.flashBank 1)]⟩

end Sys2Proof.Machine
end

