-- ==== Sys2Proof/Machine/State.lean ====
section
/-! DEFINITION. The whole state of the package, its faults and refusals, and its state after reset. -/

namespace Sys2Proof.Machine

/-- The job as this package stands in it. -/
structure Job where
  /-- JOB_STATE: 0 idle, 1 running, 2 halted, 3 rolling back (R300). -/
  st        : Nat
  /-- The step that runs, or is about to run. -/
  step      : Nat
  /-- ATTEMPT (R225), four bits. -/
  attempt   : Nat
  /-- The job micro-batch counter n of the step's first micro-batch (R42). -/
  mbBase    : Nat
  /-- The JOB_SEED, step and position with which the Riffle generators were last seeded (R90). -/
  seed      : Nat
  seedStep  : Nat
  seedPos   : Nat
  /-- COMMITTED_STEP (R238). -/
  committed : Nat
  /-- The package has left the job by a self-lost fault (R309). -/
  left      : Bool
  /-- The vote bit of the step (R179). -/
  vote      : Bool
  /-- The vote report of the step has been written. -/
  voted     : Bool
  /-- The verdict of the step has been acted on: true for SKIP. -/
  verdict   : Option Bool
  /-- The job halts after the boundary of the step (R182). -/
  haltAfter : Bool
  /-- The job micro-batch counter at the start of each uncommitted step (R240). -/
  bases     : SMap Nat
  /-- The step that RESTORE_COMMIT has put in place for the next job start (R261, R300). -/
  restored  : Option Nat
  /-- The last step whose COMMIT_READY this package has written (R237). -/
  readied   : Nat
deriving DecidableEq, Repr

/-- No job. -/
def Job.reset : Job where
  st := 0
  step := 0
  attempt := 0
  mbBase := 0
  seed := 0
  seedStep := 0
  seedPos := 0
  committed := 0
  left := false
  vote := false
  voted := false
  verdict := none
  haltAfter := false
  bases := []
  restored := none
  readied := 0

/-- The package. -/
structure State where
  part      : Part
  nv        : SaveStore
  dict      : SMap Nat
  blobs     : SMap (List Byte)
  blobVer   : SMap Nat
  /-- Committed values that wait for the next job start or layout change before they act, by rising key (R235). -/
  next      : List (Nat × StVal)
  cores     : SMap CoreState
  streams   : SMap (Option Stream)
  stages    : SMap (Option StageEntry)
  versions  : SMap (List VSlot)
  /-- The version tables as they stood before the verdict of each uncommitted step (R240). -/
  verBefore : List (Nat × SMap (List VSlot))
  /-- Micro-batches in flight at each stage, by n (R54, R60). -/
  stageMbs  : SMap (List (Nat × StageMb))
  /-- Micro-batches of the step whose input-gradient half has completed at each stage (R54, R144). -/
  stageDone : SMap Nat
  mem       : Tiered
  job       : Job
  /-- Update units by die. -/
  upd       : SMap UpdUnit
  trib      : Trib
  cas       : Cascade
  buddy     : Buddy
  ckpt      : Ckpt
  restore   : Option Restore
  /-- Kolfin links by the sub-index of their width, and arbiters by sender. -/
  links     : SMap Link
  arbs      : SMap Arbiter
  ports     : SMap Port
  /-- Boundary queues (R27): by twice the domain of R385, plus 1 for the receive direction, the entries that wait, oldest first. -/
  bq        : SMap (List (List Byte))
  sec       : Security
  power     : Power
  /-- The option bytes in force (R342). -/
  ob        : List Byte
  /-- A checked load set that waits for the step boundary (R160); empty for none. -/
  load      : List Byte
  /-- The waiting load set was placed between VALIDATE and COMMIT of a layout change: it takes effect with the change (R226). -/
  loadLayout : Bool
  /-- The pipeline description in force, as its load set gave it (R159, R255); empty for none. -/
  desc      : List Byte
  nap       : Nap
  own       : Ownership
  weir      : Weir
  log       : EventLog
  /-- PF0 registers by BAR0 offset (R370). -/
  pf0       : SMap Nat
  out       : List Output
  free      : Nat
  pending   : List Instr
deriving DecidableEq, Repr

/-- The faults of the machine. The spec gives this block no state in which it stops, so no step answers one: a reason
is kept only because the interface asks for a type. -/
inductive Fault where
  /-- Raised by no step: safe. -/
  | none
deriving DecidableEq, Repr

/-- Why a step can be refused. -/
inductive Refusal where
  /-- No meaning is written for the command yet: safe, the machine stops where the hardware goes on. -/
  | notModelled (mnemonic : String)
deriving DecidableEq, Repr

/-- The package right after reset. -/
def State.reset : State where
  part := .hn9_8x
  nv := .factory .hn9_8x
  dict := []
  blobs := []
  blobVer := []
  next := []
  cores := []
  streams := []
  stages := []
  versions := []
  verBefore := []
  stageMbs := []
  stageDone := []
  mem := .reset
  job := .reset
  upd := []
  trib := .reset
  cas := .reset
  buddy := .reset
  ckpt := .reset
  restore := none
  links := []
  arbs := []
  ports := []
  bq := []
  sec := .factory
  power := .reset
  ob := factoryOb .hn9_8x
  load := []
  loadLayout := false
  desc := []
  nap := .reset
  own := .reset
  weir := .reset
  log := .reset
  pf0 := []
  out := []
  free := 0
  pending := []

end Sys2Proof.Machine
end

