-- ==== Sys2Proof/Machine/Ops.lean ====
section
/-! DEFINITION. The named operations over the state: cores, scalar registers, dictionary values and counters, free
values, what the package sends, and the recording of an event with all that it brings about (R30, R282, R309, R310,
R373). -/

namespace Sys2Proof.Machine

/-- The outcome of a command. -/
abbrev Res := Host.Outcome State Fault Refusal

/-! Cores and their scalar registers (R142). -/

/-- The core at a logical coordinate. -/
def State.core (s : State) (c : Nat) : CoreState := mget CoreState.reset s.cores c

/-- The state with one core replaced. -/
def State.setCore (s : State) (c : Nat) (k : CoreState) : State :=
  { s with cores := mset CoreState.reset s.cores c k }

/-- One core changed by a function. -/
def State.onCore (s : State) (c : Nat) (f : CoreState → CoreState) : State := s.setCore c (f (s.core c))

/-- A scalar register; s0 reads as 0 (R142). -/
def CoreState.reg (k : CoreState) (r : Reg) : Word64 := if r = 0 then 0 else mget 0 k.regs r.toNat

/-- A scalar register written; a write of s0 is ignored (R142). -/
def CoreState.setReg (k : CoreState) (r : Reg) (v : Word64) : CoreState :=
  if r = 0 then k else { k with regs := mset 0 k.regs r.toNat v }

/-- Scalar data memory, `n` bytes from an offset (R11). -/
def CoreState.sdmRead (k : CoreState) (a n : Nat) : List Byte := rdBytes k.sdm a n

/-- Scalar data memory written. -/
def CoreState.sdmWrite (k : CoreState) (a : Nat) (bs : List Byte) : CoreState := { k with sdm := wrBytes k.sdm a bs }

/-- Core SRAM, `n` bytes from an offset (R12). -/
def CoreState.sramRead (k : CoreState) (a n : Nat) : List Byte := rdBytes k.sram a n

/-- `n` bytes of a core's window written at an offset: the whole lines written are no longer poisoned, and the whole words
written hold no flipped bit (R186, R306). -/
def CoreState.cleanse (k : CoreState) (a n : Nat) : CoreState :=
  { k with
    poison := k.poison.filter (fun l => !(decide (a ≤ 64 * l) && decide (64 * l + 64 ≤ a + n))),
    flips := k.flips.filter (fun w => !(decide (a ≤ 8 * w.1) && decide (8 * w.1 + 8 ≤ a + n))) }

/-- Core SRAM written. -/
def CoreState.sramWrite (k : CoreState) (a : Nat) (bs : List Byte) : CoreState :=
  { k.cleanse a bs.length with sram := wrBytes k.sram a bs }

/-- Side memory written, at its offset within side memory. -/
def CoreState.sideWrite (k : CoreState) (a : Nat) (bs : List Byte) : CoreState :=
  { k.cleanse (0x1000000 + a) bs.length with side := wrBytes k.side a bs }

/-- A word of the core window meets an extent. -/
def wordIn (a n w : Nat) : Bool := decide (8 * w < a + n) && decide (a < 8 * w + 8)

/-- Whether an extent of the core window meets a poisoned line or a word with a double-bit error (R186, R306). -/
def CoreState.poisoned (k : CoreState) (a n : Nat) : Bool :=
  k.poison.any (fun l => decide (64 * l < a + n) && decide (a < 64 * l + 64))
    || k.flips.any (fun w => wordIn a n w.1 && decide (2 ≤ flipCount w.2))

/-- The size of core SRAM in bytes (R12). -/
def sramSize : Nat := 0x1000000

/-! Dictionary values. -/

/-- The value that the dictionary holds for a scalar object, or its default. -/
def State.obj (s : State) (i sub : Nat) : Nat := mget (keyDflt s.part (objKey i sub)) s.dict (objKey i sub)

/-- A dictionary value set. -/
def State.setObj (s : State) (i sub v : Nat) : State :=
  { s with dict := mset (keyDflt s.part (objKey i sub)) s.dict (objKey i sub) v }

/-- `n` added to a counter of `w` bits. -/
def State.addObj (s : State) (i sub w n : Nat) : State := s.setObj i sub ((s.obj i sub + n) % 2 ^ w)

/-- A counter raised to at least `v`: a peak. -/
def State.peakObj (s : State) (i sub v : Nat) : State := if s.obj i sub < v then s.setObj i sub v else s

/-- The value of a BLOB object. -/
def State.blob (s : State) (i sub : Nat) : List Byte := mget [] s.blobs (objKey i sub)

/-- The value version of a BLOB advances (R272). -/
def State.bumpBlob (s : State) (k : Nat) : State := { s with blobVer := mset 0 s.blobVer k (bump 32 (mget 0 s.blobVer k)) }

/-- A BLOB value set; its value version advances when the value changes (R272). -/
def State.setBlob (s : State) (i sub : Nat) (v : List Byte) : State :=
  if s.blob i sub = v then s else { s with blobs := mset [] s.blobs (objKey i sub) v }.bumpBlob (objKey i sub)

/-- The package's installation position, JOB_POSITION (R91). -/
def State.position (s : State) : Nat := s.obj 0x4030 1

/-- The position of this package's group master: the MASTER_POSITION of the job description, or the deputy that has taken
over (R232). -/
def State.master (s : State) : Nat := s.cas.acting.getD (s.obj 0x4030 3)

/-- Whether this package is its group's master. -/
def State.isMaster (s : State) : Bool := s.master = s.position

/-- Whether this package is the root master: its group's master, with no parent (R231). -/
def State.isRoot (s : State) : Bool := s.isMaster && s.obj 0x4030 5 = 0xFFFF

/-! Free values and outputs. -/

/-- A reading of the free-value counter, which advances. -/
def State.fresh (s : State) : Nat × State := (s.free, { s with free := s.free + 1 })

/-- A port. -/
def State.port (s : State) (n : Nat) : Port := mget .reset s.ports n

/-- A port set. -/
def State.setPort (s : State) (n : Nat) (p : Port) : State := { s with ports := mset .reset s.ports n p }

/-- The port in use to a position: its peer is authenticated and as LINK_MAP names it (R215). -/
def State.portTo (s : State) (position : Nat) : Option Nat :=
  (List.range s.part.ports).find? (fun p =>
    let l := s.obj 0x7020 p
    let q := s.obj 0x7022 p
    bitOf l 15 && bits l 0 12 = position && bitOf q 15 && !bitOf q 16 && bits q 0 15 = bits l 0 15)

/-- The CTRL_ROUTE by which control and background traffic goes (R216): the one in force, or, where none has been committed, that of
the bank that is armed or arming (R295, assumption 21). -/
def State.routes (s : State) : List Byte :=
  if s.blob 0x7021 0 = [] ∧ s.weir.grouped then
    match s.weir.bank.find? (fun e => e.1 = objKey 0x7021 0) with
    | some (_, .blob b) => b
    | _ => []
  else s.blob 0x7021 0

/-- The port that control and background traffic to a position takes: the one that CTRL_ROUTE names (R216). -/
def State.route (s : State) (position : Nat) : Option Nat :=
  match s.routes[position]? with
  | some b => if b.toNat < s.part.ports then some b.toNat else none
  | none => none

/-- A record put in a port's channel, behind those that wait (R377). -/
def State.queueOn (s : State) (n pvc : Nat) (record : List Byte) : State :=
  let p := s.port n
  s.setPort n { p with tx := mset [] p.tx pvc (mget [] p.tx pvc ++ [record]) }

/-- Something sent. -/
def State.emit (s : State) (o : Output) : State := { s with out := s.out ++ [o] }

/-- A Millrace message sent: on its port's STREAM channel, or inside the package (R376). -/
def State.emitStream (s : State) (port : Nat) (m : List Byte) : State :=
  (if port < s.part.ports then s.queueOn port 0 m else s).emit (.millrace port m)

/-- A credit return sent: on its port's SIDEBAND channel, or inside the package (R49, R376). -/
def State.emitCredit (s : State) (port streamId side count : Nat) : State :=
  (if port < s.part.ports then s.queueOn port 2 (portRecord 2 (leBytes 4 (streamId + side * 2 ^ 16 + count * 2 ^ 17))) else s).emit
    (.credit port streamId side count)

/-- A Tributary ring message sent on its port's REDUCE channel. -/
def State.emitRing (s : State) (port : Nat) (m : List Byte) : State := (s.queueOn port 1 m).emit (.tributary port m)

/-! Event records (R30, R309 to R312). -/

/-- Event classes (R310). -/
inductive EvClass where
  | note | corrected | degraded | fault | halt | alarm
deriving DecidableEq, Repr

/-- The code of an event class. -/
def EvClass.code : EvClass → Nat
  | .note => 0 | .corrected => 1 | .degraded => 2 | .fault => 3 | .halt => 4 | .alarm => 5

/-- What an event carries beside its sequence number and step (R310). -/
structure Event where
  code : Nat
  cls  : EvClass
  selfLost : Bool := false
  /-- 0 to 7 for a compute die, 8 for HD, 15 for none. -/
  die  : Nat := 15
  core : Nat := 15
  unit : Nat := 0xFF
  d0   : Nat := 0
  d1   : Nat := 0
deriving DecidableEq, Repr

/-- The event's place fields from a core coordinate. -/
def Event.at (e : Event) (core : Nat) : Event := { e with die := core / 16, core := core % 16 }

/-- The 32-byte event record (R310). -/
def Event.record (e : Event) (epoch count step position : Nat) : List Byte :=
  wordsLE [count, epoch, step % 2 ^ 32, step / 2 ^ 32 % 2 ^ 32,
    e.code + e.cls.code * 2 ^ 16 + b01 e.selfLost * 2 ^ 19,
    e.die + e.core * 16 + e.unit * 2 ^ 8 + position * 2 ^ 16,
    e.d0 % 2 ^ 32, e.d1 % 2 ^ 32]

/-- A PF0 register as it stands. -/
def State.pf0Reg (s : State) (off : Nat) : Nat := mget 0 s.pf0 off

/-- A PF0 register set. -/
def State.setPf0 (s : State) (off v : Nat) : State := { s with pf0 := mset 0 s.pf0 off v }

/-- PF0 interrupt vector `v` raised: its INT_CAUSE bit is set (R373). -/
def State.interrupt (s : State) (v : Nat) : State :=
  (s.setPf0 0x44 (setBitOf (s.pf0Reg 0x44) v true)).emit (.interrupt 0 v)

/-- JOB_STATE set; a change raises vector 6 (R373). -/
def State.setJobState (s : State) (v : Nat) : State :=
  if s.job.st = v then s else { s with job := { s.job with st := v } }.interrupt 6

/-! Restarting a core (R161). -/

/-- The 32-bit word `i` of a core's image. -/
def CoreState.imageWord (k : CoreState) (i : Nat) : Nat := wd k.image i

/-- Instructions in the loaded code (R143, R159). -/
def CoreState.codeLen (k : CoreState) : Nat := k.imageWord 3 / 4

/-- The data section of an image (R159). -/
def imageData (img : List Byte) : List Byte := (img.drop (64 + wd img 3)).take (wd img 4)

/-- The scale entries of an image. -/
def imageScales (img : List Byte) : List Byte := (img.drop (64 + wd img 3 + wd img 4)).take (16 * wb img 5 0 9)

/-- The adapter entries of an image. -/
def imageAdapters (img : List Byte) : List Byte :=
  (img.drop (64 + wd img 3 + wd img 4 + 16 * wb img 5 0 9)).take (8 * wb img 5 9 7)

/-- Table image `i` of a stage-program image. -/
def imageTable (img : List Byte) (i : Nat) : List Byte :=
  (img.drop (64 + wd img 3 + wd img 4 + 16 * wb img 5 0 9 + 8 * wb img 5 9 7 + 6208 * i)).take 6208

/-- The scale and adapter tables as an image gives them, at 0xEE00 and 0xF000. -/
def imageTables (img : List Byte) : List Host.Cell := wrBytes (wrBytes [] 0xEE00 (imageAdapters img)) 0xF000 (imageScales img)

/-- A core restarted (R161): queues, finished tiles, banks and adapter buffers emptied; every control-core register
cleared; data reloaded from the image; the two tables as their copy holds them. The core is left idle. -/
def CoreState.restart (k : CoreState) : CoreState :=
  { k with
    run := .idle, regs := [], pc := BitVec.ofNat 16 (bits (k.imageWord 6) 0 16), vl := 0,
    sdm := wrBytes [] 0 (padTo 0xED00 (imageData k.image)) ++ (k.sdm.filter (fun c => 0xED00 ≤ c.1 && c.1 < 0xEE00)) ++ k.tableCopy,
    ftq := [], mxQ := .empty, vecQ := .empty, rowQ := .empty, tmQ := .empty, sendQ := .empty, recvQ := .empty,
    updQ := .empty, redIssued := 0, redErrs := [], drainHold := [], orderHold := [], ready := none,
    engines := k.engines.map (fun e => (e.1, { e.2 with bankA := .empty, bankB := .empty, replay := .empty, adapter := none })),
    oxbow := [], layers := [], item := none, doneSpan := false, waiting := .none, inflight := [], taken := 0 }

/-- A restarted core started at ENTRY with s1 holding a step number. -/
def CoreState.start (k : CoreState) (step : Nat) : CoreState :=
  if k.image = [] then k
  else { k with run := .running, pc := BitVec.ofNat 16 (bits (k.imageWord 6) 0 16) }.setReg 1 (BitVec.ofNat 64 step)

/-- Every core of the package restarted. -/
def State.restartCores (s : State) : State := { s with cores := s.cores.map (fun c => (c.1, c.2.restart)) }

/-! Events (R30, R309 to R312). -/

/-- The next event sequence number (R30): the epoch advances and is stored when the count would pass 0xFFFF_FFFF. -/
def State.nextSeq (s : State) : State :=
  if s.log.count = 0xFFFFFFFF then
    { s with
      log := { s.log with epoch := s.log.epoch + 1, count := 1 },
      nv := { s.nv with epoch := if s.nv.writable then s.log.epoch + 1 else s.nv.epoch } }
  else { s with log := { s.log with count := s.log.count + 1 } }

/-- The record put in the event log of 4,096 (R311). -/
def State.logRecord (s : State) (r : List Byte) : State :=
  if s.log.records.length < 4096 then { s with log := { s.log with records := s.log.records ++ [r] } }
  else { s with log := { s.log with records := s.log.records.drop 1 ++ [r] } }.addObj 0xB002 4 64 1

/-- The record written to the PF0 telemetry ring, or counted as a drop (R373). -/
def State.telemetry (s : State) (r : List Byte) : State :=
  let n := s.pf0Reg 0x28
  let head := s.pf0Reg 0x30
  if bitOf (s.pf0Reg 0x2C) 0 = false ∨ n = 0 then s
  else if (head + 1) % n = s.pf0Reg 0x34 % n then
    s.setPf0 0x38 (if s.pf0Reg 0x38 = 0xFFFFFFFF then 0xFFFFFFFF else s.pf0Reg 0x38 + 1)
  else
    let s' := (s.emit (.hostWrite (s.pf0Reg 0x20 + 32 * head) r)).setPf0 0x30 ((head + 1) % n)
    if head = s.pf0Reg 0x34 % n ∧ bitOf (s.pf0Reg 0x2C) 1 then s'.interrupt 1 else s'

/-- A NAP frame put behind its envelope on the way to a position (R279), or discarded where there is no way. -/
def State.sideband (s : State) (dest : Nat) (frame : List Byte) : State :=
  match s.route dest with
  | some n => s.queueOn n 2 (portRecord 1 (envelope dest s.position 0 ++ frame))
  | none => s

/-- Positions whose sessions subscribe to events and towards which there is no route. -/
def State.unrouted (s : State) : List Nat :=
  (s.nap.sessions.filterMap (fun (e : Nat × Session) => match e.2.isOpen, e.2.subscribe, e.2.carrier with
    | true, 1, .sideband q => if (s.route q).isNone then some q else none
    | _, _, _ => none)).eraseDups

/-- The NOTIFY frame of an event record (R282), which names EVENT_LOG. -/
def notifyFrame (session : Nat) (r : List Byte) (key : List Byte) : List Byte :=
  (NapFrame.mk 6 false false true false 0 session 0 0xB002 2 8 0 r.length 0 r).bytes key

/-- The record sent to every session on UDP or the sideband that subscribes (R282). -/
def State.notify (s : State) (r : List Byte) : State :=
  s.nap.sessions.foldl (fun (t : State) (e : Nat × Session) =>
    let x := e.2
    let id := x.gen * 32 + e.1
    match x.isOpen, x.subscribe, x.carrier with
    | true, 1, .udp a p => t.emit (.notify (.udp a p) id (notifyFrame id r (if x.authed then x.key.getD [] else [])))
    | true, 1, .sideband q =>
      let f := notifyFrame id r (if x.authed then x.key.getD [] else [])
      (t.sideband q f).emit (.notify (.sideband q) id f)
    | _, _, _ => t) s

/-- One event record (R310): numbered, logged, written to the telemetry ring, sent to subscribers, and vector 0 raised
for class FAULT, HALT or ALARM. -/
def State.recordOne (s : State) (e : Event) : State :=
  let s1 := s.nextSeq
  let r := e.record s1.log.epoch s1.log.count s.job.step s.position
  let s2 := ((s1.logRecord r).telemetry r).notify r
  if e.cls = .fault ∨ e.cls = .halt ∨ e.cls = .alarm then s2.interrupt 0 else s2

/-- The next record takes a new epoch, and the save store cannot take it (R30). -/
def State.epochUnstored (s : State) : Bool := s.log.count = 0xFFFFFFFF && !s.nv.writable

/-- An event recorded (R310). Where it begins an epoch that the save store cannot take, a save-store fault event follows (R30); and
its NOTIFY frames towards positions without a route are discarded, with a ROUTE_MISSING event for each (R216). -/
def State.record (s : State) (e : Event) : State :=
  let t := s.recordOne e
  let u := if s.epochUnstored then t.recordOne { code := 0x0507, cls := .degraded } else t
  s.unrouted.foldl (fun (v : State) (p : Nat) => v.recordOne { code := 0x0602, cls := .degraded, d0 := p }) u

/-- SAVE_STORE_WEAR (R322, assumption 158). -/
def State.wear (s : State) : Nat := Nat.min 100 (Config.storeWear s.nv.writes)

/-- The save store written once more; at 90 % of its endurance an event says so (R322). -/
def State.worn (s : State) : State :=
  let t := { s with nv := { s.nv with writes := s.nv.writes + 1 } }
  if s.wear < 90 ∧ 90 ≤ t.wear then t.record { code := 0x0508, cls := .degraded, d0 := t.wear } else t

/-- The input of the hub controller's event arbiter at which an event's source stands: the hub link of its die, or HD's own sources
(R22, R31). -/
def Event.input (e : Event) : Nat := if e.die < 8 then e.die else 16

/-- An event put among others of the same moment: all have lost no round yet, so the lower input goes first (R22). -/
def eventIns (e : Event) : List Event → List Event
  | [] => [e]
  | x :: l => if e.input < x.input then e :: x :: l else x :: eventIns e l

/-- Events of one moment recorded in the order in which the event arbiter serves them (R31). -/
def State.recordAll (s : State) (es : List Event) : State :=
  (es.foldl (fun (l : List Event) (e : Event) => eventIns e l) []).foldl (fun (t : State) (e : Event) => t.record e) s

/-! Commands to other positions (R231, R274). -/

/-- This package's position as group commit commands know it: the one that its staged job description gives it, where none is
committed (R295). -/
def State.groupPosition (s : State) : Nat :=
  if s.blob 0x4030 6 = [] ∧ s.weir.grouped ∧ (s.weir.bank.any (fun e => e.1 = objKey 0x4030 6)) then
    match s.weir.bank.find? (fun e => e.1 = objKey 0x4030 1) with
    | some (_, .scalar v) => v
    | _ => s.position
  else s.position

/-- One segment of a value written to an object of a position on SESSION 0 of the sideband, in this package's SEQ series for
that destination. A destination without a route is a ROUTE_MISSING event (R216); its own position comes back as a command. -/
def State.segment (s : State) (position index sub type offset total : Nat) (last : Bool) (value : List Byte) : State :=
  let seq := mget 0 s.nap.outSeq position
  let s1 := { s with nap := { s.nap with outSeq := mset 0 s.nap.outSeq position (bump 32 seq) } }
  let f := (NapFrame.mk 2 false false (last && type = 8) false 0 0 seq index sub type offset total 0 value).bytes []
  let own := if index = 0x4040 ∧ 0x16 ≤ sub then s.groupPosition else s.position
  let s2 := if position = own then s1 else match s1.route position with
    | some _ => s1.sideband position f
    | none => s1.record { code := 0x0602, cls := .degraded, d0 := position }
  s2.emit (.command position (s.obj 0x4035 3) seq index sub offset total value)

/-- A command that the package writes to an object of a position over the sideband, a BLOB in segments of 1,024 bytes. -/
def State.command (s : State) (position index sub : Nat) (value : List Byte) : State :=
  let type := match objRow index sub with
    | some r => r.ty.code
    | none => 8
  let cs := if value.isEmpty then [[]] else chunks value.length 1024 value
  (cs.zipIdx).foldl (fun (t : State) (c : List Byte × Nat) =>
    t.segment position index sub type (1024 * c.2) value.length (c.2 + 1 = cs.length) c.1) s

/-- A package that raises a self-lost fault leaves the job at once (R309). -/
def State.leaveJob (s : State) : State :=
  { s.restartCores with job := { s.job with left := true } }.setJobState 0

/-- The FAULT_REPORT value (R395). -/
def faultReportValue (attempt sender code lost : Nat) : List Byte :=
  wordsLE [attempt % 16 + sender * 2 ^ 16, code + lost * 2 ^ 16]

/-- An event with all that it brings about: the record, for class FAULT the FAULT_REPORT to the group master and, with it,
the self-lost effects (R309) and FAULT_N (R344). A package that has left its job reports no more. -/
def State.event (s : State) (e : Event) : State :=
  let s3 := s.record e
  let s4 := if e.selfLost then { s3 with power := { s3.power with faultN := true } } else s3
  if e.cls = .fault ∧ s.job.left = false then
    let s5 := s4.command s.master 0x4040 8
      (faultReportValue s.job.attempt s.position e.code (if e.selfLost then s.position else 0xFFFF))
    if e.selfLost then s5.leaveJob else s5
  else s4

/-- A background record sent towards a position by R216, or discarded with ROUTE_MISSING. -/
def State.emitBkg (s : State) (position type : Nat) (body : List Byte) : State :=
  let s1 := match s.route position with
    | some n => s.queueOn n 3 (portRecord type body)
    | none => s.record { code := 0x0602, cls := .degraded, d0 := position }
  s1.emit (.bkg position type body)

/-- A background record that leaves on a port of its own (R246). -/
def State.emitBkgOn (s : State) (n position type : Nat) (body : List Byte) : State :=
  (s.queueOn n 3 (portRecord type body)).emit (.bkg position type body)

/-! Errors of descriptors (R151, R152). -/

/-- The work queues by code (R143): 0 matrix, 1 vector, 2 row, 3 tile mover, 4 send, 5 receive, 6 update. -/
def CoreState.queue (k : CoreState) : Nat → Queue
  | 0 => k.mxQ
  | 1 => k.vecQ
  | 2 => k.rowQ
  | 3 => k.tmQ
  | 4 => k.sendQ
  | 5 => k.recvQ
  | _ => k.updQ

/-- A work queue replaced. -/
def CoreState.setQueue (k : CoreState) (q : Nat) (v : Queue) : CoreState :=
  match q with
  | 0 => { k with mxQ := v }
  | 1 => { k with vecQ := v }
  | 2 => { k with rowQ := v }
  | 3 => { k with tmQ := v }
  | 4 => { k with sendQ := v }
  | 5 => { k with recvQ := v }
  | _ => { k with updQ := v }

/-- Token codes of R152. -/
def tokNoObject : Nat := 0x02
/-- OUT_OF_RANGE. -/
def tokRange : Nat := 0x04
/-- ABSENT_UNIT. -/
def tokAbsent : Nat := 0x09
/-- CELL_FAULT. -/
def tokCellFault : Nat := 0x10
/-- DIE_ABSENT. -/
def tokDieAbsent : Nat := 0x11
/-- UNCORRECTABLE. -/
def tokUncorrectable : Nat := 0x12
/-- STREAM_FAULT. -/
def tokStreamFault : Nat := 0x14

/-- The DETAIL word of a refused field: the failing word and its lowest bit (R147). -/
def detailField (word bit : Nat) : Nat := word + bit * 256

/-- An error token logged, or counted in ERR_LOST when the log holds 16 (R152). -/
def State.token (s : State) (c : Nat) (tag q eng code detail : Nat) : State :=
  let k := s.core c
  if k.errLog.length < 16 then
    s.setCore c { k with errLog := k.errLog ++ [(tag + q * 2 ^ 16 + eng * 2 ^ 19 + code * 2 ^ 24, detail)] }
  else s.addObj 0x4013 c 32 1

/-- A descriptor taken out of its queue's waiting list. -/
def Queue.take (v : Queue) (n : Nat) : Queue := { v with waiting := v.waiting.filter (fun d => d.num ≠ n) }

/-- A descriptor retired without an error. -/
def CoreState.retire (k : CoreState) (q n : Nat) : CoreState :=
  let v := (k.queue q).take n
  (k.setQueue q { v with begun := v.begun.filter (fun x => x ≠ n) })

/-- A descriptor that has begun and left its queue, but has not retired. -/
def CoreState.begin (k : CoreState) (q n : Nat) : CoreState :=
  let v := (k.queue q).take n
  k.setQueue q { v with begun := v.begun ++ [n] }

/-- A descriptor retired with an error: its token logged and its code kept for WAIT (R151, R152). -/
def State.failDesc (s : State) (c q : Nat) (d : Desc) (code detail : Nat) : State :=
  let eng := if q = 0 then wb d.bytes 0 8 3 else 0
  let k := (s.core c).retire q d.num
  let k' := if d.rnum = 0 then k.setQueue q { k.queue q with errs := (k.queue q).errs ++ [⟨d.num, code, false⟩] }
    else { k with redErrs := k.redErrs ++ [⟨d.rnum, code, false⟩] }
  (s.setCore c k').token c (wb d.bytes 0 16 16) q eng code detail

/-- A descriptor retired without an error, in the state. -/
def State.okDesc (s : State) (c q : Nat) (d : Desc) : State := s.onCore c (fun k => k.retire q d.num)

end Sys2Proof.Machine
end

