-- ==== Sys2Proof/Machine/Alarm.lean ====
section
/-! DEFINITION. Alarms and keys of the security block (R358, R362 to R366): sensor trips, lock-out and erasure, the
authentication-failure run, and key creation. -/

namespace Sys2Proof.Machine

/-- A field of the option bytes in force (R342). -/
def State.obField (s : State) (w lo n : Nat) : Nat := wb s.ob w lo n

/-- The level that a sensor raises: 0 ALERT, 1 LOCK, 2 ERASE (R342). -/
def State.sensorLevel (s : State) (sensor : Nat) : Nat := Nat.min 2 (s.obField 15 (2 * sensor) 2)

/-- ALARM_LEVEL: 0 none, 1 ALERT, 2 LOCK, 3 ERASE. -/
def State.alarmLevel (s : State) : Nat := s.obj 0x9020 1

/-- Whether the event log accepts records: the hub controller has been released. -/
def State.logs (s : State) : Bool := s.power.phase = .run || s.power.phase = .release

/-- EVENT_SEQ: the sequence number of the newest record (R30). -/
def State.eventSeq (s : State) : Nat := s.log.epoch * 2 ^ 32 + s.log.count

/-- Whether a key slot holds a key (R358). -/
def State.hasKey (s : State) (slot : Nat) : Bool := s.sec.held.contains slot

/-- A slot's generation counter. -/
def State.keyGen (s : State) (slot : Nat) : Nat := mget 0 s.sec.keyGen slot

/-- A slot's generation advanced: 24 bits of a KEYREF. -/
def Security.nextGen (v : Security) (slot : Nat) : Security :=
  { v with keyGen := mset 0 v.keyGen slot ((mget 0 v.keyGen slot + 1) % 2 ^ 24) }

/-- A key created in one of slots 0 to 2. -/
def Security.create (v : Security) (slot : Nat) : Security := { v.nextGen slot with held := sIns v.held slot }

/-- The identity public key (R355): empty after an identity erase. -/
def State.identityKey (s : State) : List Byte := if s.hasKey 0 then Config.mldsaPublic 0 (s.keyGen 0) else []

/-- The manifest signing key's public half (R358). -/
def State.manifestKey (s : State) : List Byte := if s.hasKey 1 then Config.mldsaPublic 1 (s.keyGen 1) else []

/-- Slots that ERASE zeroises, but slot 0 (*Key inventory*). -/
def erasedSlots : List Nat := (List.range 8).map (fun i => i + 1) ++ (List.range 32).map (fun i => i + 16)

/-- Keys zeroised (*Erase timeline*, R364): slots 1 to 8 and 16 to 47, and slot 0 where the option byte says so; each slot's
generation advances. A session whose key is gone is no longer authenticated. -/
def State.eraseKeys (s : State) (identity : Bool) : State :=
  let v := erasedSlots.foldl Security.nextGen s.sec
  let v1 := if identity then v.nextGen 0 else v
  { s with
    sec := { v1 with held := if identity then [] else v.held.filter (fun k => k = 0) },
    ports := s.ports.map (fun (e : Nat × Port) => (e.1, { e.2 with key := [], auth := none })),
    nap := { s.nap with sessions := s.nap.sessions.map (fun (e : Nat × Session) =>
      (e.1, { e.2 with key := none, authed := false })) } }

/-- CKPT_DONE (R395) for the open cut, written towards the root (R258). -/
def State.cutResult (s : State) (step result : Nat) : State :=
  s.command s.master 0x4040 0x10 (wordsLE [step % 2 ^ 32, step / 2 ^ 32, s.position + result * 2 ^ 24])

/-- A cut that can no longer complete: it reports failure, once (R258, R364). The status code is the model's (assumption
22). -/
def State.failCut (s : State) : State :=
  match s.ckpt.cut with
  | some c => if c.done then s else
      { s with ckpt := { s.ckpt with cut := some { c with done := true } } }.cutResult c.step 7
  | none => s

/-- An alarm-log entry (R366). -/
def alarmEntry (s : State) (sensor level source : Nat) (identity : Bool) : List Byte :=
  wordsLE [sensor + level * 2 ^ 4 + b01 identity * 2 ^ 6 + source % 256 * 2 ^ 8, s.log.count, s.log.epoch, s.job.step % 2 ^ 32]

/-- An entry appended to the alarm log of 64. -/
def Security.log (v : Security) (e : List Byte) : Security :=
  { v with alarms := (if v.alarms.length < 64 then v.alarms else v.alarms.drop 1) ++ [e], count := v.count + 1 }

/-- An event recorded where the log accepts records. -/
def State.eventIf (s : State) (e : Event) : State := if s.logs then s.event e else s

/-- A sensor trips (R363, R364): the level rises at once, an entry and ALARM_RAISED are recorded, ERASE zeroises, and a level
that rises to LOCK or ERASE asserts ALARM_N and records ALARM_LOCKOUT, with which the package leaves its job. -/
def State.trip (s : State) (sensor source : Nat) : State :=
  let lvl := s.sensorLevel sensor
  let old := s.alarmLevel
  let new := Nat.max old (lvl + 1)
  let erase := lvl = 2
  let identity := erase && s.obField 15 16 1 = 1
  let s0 := s.setObj 0x9020 2 (setBitOf (s.obj 0x9020 2) sensor true)
  let s1 := if erase then (s0.eraseKeys identity).failCut else s0
  let s2 := { s1 with sec := { s1.sec.log (alarmEntry s sensor lvl source identity) with
    raised := s1.sec.raised ++ [(sensor, lvl)] } }.setObj 0x9020 1 new
  let s3 := if 2 ≤ new then { s2 with power := { s2.power with alarmN := true } } else s2
  let s4 := s3.eventIf { code := 0x0A03, cls := .alarm, die := 8, d0 := sensor + lvl * 2 ^ 4 }
  let s5 := if erase then s4.eventIf { code := 0x0A04, cls := .alarm, die := 8, d0 := b01 identity } else s4
  if old < new ∧ 2 ≤ new then s5.eventIf { code := 0x0A08, cls := .fault, selfLost := true, die := 8, d0 := new - 1 } else s5

/-- A failed authentication (R362): AUTH_FAIL_RUN rises, and at AUTH_FAIL_LIMIT the AUTH_FAIL sensor trips. The carrier is 1
UDP, 2 PF1 or 3 a port. -/
def State.authFailure (s : State) (carrier : Nat) : State :=
  let run := Nat.min 0xFFFF (s.obj 0x9020 4 + 1)
  let limit := s.obField 15 8 8
  let s1 := s.setObj 0x9020 4 run
  if limit ≠ 0 ∧ run = limit then s1.trip 3 carrier else s1

/-- A sensor no longer reads tripped (R364): a level of ALERT falls once no sensor that raised it does. -/
def State.untrip (s : State) (sensor : Nat) : State :=
  let t := if sensor < 4 then s.setObj 0x9020 2 (setBitOf (s.obj 0x9020 2) sensor false) else s
  if t.alarmLevel = 1 ∧ t.sec.raised.all (fun r => !bitOf (t.obj 0x9020 2) r.1) then
    { t with sec := { t.sec with raised := [] } }.setObj 0x9020 1 0
  else t

/-- A successful authentication on any carrier (R362): AUTH_FAIL_RUN returns to 0, with which the AUTH_FAIL sensor no longer reads
tripped. -/
def State.authSuccess (s : State) : State := (s.setObj 0x9020 4 0).untrip 3

/-- Reference-clock pairs by their place in *Reference clocks*, with the domains that each feeds (R384, R385). -/
def clockDomains : Nat → List Nat
  | 0 => (List.range 8).map (fun n => 0x20 + n) ++ (List.range 16).map (fun n => 0x30 + n)
  | 1 => [0]
  | 2 => [1, 2, 3]
  | 3 => [4, 5, 6]
  | 4 => (List.range 12).map (fun n => 8 + n)
  | 5 => [7]
  | _ => []

/-- A sensor is armed (*Alarm sensors*, R362). -/
def State.armed (s : State) (sensor source : Nat) : Bool :=
  match sensor with
  | 0 => true
  | 1 => s.power.phase ≠ .powerOn
  | 2 => (clockDomains source).any (fun d => s.power.locked.contains d)
  | _ => false

/-- ALARM_SENSOR_TRIP (R363): a sensor that is armed trips. AUTH_FAIL trips with the failure that reaches its limit. -/
def execAlarmSensorTrip (sensor source : Nat) (s : State) : Res :=
  .next (if s.armed sensor source then s.trip sensor source else s)

/-- ALARM_SENSOR_CLEAR (R364): a sensor no longer reads tripped; a level of ALERT falls once none that raised it does. -/
def execAlarmSensorClear (sensor : Nat) (s : State) : Res := .next (s.untrip sensor)

/-- The sensors re-read at step 2 of *Release order* (R364): with none tripped the level clears; else it is set again from
those that are, and acts again. -/
def State.rereadSensors (s : State) (tripped : List Nat) : State :=
  let s1 := { (s.setObj 0x9020 1 0).setObj 0x9020 2 0 with
    sec := { s.sec with raised := [] }, power := { s.power with alarmN := false } }
  (tripped.filter (fun k => k < 2 || (k = 2 && s.power.locked ≠ []))).foldl (fun (t : State) (k : Nat) => t.trip k 0) s1

end Sys2Proof.Machine
end

