-- ==== Sys2Proof/Machine/Nap.lean ====
section
/-! DEFINITION. The Nguvor Access Protocol (R265 to R283): sessions, the order of requests and of their outcomes, stored
responses, BLOB segments, and the answers to the three carriers. -/

namespace Sys2Proof

/-- Two carrier addresses are one: the same UDP source, the mailbox, or the same source position. -/
def Carrier.same : Carrier → Carrier → Bool
  | .udp a p, .udp b q => a = b && p = q
  | .pf1 _, .pf1 _ => true
  | .sideband p, .sideband q => p = q
  | _, _ => false

/-- The source position of a sideband request. -/
def NapReq.source (r : NapReq) : Option Nat := match r.carrier with
  | .sideband p => some p
  | _ => none

/-- A request of UDP. -/
def NapReq.isUdp (r : NapReq) : Bool := match r.carrier with
  | .udp _ _ => true
  | _ => false

/-- The UDP requests that never need authentication (R280). -/
def NapReq.open' (r : NapReq) : Bool :=
  r.opcode = 3 || r.opcode = 4 || (r.opcode = 1 && r.index = 0x2005 && (r.sub = 1 || r.sub = 3))
    || (r.opcode = 2 && r.index = 0x2005 && r.sub = 2)

/-- A session as it owns an assembly (R271): an open session by its SESSION, SESSION 0 by its sender. -/
def NapReq.who (r : NapReq) : Carrier := if r.session = 0 then r.carrier else .pf1 r.session

/-- Code of a carrier: 1 UDP, 2 PF1, 3 sideband. -/
def Carrier.code : Carrier → Nat
  | .udp _ _ => 1
  | .pf1 _ => 2
  | .sideband _ => 3

end Sys2Proof

namespace Sys2Proof.Machine

/-! Status codes (*NAP status codes*). -/

/-- NOT_OWNER. -/
def stNotOwner : Nat := 1
/-- NO_SUCH_OBJECT. -/
def stNoObject : Nat := 2
/-- TYPE_MISMATCH. -/
def stType : Nat := 3
/-- OUT_OF_RANGE. -/
def stRange : Nat := 4
/-- READ_ONLY. -/
def stReadOnly : Nat := 5
/-- STAGED_CONFLICT. -/
def stConflict : Nat := 6
/-- VALIDATE_FAILED. -/
def stInvalid : Nat := 7
/-- BUSY. -/
def stBusy : Nat := 8
/-- ABSENT_UNIT. -/
def stAbsent : Nat := 9
/-- LOCKED. -/
def stLocked : Nat := 10
/-- AUTH_REQUIRED. -/
def stAuth : Nat := 11

/-- Whether the package serves requests: the release order has ended (R340). -/
def State.serving (s : State) : Bool := s.power.phase = .run

/-- The outcome of a request: the state it leaves and what its response carries. -/
structure Reply where
  st      : State
  status  : Nat := 0
  detail  : Nat := 0
  value   : List Byte := []
  offset  : Nat := 0
  total   : Nat := 0
  last    : Bool := false
  /-- The SESSION that an OPEN gives. -/
  session : Option Nat := none
  /-- The object that an ENUM names: index, sub-index and type. -/
  object  : Option (Nat × Nat × Nat) := none
  /-- The answer comes later, with the claim window's close. -/
  later   : Bool := false
  /-- The response is kept for a repeat of the request (R274). -/
  keep    : Bool := true

/-- OK. -/
def Reply.ok (s : State) : Reply := { st := s }

/-- A refusal. -/
def Reply.no (s : State) (status detail : Nat) : Reply := { st := s, status := status, detail := detail }

/-- A scalar value. -/
def Reply.scalar (s : State) (bytes : List Byte) : Reply := { st := s, value := bytes, total := bytes.length }

/-! Sessions (R273). -/

/-- A session slot. -/
def State.slot (s : State) (k : Nat) : Session := mget .closed s.nap.sessions k

/-- A session slot set. -/
def State.setSlot (s : State) (k : Nat) (x : Session) : State :=
  { s with nap := { s.nap with sessions := mset .closed s.nap.sessions k x } }

/-- SESSION as R273 forms it. -/
def sessionId (slot gen : Nat) : Nat := gen * 32 + slot

/-- The slot of an open session that a request names from its own carrier address. -/
def State.sessionOf (s : State) (r : NapReq) : Option Nat :=
  let k := r.session % 32
  let x := s.slot k
  if r.session ≠ 0 ∧ x.isOpen ∧ x.gen = r.session / 32 ∧ x.carrier.same r.carrier then some k else none

/-- Open sessions. -/
def State.openCount (s : State) : Nat := (s.nap.sessions.filter (fun e => e.2.isOpen)).length

/-- OWNER_SESSION: 0 for none (R284). -/
def State.ownerSession (s : State) : Nat := match s.own.owner with
  | some o => o.session
  | none => 0

/-- The request comes from the owner's session. -/
def State.isOwner (s : State) (r : NapReq) : Bool := (s.sessionOf r).isSome && s.ownerSession = r.session

/-! Answers. -/

/-- Bytes written at the start of an area. -/
def overlay (new old : List Byte) : List Byte := new ++ old.drop new.length

/-- A response in the response area of a slot (R278). -/
def Mailbox.answered (m : Mailbox) (frame : List Byte) : Mailbox := { m with response := overlay frame m.response }

/-- A request in the request area, and its REQ_LEN (R278). -/
def Mailbox.asked (m : Mailbox) (len : Nat) (frame : List Byte) : Mailbox :=
  { m with request := overlay frame m.request, reqLen := len }

/-- A response frame sent to the carrier address of its request (R277 to R279): PF1 has RSP_LEN written and its completion
interrupt raised, unless a function-level reset has emptied the slot since (R373). On the sideband a response without a route is
discarded with ROUTE_MISSING (R216); one to this package's own position takes no port. -/
def State.respond (s : State) (c : Carrier) (frame : List Byte) : State :=
  match c with
  | .pf1 slot =>
    if mget 0xFFFFFFFF s.nap.rspLen slot = 0 then
      (({ s with nap := { s.nap with
          rspLen := mset 0xFFFFFFFF s.nap.rspLen slot frame.length,
          mailbox := mset Mailbox.empty s.nap.mailbox slot ((mget Mailbox.empty s.nap.mailbox slot).answered frame) } }).emit (.nap c frame)).emit
        (.interrupt 1 0)
    else s
  | .udp _ _ => s.emit (.nap c frame)
  | .sideband p =>
    (if p = s.position ∨ p = s.groupPosition ∨ (s.route p).isSome then s.sideband p frame
      else s.record { code := 0x0602, cls := .degraded, d0 := p }).emit (.nap c frame)

/-- The response frame of an outcome. -/
def respFrame (r : NapReq) (p : Reply) (key : List Byte) : List Byte :=
  let o := p.object.getD (r.index, r.sub, r.type)
  (NapFrame.mk r.opcode true false p.last false p.status (p.session.getD r.session) r.seq o.1 o.2.1 o.2.2 p.offset p.total
    p.detail p.value).bytes key

/-- A response kept among the last eight (R274). -/
def keep (l : List Stored) (x : Stored) : List Stored := (if l.length < 8 then l else l.drop 1) ++ [x]

/-- The newer of the newest SEQ seen and another (R29). -/
def newestOf (old : Option Nat) (seq : Nat) : Option Nat := match old with
  | some o => if newer 32 seq o then some seq else some o
  | none => some seq

/-- An outcome answered: counted if BUSY, kept for its session or its source position, and sent (R274). -/
def finish (r : NapReq) (p : Reply) (key : List Byte) (store : Bool) : State :=
  let t := p.st
  if p.later then t
  else
    let f := respFrame r p key
    let t1 := if p.status = stBusy then t.addObj 0xB200 3 64 1 else t
    let x := t1.slot (r.session % 32)
    let t2 :=
      if !store || !p.keep then t1
      else if r.session ≠ 0 then
        if x.isOpen ∧ x.gen = r.session / 32 then
          t1.setSlot (r.session % 32) { x with stored := keep x.stored ⟨r.seq, f⟩, newestSeq := newestOf x.newestSeq r.seq }
        else t1
      else match r.source with
        | some q =>
          let e := (mget none t1.nap.pos0 q).getD ⟨none, []⟩
          { t1 with nap := { t1.nap with
            pos0 := mset none t1.nap.pos0 q (some ⟨newestOf e.newestSeq r.seq, keep e.stored ⟨r.seq, f⟩⟩) } }
        | none => t1
    t2.respond r.carrier f

/-! What comes before an object's own outcome (R269, R273, R275, R280, R283). -/

/-- LOCKED (R283). -/
def State.isLocked (s : State) (r : NapReq) : Bool :=
  2 ≤ s.alarmLevel && !(s.isOwner r && (r.opcode = 1 || (r.opcode = 2 && r.index = 0xC002 && r.sub = 1)))

/-- AUTH_REQUIRED (R273, R280). -/
def State.needsAuth (s : State) (r : NapReq) : Bool :=
  (if r.session = 0 then
    !(r.opcode = 1 || r.opcode = 3 || r.opcode = 5
      || (r.opcode = 2 && r.index = 0x4040 && decide (1 ≤ r.sub) && decide (r.sub ≤ 0x18) && r.source.isSome))
  else (s.sessionOf r).isNone)
  || (r.isUdp && s.obField 6 3 1 = 1 && !r.open' && !(r.session ≠ 0 && (s.slot (r.session % 32)).authed))

/-- The first of outcomes 1 and 2 of R275 that applies. -/
def State.gate (s : State) (r : NapReq) : Option (Nat × Nat) :=
  if s.isLocked r then some (stLocked, s.alarmLevel)
  else if s.needsAuth r then some (stAuth, 0)
  else none

/-- Outcomes 3 to 6 of R275 for a READ or WRITE of an object. -/
def State.objGate (s : State) (r : NapReq) : Except (Nat × Nat) ObjRow :=
  match objRow r.index r.sub with
  | none => .error (stNoObject, 0)
  | some o =>
    let write := r.opcode = 2
    let scalar := o.ty ≠ .blob && o.ty ≠ .str
    if !o.present s.part r.index r.sub then .error (stAbsent, 0)
    else if r.type ≠ o.ty.code then .error (stType, o.ty.code)
    else if !write ∧ (o.acs = .command ∨ r.value ≠ []) then .error (stType, o.ty.code)
    else if write ∧ o.ty ≠ .blob ∧ (r.total ≠ r.value.length ∨ r.offset ≠ 0) then .error (stType, o.ty.code)
    else if write ∧ scalar ∧ r.value.length ≠ o.ty.size then .error (stType, o.ty.code)
    else if write ∧ o.acs = .ro then .error (stReadOnly, 0)
    else .ok o

/-- A write's object lies on a fenced die (R317). -/
def State.fenced (s : State) (o : ObjRow) (sub : Nat) : Bool :=
  match o.unit with
  | .core => s.obj 0x8010 (sub / 16) ≠ 0
  | .die => s.obj 0x8010 (sub % 16) ≠ 0
  | _ => false

/-! BLOB segments (R271). -/

/-- The assembly of an object. -/
def State.assembly (s : State) (key : Nat) : Option (Carrier × List Byte) :=
  (s.nap.assemblies.find? (fun a => a.1 = key)).map (fun (a : Nat × Carrier × List Byte) => a.2)

/-- The assemblies without one object's. -/
def State.dropAssembly (s : State) (key : Nat) : State :=
  { s with nap := { s.nap with assemblies := s.nap.assemblies.filter (fun a => a.1 ≠ key) } }

/-- What a segment makes of a value. -/
inductive Segment where
  | bad
  | part
  | whole (value : List Byte)
deriving DecidableEq, Repr

/-- What a session has assembled of an object's value, if it has an assembly in progress. -/
def State.assembled (s : State) (r : NapReq) : Option (List Byte) := match s.assembly (objKey r.index r.sub) with
  | some (c, b) => if c = r.who then some b else none
  | none => none

/-- One segment of a value taken: OFFSET 0 begins a new value in place of any session's, each later one continues the session's own,
LAST completes it within the object's limit (R271). -/
def State.takeSegment (s : State) (r : NapReq) (limit : Nat) : State × Segment :=
  let key := objKey r.index r.sub
  let s0 := s.dropAssembly key
  let before : Option (List Byte) := if r.offset = 0 then some [] else s.assembled r
  match before with
  | none => (s, .bad)
  | some b =>
    let v := b ++ r.value
    if b.length ≠ r.offset then (s0, .bad) else
    if r.last then (if v.length = r.total ∧ r.total ≤ limit then (s0, .whole v) else (s0, .bad))
    else ({ s0 with nap := { s0.nap with assemblies := s0.nap.assemblies ++ [(key, r.who, v)] } }, .part)

/-! Serving. -/

/-- The tag of a frame on an authenticated session is missing or wrong (R281). -/
def badTag (r : NapReq) (x : Session) : Bool :=
  x.authed && r.tag ≠ napTag (x.key.getD []) (frameOf r).body

/-- Where R275 ranks an outcome that may come before the object's own; 10 for every other. -/
def outcomeRank (status : Nat) : Nat :=
  if status = stNoObject then 3 else if status = stAbsent then 4 else if status = stType then 5 else if status = stReadOnly then 6
  else if status = stNotOwner then 7 else if status = stBusy then 8 else 10

/-- The answer to a request that is not executed: the first outcome of R275 that applies, `status` among them. `p` is what its
execution would have answered. -/
def State.refusal (s : State) (r : NapReq) (p : Reply) (rank status detail : Nat) : Reply :=
  match s.gate r with
  | some e => .no s e.1 e.2
  | none => if outcomeRank p.status < rank then .no s p.status p.detail else .no s status detail

/-- SEQ numbers of one series (R274): the stored responses and the newest SEQ seen, if there are any; the response that a repeat
has sent again, LOCKED first (R283); a SEQ older than all eight refused. -/
def State.inOrder (s : State) (r : NapReq) (stored : List Stored) (newest : Option Nat) (key : List Byte) (act : State → Reply) :
    State :=
  let s1 := s.addObj 0xB200 1 64 1
  match stored.find? (fun e => e.seq = r.seq) with
  | some e => if s.isLocked r then finish r (.no s stLocked s.alarmLevel) key false else s.respond r.carrier (retag key e.frame)
  | none =>
    if stored.length = 8 ∧ stored.all (fun e => newer 32 e.seq r.seq) then
      finish r (s.refusal r (act s1) 9 stRange (newest.getD 0)) key false
    else finish r (act s1) key true

/-- A request executed whole (R274, R275, R281): its tag, a stored response sent again, a stale SEQ, then `act`, whose
outcome is kept and sent. -/
def State.handle (s : State) (r : NapReq) (act : State → Reply) : State :=
  let s1 := s.addObj 0xB200 1 64 1
  match s.sessionOf r with
  | some k =>
    let x := s.slot k
    if badTag r x then (s.addObj 0xB200 5 32 1).authFailure r.carrier.code
    else s.inOrder r x.stored x.newestSeq (if x.authed then x.key.getD [] else []) act
  | none =>
    match r.session, r.opcode, r.source with
    | 0, 2, some q =>
      match mget none s.nap.pos0 q with
      | none =>
        if 256 ≤ s.nap.pos0.length then finish r (s.refusal r (act s1) 8 stBusy 0) [] false
        else finish r (act s1) [] true
      | some e => s.inOrder r e.stored e.newestSeq [] act
    | _, _, _ => finish r (act s1) [] false

/-- A request that reaches an empty queue from its carrier: PF1 marks the slot busy, unless it is (R278). -/
def State.arrive (s : State) (r : NapReq) : Option State :=
  match r.carrier with
  | .pf1 slot =>
    if mget 0xFFFFFFFF s.nap.rspLen slot = 0 then none
    else some { s with nap := { s.nap with rspLen := mset 0xFFFFFFFF s.nap.rspLen slot 0 } }
  | _ => some s

/-- A request served: the one at the front of the queue, or one that arrives while the queue is empty (assumption 23). -/
def State.serve (s : State) (r : NapReq) (act : State → Reply) : State :=
  if !s.serving then s
  else match s.nap.queue with
    | [] => match s.arrive r with
      | some t => t.handle r act
      | none => s.addObj 0xB200 4 32 1
    | q :: rest => if q = r then { s with nap := { s.nap with queue := rest } }.handle r act else s

/-- The outcome of a request behind the gate of R275. -/
def State.gated (s : State) (r : NapReq) (act : State → Reply) : Reply :=
  match s.gate r with
  | some e => .no s e.1 e.2
  | none => act s

/-- The longest value that an object of BLOB type takes in a command (R271, R268). -/
def blobLimit : Nat := 4194304

/-- A write of a WO-command object: the gates, its writer, its segments, then its action on the whole value. -/
def commandReply (r : NapReq) (limit : Nat) (who : State → NapReq → Bool) (act : State → NapReq → List Byte → Reply)
    (s : State) : Reply :=
  s.gated r (fun s =>
    match s.objGate r with
    | .error e => .no s e.1 e.2
    | .ok o =>
      if !who s r then .no s stNotOwner s.ownerSession
      else if o.ty ≠ .blob then act s r r.value
      else match s.takeSegment r limit with
        | (t, .bad) => .no t stRange 0
        | (t, .part) => .ok t
        | (t, .whole v) => act t r v)

/-- A command row: a WRITE of its object. A request for another object is not this command. -/
def State.serveCommand (s : State) (index sub : Nat) (r : NapReq) (reply : State → Reply) : Res :=
  .next (if r.opcode = 2 ∧ r.index = index ∧ r.sub = sub then s.serve r reply else s)

/-- The owner alone writes the object (R266). -/
def byOwner (s : State) (r : NapReq) : Bool := s.isOwner r

/-- Any session writes the object. -/
def byAny (_ : State) (_ : NapReq) : Bool := true

/-- An action whose object takes only the value 1 (R266); BUSY comes before the range (R275). -/
def writeOne (act : State → Reply) (s : State) (_ : NapReq) (v : List Byte) : Reply :=
  let p := act s
  if leNat v = 1 then p else .no s (if p.status = stBusy then stBusy else stRange) 0

/-! Arrivals (R270, R275 to R278). -/

/-- A request frame that arrives on a carrier: into the queue of 64, answered BUSY when it is full, or answered or dropped by
R270. -/
def State.enqueue (s : State) (c : Carrier) (bytes : List Byte) : State :=
  match parseReq c bytes with
  | none => match c with
    | .udp _ _ => s.addObj 0xB200 2 64 1
    | _ => s.respond c (malformedAnswer bytes)
  | some r =>
    if 64 ≤ s.nap.queue.length then
      let key := match s.sessionOf r with
        | some k => if (s.slot k).authed then (s.slot k).key.getD [] else []
        | none => []
      finish r (.no s stBusy 0) key false
    else { s with nap := { s.nap with queue := s.nap.queue ++ [r] } }

/-- MAILBOX_REQ_LEN (R278): a REQ_LEN write of a slot that is not busy queues the frame in its request area, which `frame` is what the
host has written of. -/
def execMailboxReqLen (slot len : Nat) (frame : List Byte) (s : State) : Res :=
  if !s.serving ∨ 16 ≤ slot then .next s
  else if mget 0xFFFFFFFF s.nap.rspLen slot = 0 then .next (s.addObj 0xB200 4 32 1)
  else
    let m := (mget Mailbox.empty s.nap.mailbox slot).asked len frame
    let s1 := { s with nap := { s.nap with
      rspLen := mset 0xFFFFFFFF s.nap.rspLen slot 0,
      mailbox := mset Mailbox.empty s.nap.mailbox slot m } }
    if len < 36 ∨ 1076 < len then .next (s1.respond (.pf1 slot) (malformedAnswer (padTo 36 m.request)))
    else .next (s1.enqueue (.pf1 slot) (padTo len (m.request.take len)))

end Sys2Proof.Machine
end

