-- ==== Sys2Proof/Machine/Owner.lean ====
section
/-! DEFINITION. Sessions opened and closed, authentication and ownership (R273, R280, R284 to R289). -/

namespace Sys2Proof.Machine

/-! Ownership (R284 to R289). -/

/-- OWNER_EPOCH (R289). -/
def State.ownerEpoch (s : State) : Nat := fld s.nv.owner 0 4

/-- The ownership record of R289, 48 bytes. -/
def ownerRecord (epoch : Nat) (o : Option Owner) : List Byte :=
  match o with
  | some o => padTo 48 (leBytes 4 epoch ++ leBytes 1 o.carrier ++ leBytes 1 o.priority ++ leBytes 2 o.session ++ padTo 32 o.keyId)
  | none => padTo 48 (leBytes 4 epoch)

/-- The owner changes, to none included: OWNER_EPOCH advances, the record is written, and an offer ends (R288, R289). -/
def State.setOwner (s : State) (o : Option Owner) : State :=
  { s with
    own := { s.own with owner := o, offer := none },
    nv := { s.nv with owner := ownerRecord ((s.ownerEpoch + 1) % 2 ^ 32) o } }

/-- What a lapse does to the staged values (R286): an ARMED or PENDING bank proceeds, anything else is discarded. -/
def Weir.lapse (w : Weir) : Weir :=
  match w.st with
  | .armed => { w with orphan := true }
  | .pending => { w with orphan := true }
  | _ => { w.drop with st := .empty, arming := false }

/-- Ownership lapses (R286). -/
def State.lapse (s : State) : State :=
  let s1 := s.event { code := 0x0801, cls := .note, d0 := s.ownerEpoch }
  { s1.setOwner none with weir := s1.weir.lapse }

/-- A session closes (R273): its key, subscription, assemblies and claims end, an offer to it too, and an owner's session
takes ownership with it. -/
def State.closeSlot (s : State) (k : Nat) : State :=
  let x := s.slot k
  if x.isOpen then
    let id := sessionId k x.gen
    let s1 := s.setSlot k { Session.closed with gen := x.gen }
    let s2 := { s1 with
      nap := { s1.nap with assemblies := s1.nap.assemblies.filter (fun (a : Nat × Carrier × List Byte) => a.2.1 ≠ .pf1 id) },
      own := { s1.own with
        window := s1.own.window.map (fun (l : List Claim) => l.filter (fun c => c.session ≠ id)),
        offer := if s1.own.offer = some id then none else s1.own.offer } }
    if s.ownerSession = id then s2.lapse else s2
  else s

/-- OPEN (R273): the lowest free slot, in its next generation; BUSY with 32 sessions open. -/
def openReply (r : NapReq) (s : State) : Reply :=
  s.gated r (fun s =>
    match firstBelow 32 (fun k => !(s.slot k).isOpen) with
    | none => .no s stBusy 0
    | some k =>
      let g := (s.slot k).gen % 2047 + 1
      { Reply.ok (s.setSlot k { Session.closed with isOpen := true, gen := g, carrier := r.carrier }) with
        session := some (sessionId k g) })

/-- OPEN (R273). -/
def execOpenSession (r : NapReq) (s : State) : Res := .next (if r.opcode = 3 then s.serve r (openReply r) else s)

/-- CLOSE (R273). The session named ends after the answer is formed; nothing is kept for it. -/
def closeReply (r : NapReq) (s : State) : Reply :=
  s.gated r (fun s => match s.sessionOf r with
    | some k => .ok (s.closeSlot k)
    | none => .no s stAuth 0)

/-- CLOSE (R273). -/
def execCloseSession (r : NapReq) (s : State) : Res := .next (if r.opcode = 4 then s.serve r (closeReply r) else s)

/-- SESSION_TIMEOUT (R273): a session from which no request has come for 60 s nominal closes. -/
def execSessionTimeout (slot : Nat) (s : State) : Res := .next (if slot < 32 then s.closeSlot slot else s)

/-- The key ID of an authenticated session: 32 zero bytes for none. -/
def State.keyIdOf (s : State) (r : NapReq) : List Byte :=
  let x := s.slot (r.session % 32)
  if x.authed then x.keyId else List.replicate 32 0

/-- The owner that a request's session becomes. -/
def State.asOwner (s : State) (r : NapReq) (priority : Nat) : Owner := ⟨r.session, r.carrier.code, priority, s.keyIdOf r⟩

/-- OWNER_CLAIM's action (R284, R287). An override by the owner itself renews its lease at PRIORITY 255 with the event; there is no
other owner whose staged values would go (assumption 181). -/
def claimAct (s : State) (r : NapReq) (v : List Byte) : Reply :=
  let prio := fld v 0 1
  let nonce := fld v 1 7
  let override := { code := 0x0802, cls := .note, d0 := s.ownerEpoch : Event }
  if prio = 255 ∧ r.isUdp ∧ !(s.slot (r.session % 32)).authed then .no s stAuth 0
  else if s.isOwner r then
    let o := s.own.owner.map (fun (o : Owner) => { o with priority := prio })
    let s1 := if prio = 255 then s.event override else s
    .ok { s1 with own := { s1.own with owner := o }, nv := { s1.nv with owner := ownerRecord s.ownerEpoch o } }
  else if prio = 255 then
    let s1 := s.event override
    .ok ({ s1 with weir := s1.weir.lapse }.setOwner (some (s.asOwner r 255)))
  else if s.own.owner.isSome then .no s stNotOwner s.ownerSession
  else
    let l := (s.own.window.getD []).filter (fun c => !(c.session = r.session && c.req.seq = r.seq))
    { Reply.ok { s with own := { s.own with window := some (l ++ [⟨r, r.session, prio, nonce⟩]) } } with later := true }

/-- OWNER_CLAIM (R284). -/
def execOwnerClaim (r : NapReq) (s : State) : Res :=
  s.serveCommand 0x2001 1 r (commandReply r blobLimit byAny claimAct)

/-- One claim beats another: by PRIORITY, then by NONCE (R284). -/
def Claim.beats (a b : Claim) : Bool := b.priority < a.priority || (a.priority = b.priority && b.nonce < a.nonce)

/-- The claims that compete: each session's last (R284). -/
def competing : List Claim → List Claim
  | [] => []
  | c :: l => if l.any (fun d => d.session = c.session) then competing l else c :: competing l

/-- A claim answered at the window's close. -/
def State.answerClaim (s : State) (c : Claim) (status detail : Nat) : State :=
  let x := s.slot (c.session % 32)
  finish c.req (.no s status detail) (if x.authed then x.key.getD [] else []) true

/-- CLAIM_WINDOW_CLOSE (R284): the highest PRIORITY wins, then the highest NONCE; a tie that nothing beats gives no owner. -/
def execClaimWindowClose (s : State) : Res :=
  match s.own.window with
  | none => .next s
  | some all =>
    let s0 := { s with own := { s.own with window := none } }
    let live := competing all
    let best := live.filter (fun c => live.all (fun d => !d.beats c))
    match s.own.owner, best with
    | none, [w] =>
      let s1 := s0.setOwner (some (s0.asOwner w.req w.priority))
      .next (all.foldl (fun (t : State) (c : Claim) =>
        if c = w then t.answerClaim c 0 0 else t.answerClaim c stNotOwner t.ownerSession) s1)
    | none, _ :: _ :: _ => .next (all.foldl (fun (t : State) (c : Claim) => t.answerClaim c stBusy 0) s0)
    | _, _ => .next (all.foldl (fun (t : State) (c : Claim) => t.answerClaim c stNotOwner t.ownerSession) s0)

/-- LEASE_EXPIRE (R285): the owner's lease ends. -/
def execLeaseExpire (s : State) : Res := .next (if s.own.owner.isSome then s.lapse else s)

/-- OWNER_HEARTBEAT (R285): the write itself renews the lease. -/
def execOwnerHeartbeat (r : NapReq) (s : State) : Res :=
  s.serveCommand 0x2001 2 r (commandReply r blobLimit byOwner (fun s _ _ => .ok s))

/-- OWNER_RELEASE (R286). -/
def execOwnerRelease (r : NapReq) (s : State) : Res :=
  s.serveCommand 0x2001 3 r (commandReply r blobLimit byOwner (writeOne (fun s => .ok s.lapse)))

/-- OWNER_OFFER's action (R288). -/
def offerAct (s : State) (_ : NapReq) (v : List Byte) : Reply :=
  .ok { s with own := { s.own with offer := if leNat v = 0 then none else some (leNat v) } }

/-- OWNER_OFFER (R288). -/
def execOwnerOffer (r : NapReq) (s : State) : Res :=
  s.serveCommand 0x2001 4 r (commandReply r blobLimit byOwner offerAct)

/-- OFFER_EXPIRE (R288): an offer ends after 2 s nominal. -/
def execOfferExpire (s : State) : Res := .next { s with own := { s.own with offer := none } }

/-- The session to which ownership is offered. -/
def byOffered (s : State) (r : NapReq) : Bool := s.own.owner.isSome && s.own.offer = some r.session

/-- OWNER_ACCEPT's action (R288): the old owner's PRIORITY, a fresh lease, and the Weir as it stands. -/
def acceptAct (s : State) (r : NapReq) (v : List Byte) : Reply :=
  if leNat v ≠ s.ownerEpoch then .no s stRange 0
  else match s.own.owner with
    | some o => .ok (s.setOwner (some (s.asOwner r o.priority)))
    | none => .no s stNotOwner 0

/-- OWNER_ACCEPT (R288). -/
def execOwnerAccept (r : NapReq) (s : State) : Res :=
  s.serveCommand 0x2001 5 r (commandReply r blobLimit byOffered acceptAct)

/-! Authentication (R280). -/

/-- `n` bytes of fresh entropy, conditioned by the block. -/
def State.entropy (s : State) (n : Nat) : List Byte × State :=
  ((List.range n).map (fun i => Config.entropy s.free i), { s with free := s.free + 1 })

/-- The segment of a BLOB value that a READ returns (R269, R272). -/
def blobReply (s : State) (r : NapReq) (v : List Byte) (version : Nat) : Reply :=
  if v.length < r.offset then .no s stRange 0
  else
    let seg := (v.drop r.offset).take 1024
    { st := s, detail := version, value := seg, offset := r.offset, total := v.length, last := v.length ≤ r.offset + seg.length }

/-- The READ of AUTH_CHALLENGE (R280 step 2): at OFFSET 0 a fresh nonce, then the digest of the identity public key. -/
def challengeReply (r : NapReq) (s : State) : Reply :=
  let key := objKey 0x2005 1
  let d := sha3 s.identityKey
  match s.sessionOf r with
  | none =>
    let e := s.entropy 32
    blobReply e.2 r (e.1 ++ d) (mget 0 s.blobVer key)
  | some k =>
    if r.offset = 0 then
      let e := s.entropy 32
      let s1 := (e.2.setSlot k { e.2.slot k with nonce := some e.1 }).bumpBlob key
      blobReply s1 r (e.1 ++ d) (mget 0 s1.blobVer key)
    else blobReply s r (((s.slot k).nonce.getD (List.replicate 32 0)) ++ d) (mget 0 s.blobVer key)

/-- A READ of AUTH_CHALLENGE behind its gates. -/
def authChallengeReply (r : NapReq) (s : State) : Reply :=
  s.gated r (fun s => match s.objGate r with
    | .error e => .no s e.1 e.2
    | .ok _ => challengeReply r s)

/-- AUTH_CHALLENGE (R280). -/
def execAuthChallenge (r : NapReq) (s : State) : Res :=
  .next (if r.opcode = 1 ∧ r.index = 0x2005 ∧ r.sub = 1 then s.serve r (authChallengeReply r) else s)

/-- Any session on UDP writes the object. -/
def byUdp (_ : State) (r : NapReq) : Bool := r.isUdp

/-- The trusted master's public key for a key ID (R360). -/
def State.trustedMaster (s : State) (id : List Byte) : Option (List Byte) :=
  ((List.range 16).find? (fun k => (s.blob 0x9010 k).length = 1344 && (s.blob 0x9010 k).take 32 = id)).map
    (fun (k : Nat) => (s.blob 0x9010 k).drop 32)

/-- AUTH_RESPONSE's action (R280 step 4). -/
def authResponseAct (s : State) (r : NapReq) (v : List Byte) : Reply :=
  let k := r.session % 32
  let x := s.slot k
  let encap := (v.drop 32).take 1184
  let sess := leBytes 2 r.session
  let n := x.nonce.getD []
  let good := match s.trustedMaster (v.take 32) with
    | some pk => x.nonce.isSome && s.hasKey 0 && Config.mldsaVerify pk (n ++ sess ++ encap) (v.drop 1216)
    | none => false
  let used := s.setSlot k { x with nonce := none }
  if v.length ≠ 3636 then .no s stRange 0
  else if good then
    let e := Config.mlkemEncaps encap s.free
    let ct := padTo 1088 e.1
    let result := ct ++ padTo 2420 (Config.mldsaSign 0 (s.keyGen 0) (n ++ sess ++ ct))
    let s1 := ({ used with free := s.free + 1, sec := s.sec.nextGen (16 + k) }).authSuccess
    let y := { x with nonce := none, key := some (padTo 32 e.2), keyId := v.take 32, authed := false, result := result }
    .ok ((s1.setSlot k y).bumpBlob (objKey 0x2005 3))
  else .no ((used.addObj 0xB200 5 32 1).authFailure 1) stAuth 0

/-- AUTH_RESPONSE (R280). -/
def execAuthResponse (r : NapReq) (s : State) : Res :=
  s.serveCommand 0x2005 2 r (commandReply r 3636 byUdp authResponseAct)

/-- A READ of AUTH_RESULT: the reading session's; with its last segment the session is authenticated from its next request
(R280 step 5). -/
def authResultReply (r : NapReq) (s : State) : Reply :=
  match s.sessionOf r with
  | none => blobReply s r [] (mget 0 s.blobVer (objKey 0x2005 3))
  | some k =>
    let x := s.slot k
    let p := blobReply s r x.result (mget 0 s.blobVer (objKey 0x2005 3))
    if p.status = 0 ∧ p.last ∧ x.key.isSome then { p with st := s.setSlot k { x with authed := true } } else p

/-! Ports going down (R273, R379). -/

/-- The sideband sessions a port carries close (R273). DEDUCED (log 138): the port that carries a session is the one this package's
route to the session's position names. -/
def State.closeSideband (s : State) (n : Nat) : State :=
  (List.range 32).foldl (fun (t : State) (k : Nat) => match (t.slot k).carrier with
    | .sideband p => if s.route p = some n then t.closeSlot k else t
    | _ => t) s

/-- A port down (R379, R380): what it has not delivered stays for the replay, and its sideband sessions close (R273). -/
def State.portDown (s : State) (n st : Nat) : State :=
  let t := ((s.closeSideband n).setObj 0x7002 n st).setObj 0x7003 n 0
  t.setPort n { t.port n with auth := none }

end Sys2Proof.Machine
end

