-- ==== Sys2Proof/Machine/Operands.lean ====
section
/-! DEFINITION. The operand forms of the control core's instructions (R142, R143): when a core can execute one, register
and sign-extended immediate operands, the branch target, scalar-memory addresses with their checks, and PROGRAM_FAULT. -/

namespace Sys2Proof.Machine

/-- A core executes an instruction: it is on the part, it runs, and it waits for nothing. -/
def State.runs (s : State) (c : Nat) : Bool :=
  s.part.hasCore c && (s.core c).run = .running && (s.core c).waiting = .none

/-- The causes that R143 lists, as arguments of the free reason code. -/
def causeReserved : Nat := 1
/-- The PC passes the last instruction. -/
def causePc : Nat := 2
/-- A misaligned or overrunning scalar-memory access. -/
def causeMemory : Nat := 3
/-- A descriptor address that is not a multiple of 16. -/
def causeDesc : Nat := 4
/-- A structure rule broken. -/
def causeStructure : Nat := 5
/-- SETVL above 4,096. -/
def causeVl : Nat := 6

/-- A PROGRAM_FAULT (R143): the core is FAULTED, and the event carries the PC and a reason code. -/
def State.programFault (s : State) (c cause : Nat) : State :=
  let k := s.core c
  (s.setCore c { k with run := .faulted, waiting := .none }).event
    (Event.at { code := 0x010B, cls := .fault, d0 := k.pc.toNat + (Config.faultReason cause).toNat * 2 ^ 16 } c)

/-- The PC set to an instruction index; an index outside the loaded code is a PROGRAM_FAULT (R143). -/
def State.jump (s : State) (c : Nat) (target : Int) : State :=
  let k := s.core c
  if 0 ≤ target ∧ target < k.codeLen then s.setCore c { k with pc := BitVec.ofInt 16 target }
  else (s.setCore c { k with pc := BitVec.ofInt 16 target }).programFault c causePc

/-- The PC moved to the next instruction. -/
def State.advance (s : State) (c : Nat) : State := s.jump c ((s.core c).pc.toNat + 1)

/-- A register written, then the PC advanced. -/
def State.writeAdvance (s : State) (c : Nat) (rd : Reg) (v : Word64) : State :=
  (s.onCore c (fun k => k.setReg rd v)).advance c

/-- IMM12 sign-extended to 64 bits (R143). -/
def immW (imm : BitVec 12) : Word64 := imm.signExtend 64

/-- An instruction of the ALU class: RD receives a function of s[RA] and s[RB]. -/
def aluReg (f : Word64 → Word64 → Word64) (c : Nat) (rd ra rb : Reg) (s : State) : Res :=
  if s.runs c then .next (s.writeAdvance c rd (f ((s.core c).reg ra) ((s.core c).reg rb))) else .next s

/-- An instruction of the ALUI class: RD receives a function of s[RA] and the sign-extended immediate. -/
def aluImm (f : Word64 → Word64 → Word64) (c : Nat) (rd ra : Reg) (imm : BitVec 12) (s : State) : Res :=
  if s.runs c then .next (s.writeAdvance c rd (f ((s.core c).reg ra) (immW imm))) else .next s

/-- An F form: FP32 in bits [31:0], bits [63:32] of the result 0 (R118, R143). -/
def fpOp (f : Nat → Nat → Nat) (a b : Word64) : Word64 :=
  BitVec.ofNat 64 (f (a.toNat % 2 ^ 32) (b.toNat % 2 ^ 32))

/-- The shift amount: bits [5:0] of the second operand (R143). -/
def shamt (b : Word64) : Nat := b.toNat % 64

/-- The address of a MEM instruction: s[RA] plus the sign-extended IMM14. -/
def memAddr (k : CoreState) (ra : Reg) (imm : BitVec 14) : Word64 := k.reg ra + imm.signExtend 64

/-- A scalar-memory access of `n` bytes is aligned and ends at or below 0xFFFF (R143). -/
def memOk (a : Word64) (n : Nat) : Bool := a.toNat % n = 0 && a.toNat + n ≤ 0x10000

/-- The address that a branch goes to: its own PC plus the signed offset. -/
def brTarget (k : CoreState) (offset : BitVec 14) : Int := k.pc.toNat + offset.toInt

/-- A conditional branch (R143). -/
def branchIf (p : Word64 → Word64 → Bool) (c : Nat) (ra rb : Reg) (offset : BitVec 14) (s : State) : Res :=
  if s.runs c then
    let k := s.core c
    if p (k.reg ra) (k.reg rb) then .next (s.jump c (brTarget k offset)) else .next (s.advance c)
  else .next s

/-- A load of `n` bytes, zero-extended into RD (R143). -/
def loadN (n c : Nat) (rd ra : Reg) (imm : BitVec 14) (s : State) : Res :=
  if s.runs c then
    let k := s.core c
    let a := memAddr k ra imm
    if memOk a n then .next (s.writeAdvance c rd (BitVec.ofNat 64 (leNat (k.sdmRead a.toNat n))))
    else .next (s.programFault c causeMemory)
  else .next s

/-- A scale-table entry that R143 accepts: SCALE by R75, FORMAT by R68, RESIDUAL by R87, SCALED by R397, reserved bits 0. -/
def scaleEntryOk (e : List Byte) : Bool :=
  (streamExp (wd e 0)).isSome && elemFormat (wb e 3 0 4) && (wb e 3 11 1 = 0 || wb e 3 0 4 = 0)
    && (wb e 3 16 1 = 0 || wb e 3 0 4 ≠ 0) && wb e 3 17 15 = 0

/-- An adapter-table entry that R143 accepts: RANK at most 256 and a multiple of 16, U_FORMAT an element format other
than FP32, reserved bits 0. -/
def adapterEntryOk (e : List Byte) : Bool :=
  wb e 0 0 9 ≤ 256 && wb e 0 0 9 % 16 = 0 && elemFormat (wb e 0 12 4) && wb e 0 12 4 ≠ 0 && wb e 0 9 3 = 0
    && wb e 0 28 4 = 0 && wb e 1 12 20 = 0

/-- A program's store into scalar data memory. A store into a table entry is judged on the whole entry as it would leave
it, and one that fails leaves the entry unchanged (R143). -/
def CoreState.programStore (k : CoreState) (a : Nat) (bs : List Byte) : CoreState :=
  let k' := k.sdmWrite a bs
  if 0xF000 ≤ a then
    if scaleEntryOk (k'.sdmRead (a - a % 16) 16) then k' else k
  else if 0xEE00 ≤ a then
    if adapterEntryOk (k'.sdmRead (a - a % 8) 8) then k' else k
  else k'

/-- Bytes that a queue's unit writes into scalar data memory, cut where a table entry ends, so that each entry is judged
as a store judges it (R75, R143). -/
def CoreState.tableWrites (k : CoreState) : Nat → Nat → List Byte → CoreState
  | 0, _, _ => k
  | fuel + 1, a, bs =>
    if bs = [] then k
    else
      let n := if 0xF000 ≤ a then 16 - a % 16 else if 0xEE00 ≤ a then 8 - a % 8 else 0xEE00 - a
      (k.programStore a (bs.take n)).tableWrites fuel (a + n) (bs.drop n)

/-- A write of scalar data memory by a queue's unit. -/
def CoreState.tableWrite (k : CoreState) (a : Nat) (bs : List Byte) : CoreState := k.tableWrites (bs.length + 1) a bs

/-- A store of the low `n` bytes of a register (R143). -/
def storeN (n c : Nat) (rs ra : Reg) (imm : BitVec 14) (s : State) : Res :=
  if s.runs c then
    let k := s.core c
    let a := memAddr k ra imm
    if memOk a n then
      .next ((s.setCore c (k.programStore a.toNat (leBytes n (k.reg rs).toNat))).advance c)
    else .next (s.programFault c causeMemory)
  else .next s

end Sys2Proof.Machine
end

