-- ==== Sys2Proof/Machine/Flags.lean ====
section
/-! DEFINITION. The flags, marks and counters that a store or a reduction leaves: scale-table entries (R76 to R79),
summary registers (R121 to R123) and the step non-finite bit (R124). -/

namespace Sys2Proof.Machine

/-- The 16 bytes of scale-table entry `e` (R76). -/
def CoreState.scaleEntry (k : CoreState) (e : Nat) : List Byte := k.sdmRead (0xF000 + 16 * e) 16

/-- What a store descriptor latches from a scale-table entry (R78). -/
def CoreState.latch (k : CoreState) (e : Nat) : Latch :=
  let b := k.scaleEntry e
  { entry := e, scale := wd b 0, format := wb b 3 0 4, sr := wb b 3 4 1 = 1, headroom := wb b 3 7 4,
    blockSize := wb b 3 13 2, blockDir := wb b 3 15 1, scaled := wb b 3 16 1 = 1 }

/-- What the stores of one descriptor add up to (R77). -/
structure StoreSum where
  /-- Largest finite magnitude, FP32 rounded upwards. -/
  runMax : Nat := 0
  sats   : Nat := 0
  /-- A NaN reached the store (R84). -/
  nan    : Bool := false
  /-- NaNs written as zero (R84). -/
  zeroed : Nat := 0
  /-- Infinities that reached the store (R85). -/
  inf    : Bool := false
deriving DecidableEq, Repr

/-- Two contributions combined by maximum, addition and OR (R77). -/
def StoreSum.join (a b : StoreSum) : StoreSum :=
  { runMax := if a.runMax < b.runMax then b.runMax else a.runMax, sats := a.sats + b.sats, nan := a.nan || b.nan,
    zeroed := a.zeroed + b.zeroed, inf := a.inf || b.inf }

/-- A saturating 32-bit addition. -/
def satAdd32 (a b : Nat) : Nat := if a + b < 2 ^ 32 then a + b else 0xFFFFFFFF

/-- RUN_MAX after a fold: the FP32 maximum of what the entry holds, which a program may have stored with any sign, and the
new magnitude, saturating at 0x7F7F_FFFF (R77). -/
def runMaxFold (old new : Nat) : Nat :=
  let m := fmaxB old new
  if m = infBits false then 0x7F7FFFFF else m

/-- A store's contributions folded into its scale-table entry (R77). -/
def CoreState.foldEntry (k : CoreState) (e : Nat) (t : StoreSum) : CoreState :=
  let b := k.scaleEntry e
  let m := runMaxFold (wd b 1) t.runMax
  let w3 := if t.nan then setBitOf (wd b 3) 12 true else wd b 3
  k.sdmWrite (0xF000 + 16 * e) (wordsLE [wd b 0, m, satAdd32 (wd b 2) t.sats, w3])

/-- NF_STEP of a core set (R124); NF_MB_LOG takes the MB_ID of each of the first four items with a cause (R181). -/
def State.setNf (s : State) (c : Nat) : State :=
  let s1 := s.setObj 0x5018 c 1
  match (s.core c).item with
  | none => s1
  | some i =>
    let n := s.obj 0x501A c
    if i.nf ∨ i.kind = .done then s1
    else
      let s2 := s1.onCore c (fun k => { k with item := some { i with nf := true } })
      if 4 ≤ n then s2
      else (s2.setObj 0x501A c (n + 1)).setObj 0x5019 c (s.obj 0x5019 c + i.mbId * 2 ^ (16 * n))

/-- A store through an entry: the entry, the core's counters and NF_STEP (R77, R81, R84, R124). -/
def State.foldStore (s : State) (c e : Nat) (t : StoreSum) : State :=
  let s1 := ((s.onCore c (fun k => k.foldEntry e t)).addObj 0x5010 c 64 t.sats).addObj 0x5011 c 64 t.zeroed
  if t.nan then s1.setNf c else s1

/-- The smallest k with m × 2^e ≤ maxf × 2^k, clamped below at `lo` and above at `hi`. -/
def scaleExp (f : Fmt) (m : Nat) (e lo hi : Int) : Int :=
  if m = 0 then lo
  else
    let k := flog2 m e - flog2 f.maxM f.maxE
    let k' := if magLe m e f.maxM (f.maxE + k) then k else k + 1
    if k' < lo then lo else if hi < k' then hi else k'

/-- The exponent k that a RUN_MAX chooses (R79): none where RUN_MAX is not greater than 0. An infinity that a program stored
there is at most maxf × 2^(k − H) for no k, so that the clamp gives 127 (DEDUCED). -/
def runMaxExp (f : Fmt) (headroom run : Nat) : Option Int :=
  match f32 run with
  | .fin false m e => if m = 0 then none else some (scaleExp f m (e + headroom) (-126) 127)
  | .inf false => some 127
  | _ => none

/-- One entry's interval closed (R79): RUN_MAX is reset, and an AUTO entry without block scales chooses its next SCALE.
The flag says whether SCALE changed. -/
def closeEntry (b : List Byte) : List Byte × Bool :=
  let sc := if wb b 3 5 1 = 1 ∧ wb b 3 16 1 = 0 then
      match runMaxExp (fmtD (wb b 3 0 4)) (wb b 3 7 4) (wd b 1) with
      | some k => pow2Bits k
      | none => wd b 0
    else wd b 0
  (wordsLE [sc, 0, wd b 2, wd b 3], sc ≠ wd b 0)

/-- The intervals of a core's entries with the given PER_STEP closed (SCALE_INTERVAL_CLOSE, R79). -/
def State.closeIntervals (s : State) (c perStep : Nat) : State :=
  forN 256 s (fun t e =>
    let b := (t.core c).scaleEntry e
    if wb b 3 6 1 = perStep ∧ wd b 1 ≠ 0 then
      let r := closeEntry b
      let t' := t.onCore c (fun k => k.sdmWrite (0xF000 + 16 * e) r.1)
      if r.2 then t'.addObj 0x5013 c 32 1 else t'
    else t)

/-! Summary registers. -/

/-- Summary register `q` of a core. -/
def CoreState.summary (k : CoreState) (q : Nat) : Summary := mget Summary.clear k.summaries q

/-- A summary register set. -/
def CoreState.setSummary (k : CoreState) (q : Nat) (v : Summary) : CoreState :=
  { k with summaries := mset Summary.clear k.summaries q v }

/-- A word of a summary register (R121). -/
def Summary.word (v : Summary) : Nat → Nat
  | 0 => v.max.toNat
  | 1 => v.sum.toNat
  | 2 => v.nf
  | _ => v.flags

/-- NF_COUNT raised by `n`, stopping at 0xFFFF_FFFF (R121). -/
def Summary.addNf (v : Summary) (n : Nat) : Summary := { v with nf := satAdd32 v.nf n }

/-- A flag bit of a summary register set (R121). -/
def Summary.flag (v : Summary) (bit : Nat) (on : Bool) : Summary :=
  if on then { v with flags := setBitOf v.flags bit true } else v

/-- MAX merged by maximum over finite values; 0xFF80_0000 stands for none (R121, R123). -/
def Summary.mergeMax (v : Summary) (x : Option Nat) : Summary :=
  match x with
  | none => v
  | some w => if v.max.toNat = 0xFF800000 then { v with max := BitVec.ofNat 32 w }
    else { v with max := BitVec.ofNat 32 (fmaxB v.max.toNat w) }

/-- Whether summary flags set NF_STEP: NAN_SEEN, POSINF_SEEN, NEGINF_SEEN, FTQ_NAN, FTQ_INF or ROW_NAN (R124). -/
def nfFlags (w : Nat) : Bool := bits w 0 5 ≠ 0 || bitOf w 9

/-- What one reduced element adds to a summary register's flags and NF_COUNT (R122). -/
def Summary.seeElem (v : Summary) (x : Nat) : Summary :=
  match f32 x with
  | .nan => (v.addNf 1).flag 0 true
  | .inf n => (v.addNf 1).flag (if n then 2 else 1) true
  | .fin _ _ _ => v

/-- A descriptor's effect on a summary register, with NF_STEP set when the effect itself gives a mark of R124: flags merge by
OR (R123), so that what it gives shows on a register whose flags are clear. -/
def State.onSummary (s : State) (c q : Nat) (f : Summary → Summary) : State :=
  let old := (s.core c).summary q
  let s1 := s.onCore c (fun k => k.setSummary q (f old))
  if nfFlags (f { old with flags := 0 }).flags then s1.setNf c else s1

/-! Error scores (R302 to R304). -/

/-- Points added to a core's error score, saturating (R302); past the budget the core becomes quarantine pending, once,
with a CORE_QUARANTINE event of class DEGRADED (R304). -/
def State.addScore (s : State) (c pts : Nat) : State :=
  let sc := satAdd32 (s.core c).score pts
  let s1 := s.onCore c (fun k => { k with score := sc })
  if s.obj 0x8014 1 < sc ∧ s.obj 0x8012 c ≠ 1 then
    (s1.setObj 0x8012 c 1).event (Event.at { code := 0x0108, cls := .degraded, d0 := sc } c)
  else s1

/-! SEC-DED of core memory (R186). -/

/-- A word of the core window read by a descriptor: a single-bit error is corrected and written back, with an SRAM_CE event and
a point; a double-bit error, which fails the read, is an SRAM_UE event with 256 points (R186, R302, R323). -/
def State.readWord (s : State) (c : Nat) (w : Nat × Nat) : State :=
  let off := 8 * w.1
  if flipCount w.2 = 1 then
    (((s.onCore c (fun k => { k with flips := mset 0 k.flips w.1 0 })).addObj 0x8018 c 64 1).event
      (Event.at { code := 0x0106, cls := .corrected, d0 := off } c)).addScore c 1
  else ((s.addObj 0x8019 c 64 1).event
    (Event.at { code := 0x0107, cls := .degraded, d0 := if off < sramSize then off else off - sramSize + 2 ^ 31 } c)).addScore c 256

/-- The extents of the core window that a descriptor is about to read, through the code. -/
def State.readWindow (s : State) (c : Nat) (xs : List (Nat × Nat)) : State :=
  ((s.core c).flips.filter (fun w => xs.any (fun x => wordIn x.1 x.2 w.1))).foldl (fun t w => t.readWord c w) s

/-- A window without flipped bits reads through the code as it stands. -/
theorem State.readWindow_clean (s : State) (c : Nat) (xs : List (Nat × Nat)) (h : (s.core c).flips = []) :
    s.readWindow c xs = s := by simp [State.readWindow, h]

end Sys2Proof.Machine
end

