-- ==== Sys2Proof/Machine/Tiles.lean ====
section
/-! DEFINITION. Tiles and runs of elements: packing (R70), blocks and their scales (R72 to R74), blocked layout (R105,
R106), the load paths that widen and the store paths that round (R86), and the Riffle draws (R89 to R92). -/

namespace Sys2Proof.Machine

/-! Riffle. -/

/-- One advance of a Riffle state (R89). -/
def riffleNext (st : Word64) : Word64 := st * 0x5851F42D4C957F2D + 0x14057B7EF767814F

/-- The 16-bit draw of a new Riffle state (R89). -/
def riffleOut (st : Word64) : Nat :=
  let z := (st ^^^ (st >>> 29)) * 0xBF58476D1CE4E5B9
  (z >>> 48).toNat

/-- The mix function of R90. -/
def mix (z0 : Word64) : Word64 :=
  let z1 := (z0 ^^^ (z0 >>> 30)) * 0xBF58476D1CE4E5B9
  let z2 := (z1 ^^^ (z1 >>> 27)) * 0x94D049BB133111EB
  z2 ^^^ (z2 >>> 31)

/-- The lane coordinate of R91. -/
def laneCoord (pos die core unit lane : Nat) : Nat :=
  lane + unit * 2 ^ 9 + core * 2 ^ 13 + die * 2 ^ 17 + pos * 2 ^ 20

/-- The state to which R90 seeds a lane. -/
def riffleSeed (seed step coord : Nat) : Word64 :=
  mix (BitVec.ofNat 64 seed + mix (BitVec.ofNat 64 coord) + mix (BitVec.ofNat 64 step))

/-- The seeded state of a lane of a core's unit, as the last seeding left it. -/
def State.laneSeed (s : State) (die core unit lane : Nat) : Word64 :=
  riffleSeed s.job.seed s.job.seedStep (laneCoord s.job.seedPos die core unit lane)

/-- The draws of elements in store order: each names its lane and whether it draws. `init` gives the state of a lane that
has not drawn since it was seeded; the result holds the draws and the lanes' states. -/
def drawAll (init : Nat → Word64) : List (Nat × Bool) → SMap Word64 → List (Option Nat) → List (Option Nat) × SMap Word64
  | [], m, acc => (acc.reverse, m)
  | (lane, takes) :: rest, m, acc =>
    if takes then
      let cur := match m.find? (fun e => e.1 = lane) with
        | some e => e.2
        | none => init lane
      let nxt := riffleNext cur
      drawAll init rest (mins (mdel m lane) lane nxt) (some (riffleOut nxt) :: acc)
    else drawAll init rest m (none :: acc)

/-- Draws for a core's unit (units 0 to 9), with the core's Riffle states updated. -/
def State.draw (s : State) (c unit : Nat) (lanes : List (Nat × Bool)) : List (Option Nat) × State :=
  if lanes.any (fun e => e.2) then
    let k := s.core c
    let mine := (k.riffle.filter (fun e => 512 * unit ≤ e.1 && e.1 < 512 * unit + 512)).map (fun e => (e.1 - 512 * unit, e.2))
    let r := drawAll (fun l => s.laneSeed (c / 16) (c % 16) unit l) lanes mine []
    let riffle := k.riffle.filter (fun e => e.1 < 512 * unit) ++ r.2.map (fun e => (e.1 + 512 * unit, e.2))
      ++ k.riffle.filter (fun e => 512 * unit + 512 ≤ e.1)
    (r.1, s.setCore c { k with riffle := riffle })
  else (lanes.map (fun _ => none), s)

/-! Packing of elements (R70). -/

/-- Elements of `w` bits, low element first, from a byte string: `n` of them. -/
def unpackElems (w n : Nat) (bs : List Byte) : List Nat :=
  if w % 8 = 0 then (chunks n (w / 8) bs).map leNat
  else if w = 4 then (bs.flatMap (fun b => [b.toNat % 16, b.toNat / 16])).take n
  else ((records 3 bs).flatMap (fun g => let v := leNat g; [v % 64, v / 64 % 64, v / 4096 % 64, v / 262144])).take n

/-- Elements of `w` bits packed low element first. -/
def packElems (w : Nat) (es : List Nat) : List Byte :=
  if w % 8 = 0 then es.flatMap (leBytes (w / 8))
  else if w = 4 then (chunksNat 2 es).map (fun g => BitVec.ofNat 8 (g.getD 0 0 + g.getD 1 0 * 16))
  else (chunksNat 4 es).flatMap (fun g => leBytes 3 (g.getD 0 0 + g.getD 1 0 * 64 + g.getD 2 0 * 4096 + g.getD 3 0 * 262144))
where
  /-- A list cut in groups of `k`. -/
  chunksNat (k : Nat) (es : List Nat) : List (List Nat) :=
    (List.range ((es.length + k - 1) / k)).map (fun i => (es.drop (i * k)).take k)

/-- The bytes that `n` elements of `w` bits need (R70). -/
def runBytes (w n : Nat) : Nat := if w = 6 then (n + 3) / 4 * 3 else (n * w + 7) / 8

/-! Tiles (R72, R105, R106). -/

/-- How a tile is stored: format code, block scaling, block size code and direction (R39). -/
structure TileFmt where
  format : Nat
  scaled : Bool
  size   : Nat
  dir    : Nat
deriving DecidableEq, Repr

/-- Elements in a block (R39). -/
def TileFmt.block (t : TileFmt) : Nat := 16 * 2 ^ t.size

/-- Element bytes of a tile (R70). -/
def TileFmt.elemBytes (t : TileFmt) : Nat := 512 * (fmtD t.format).bits

/-- Scale bytes of a tile (R72). -/
def TileFmt.scaleBytes (t : TileFmt) : Nat := if t.scaled then 4096 / t.block else 0

/-- The raw length of a tile: its element bytes, then its scale bytes. -/
def TileFmt.raw (t : TileFmt) : Nat := t.elemBytes + t.scaleBytes

/-- The tile stride: the raw length rounded up to a multiple of 64 (R105). -/
def TileFmt.stride (t : TileFmt) : Nat := (t.raw + 63) / 64 * 64

/-- The scale index of element (r, c) (R106). -/
def TileFmt.scaleIx (t : TileFmt) (r c : Nat) : Nat :=
  let line := if t.dir = 0 then r else c
  let pos := if t.dir = 0 then c else r
  if t.size = 3 then line / 2 else line * (64 / t.block) + pos / t.block

/-- The elements of block `b`, as element indices 64 × r + c. -/
def TileFmt.blockElems (t : TileFmt) (b : Nat) : List Nat :=
  let at' := fun line pos => if t.dir = 0 then 64 * line + pos else 64 * pos + line
  if t.size = 3 then (List.range 128).map (fun i => at' (2 * b + i / 64) (i % 64))
  else
    let per := 64 / t.block
    (List.range t.block).map (fun i => at' (b / per) (b % per * t.block + i))

/-- FP32 never carries block scales (R397), and an element format is named (R68). -/
def TileFmt.ok (t : TileFmt) : Bool := elemFormat t.format && !(t.scaled && t.format = 0)

/-- The values of a tile's 4,096 elements with block and stream scales folded in exactly (R69, R73). -/
def loadTile (t : TileFmt) (sexp : Int) (bs : List Byte) : Array Num :=
  let f := fmtD t.format
  let es := (unpackElems f.bits 4096 (bs.take t.elemBytes)).toArray
  let sc := ((bs.drop t.elemBytes).take t.scaleBytes).toArray
  Array.ofFn (n := 4096) (fun i =>
    let x := decodeElem f (es.getD i.val 0)
    if t.scaled then
      match blockExp (sc.getD (t.scaleIx (i.val / 64) (i.val % 64)) 0).toNat with
      | none => .nan
      | some k => x.scale (k + sexp)
    else x.scale sexp)

/-- The values of a linear run of elements, the stream scale folded in. -/
def loadRun (f : Fmt) (sexp : Int) (n : Nat) (bs : List Byte) : Array Num :=
  ((unpackElems f.bits n bs).map (fun e => (decodeElem f e).scale sexp)).toArray

/-- Numbers widened to FP32 with the saturations counted (R86). -/
def widenAll (xs : Array Num) : Array Nat × Nat :=
  (xs.map (fun x => (widen x).1), xs.foldl (fun n x => if (widen x).2 then n + 1 else n) 0)

/-! Store paths. -/

/-- An element that a store path writes: its value before the stream scale is taken out, its draw, and whether it is a
padding or masked element, which adds nothing to any counter (R104, R119). -/
structure StElem where
  x     : Num
  draw  : Option Nat
  quiet : Bool
deriving DecidableEq, Repr

/-- RUN_MAX, saturations, NaN and infinity marks of one element written (R77, R81, R84, R85). -/
def elemSum (e : StElem) (sat zeroed : Bool) : StoreSum :=
  if e.quiet then {}
  else match e.x with
    | .nan => { nan := true, zeroed := b01 zeroed }
    | .inf _ => { inf := true, sats := 1 }
    | .fin _ m k => { runMax := magUp32 m k, sats := b01 sat }

/-- One element stored without a block scale: its bits and what it adds up to. -/
def storePlain (f : Fmt) (sexp : Int) (e : StElem) : Nat × StoreSum :=
  let o := storeElem f (e.x.scale (-sexp)) e.draw
  (o.bits, elemSum e o.sat o.zeroed)

/-- The block scale exponent for values already divided by the stream scale (R74, R85). -/
def blockScaleExp (f : Fmt) (xs : List Num) : Int :=
  let ks := xs.map (fun x => match x with
    | .fin _ m e => if m = 0 then (-127 : Int) else scaleExp f m e (-127) 127
    | .inf _ => 127
    | .nan => -127)
  ks.foldl (fun a b => if a < b then b else a) (-127)

/-- A block stored: its scale byte, its elements' bits, and what they add up to (R74, R84, R85). -/
def storeBlock (f : Fmt) (sexp : Int) (es : List StElem) : Nat × List Nat × StoreSum :=
  let xs := es.map (fun e => e.x.scale (-sexp))
  if xs.any Num.isNan then
    (0xFF, es.map (fun _ => 0), es.foldl (fun t e => t.join (elemSum e false false)) {})
  else
    let k := blockScaleExp f xs
    let os := es.map (fun e =>
      let x := e.x.scale (-sexp)
      let o := match x with
        | .inf n => { bits := maxBits f n false, sat := true, zeroed := false : OutElem }
        | y =>
          let o := storeElem f (y.scale (-k)) e.draw
          -- under block scaling an integer element never takes −2^(bits − 1) (R74)
          if f.isInt ∧ o.bits = 2 ^ (f.bits - 1) then { o with bits := maxBits f true false, sat := true } else o
      (o.bits, elemSum e o.sat o.zeroed))
    ((k + 127).toNat, os.map Prod.fst, os.foldl (fun t o => t.join o.2) {})

/-- A whole tile stored under the latched settings: its raw bytes and what its elements add up to (R74, R104, R105). -/
def storeTile (t : TileFmt) (sexp : Int) (es : Array StElem) : List Byte × StoreSum :=
  let f := fmtD t.format
  let z : StElem := ⟨.fin false 0 0, none, true⟩
  if t.scaled then
    let bl := (List.range t.scaleBytes).map (fun b =>
      let ix := t.blockElems b
      (ix, storeBlock f sexp (ix.map (fun i => es.getD i z))))
    let arr := bl.foldl (fun (a : Array Nat) b =>
      (b.1.zip b.2.2.1).foldl (fun (a : Array Nat) p => a.setIfInBounds p.1 p.2) a) (Array.replicate 4096 0)
    (packElems f.bits arr.toList ++ bl.map (fun b => BitVec.ofNat 8 b.2.1), bl.foldl (fun s b => s.join b.2.2.2) {})
  else
    let os := es.toList.map (storePlain f sexp)
    (packElems f.bits (os.map Prod.fst), os.foldl (fun s o => s.join o.2) {})

/-- The exponent of a latched stream scale; the tables hold only scales that meet R75. -/
def Latch.sexp (l : Latch) : Int := (streamExp l.scale).getD 0

/-- The tile form that a latched entry writes. -/
def Latch.tile (l : Latch) : TileFmt := ⟨l.format, l.scaled, l.blockSize, l.blockDir⟩

/-- A latched entry can be stored through: R75, R68, R397. -/
def Latch.ok (l : Latch) : Bool := (streamExp l.scale).isSome && l.tile.ok

end Sys2Proof.Machine
end

