-- ==== Sys2Proof/Machine/Matrix.lean ====
section
/-! DEFINITION. The matrix engine: operands, groups and banks, residue faults and repair, and the epilogue (R94 to R113,
R396). -/

namespace Sys2Proof.Machine

/-- The operand class of a format (R94): 1 16-bit, 2 8-bit float, 3 8-bit integer, 4 6/4-bit float, 5 4-bit integer. -/
def operandClass : Nat → Nat
  | 1 => 1
  | 2 => 1
  | 3 => 2
  | 4 => 2
  | 8 => 3
  | 5 => 4
  | 6 => 4
  | 7 => 4
  | 9 => 5
  | _ => 0

/-- Products per cell per beat of a class (R94). -/
def productsPerBeat : Nat → Nat
  | 2 => 2
  | 3 => 2
  | 4 => 4
  | 5 => 4
  | _ => 1

/-! The group update (R97, R101). -/

/-- What a group's products do to the state and the exact terms they add (R97). -/
def groupTerms : List (Num × Num) → Acc → List Dy → Acc × List Dy
  | [], st, ts => (st, ts)
  | (a, b) :: rest, st, ts =>
    match a, b with
    | .nan, _ => groupTerms rest .nan ts
    | _, .nan => groupTerms rest .nan ts
    | .fin x m e, .fin y n k =>
      groupTerms rest st (if m * n = 0 then ts else dyOf (x != y) (m * n) (e + k) :: ts)
    | a, b =>
      if a.isZero || b.isZero then groupTerms rest .nan ts
      else
        let s : Acc := if a.sign = b.sign then .posinf else .neginf
        groupTerms rest (match st with
          | .fin _ => s
          | .nan => .nan
          | .posinf => if s = .posinf then .posinf else .nan
          | .neginf => if s = .neginf then .neginf else .nan) ts

/-- One group's update of an element (R97): the terms and the accumulator summed in a window of 80 bits whose lowest bit
is 2^(emax − 70), bits below it discarded toward minus infinity, and one rounding to A40. -/
def groupStep (acc : Acc) (prods : List (Num × Num)) : Acc :=
  match groupTerms prods acc [] with
  | (.fin v, ts) =>
    let terms := if v.m = 0 then ts else v :: ts
    match terms with
    | [] => .fin v
    | t :: rest =>
      let lg := fun (x : Dy) => flog2 x.m.natAbs x.e
      let emax := rest.foldl (fun a x => if a < lg x then lg x else a) (lg t)
      let lsb := emax - 70
      .fin (roundA40 ⟨terms.foldl (fun w x => w + x.floorAt lsb) 0, lsb⟩)
  | (st, _) => st

/-! Operands. -/

/-- One operand of a matrix descriptor (R148, R396): base, form, stream scale exponent, stored tile columns, the tile
index that the output names, and whether K runs down the stored rows. -/
structure Operand where
  base : Nat
  form : TileFmt
  sexp : Int
  tc   : Nat
  fixed : Nat
  /-- K runs along the stored columns. -/
  kCols : Bool
deriving DecidableEq, Repr

/-- The offset of the stored tile that holds k-tile `j` (R105, R396). -/
def Operand.tileAt (o : Operand) (j : Nat) : Nat :=
  o.base + (if o.kCols then o.fixed * o.tc + j else j * o.tc + o.fixed) * o.form.stride

/-- The element index of (output line `i`, k) within its stored tile (R396). -/
def Operand.elemIx (o : Operand) (i k : Nat) : Nat := if o.kCols then 64 * i + k else 64 * k + i

/-- Operand A of a matrix descriptor. -/
def operandA (b : List Byte) : Operand :=
  { base := wb b 2 0 24, form := ⟨wb b 2 24 4, wb b 2 31 1 = 1, wb b 2 28 2, wb b 2 30 1⟩,
    sexp := (streamExp (wd b 4)).getD 0, tc := wb b 6 0 16, fixed := wb b 9 0 16, kCols := wb b 12 28 1 = 0 }

/-- Operand B of a matrix descriptor. -/
def operandB (b : List Byte) : Operand :=
  { base := wb b 3 0 24, form := ⟨wb b 3 24 4, wb b 3 31 1 = 1, wb b 3 28 2, wb b 3 30 1⟩,
    sexp := (streamExp (wd b 5)).getD 0, tc := wb b 6 16 16, fixed := wb b 9 16 16, kCols := wb b 12 29 1 = 1 }

/-- K and K_OFFSET of a matrix descriptor. -/
def mmK (b : List Byte) : Nat := wb b 7 0 24 + 1
/-- K_OFFSET. -/
def mmOff (b : List Byte) : Nat := wb b 8 0 24

/-- The k-tiles that a descriptor reads. -/
def kTiles (off n : Nat) : List Nat := (List.range ((off + n - 1) / 64 + 1)).drop (off / 64)

/-- The bytes of the k-tiles of an operand lie in core SRAM. -/
def Operand.inSram (o : Operand) (off n : Nat) : Bool :=
  (kTiles off n).all (fun j => o.tileAt j + o.form.raw ≤ sramSize)

/-- The extents of core SRAM that the k-tiles of an operand take. -/
def Operand.reads (o : Operand) (off n : Nat) : List (Nat × Nat) := (kTiles off n).map (fun j => (o.tileAt j, o.form.raw))

/-- Some k-tile of an operand meets a poisoned line (R186). -/
def Operand.poisoned (k : CoreState) (o : Operand) (off n : Nat) : Bool := (o.reads off n).any (fun e => k.poisoned e.1 e.2)

/-- The loaded k-tiles of an operand, by k-tile number from the first. -/
def Operand.load (k : CoreState) (o : Operand) (off n : Nat) : Array (Array Num) :=
  ((kTiles off n).map (fun j => loadTile o.form o.sexp (k.sramRead (o.tileAt j) o.form.raw))).toArray

/-- The value of operand line `i` at k, from loaded tiles. -/
def Operand.val (o : Operand) (tiles : Array (Array Num)) (off i k : Nat) : Num :=
  (tiles.getD (k / 64 - off / 64) #[]).getD (o.elemIx i (k % 64)) (.fin false 0 0)

/-- A stored FP32 value split into BF16 halves (R95), with the saturations counted. -/
def split3 (x : Num) : Num × Num × Nat :=
  let h := storeElem bf16 x none
  let hi := decodeElem bf16 h.bits
  let l := storeElem bf16 (numAdd x (numNeg hi)) none
  (hi, decodeElem bf16 l.bits, b01 h.sat + b01 l.sat)

/-- The values that one operand supplies at (i, k): itself, or its scaled halves under SPLIT3. -/
def operandVals (split : Bool) (o : Operand) (x : Num) : List Num :=
  if split then
    let s := split3 (x.scale (-o.sexp))
    [s.1.scale o.sexp, s.2.1.scale o.sexp]
  else [x]

/-- The products of one k: one, or hi·hi, hi·lo, lo·hi under SPLIT3 (R95). -/
def kProducts (split : Bool) (oa ob : Operand) (a b : Num) : List (Num × Num) :=
  if split then
    let x := operandVals true oa a
    let y := operandVals true ob b
    let z : Num := .fin false 0 0
    [(x.getD 0 z, y.getD 0 z), (x.getD 0 z, y.getD 1 z), (x.getD 1 z, y.getD 0 z)]
  else [(a, b)]

/-- A finite magnitude of 2^240 or more (R99). -/
def tooLarge : Num → Bool
  | .fin _ m e => m ≠ 0 && 240 ≤ flog2 m e
  | _ => false

/-- The first k at which an operand breaks R99, A before B at one k: the operand (0 A, 1 B) and k. -/
def rangeBreak (split : Bool) (oa ob : Operand) (ta tb : Array (Array Num)) (off n : Nat) : Option (Nat × Nat) :=
  (List.range n).findSome? (fun i =>
    let k := off + i
    if (List.range 64).any (fun m => (operandVals split oa (oa.val ta off m k)).any tooLarge) then some (0, k)
    else if (List.range 64).any (fun m => (operandVals split ob (ob.val tb off m k)).any tooLarge) then some (1, k)
    else none)

/-- Saturations of the SPLIT3 split over the elements read of an operand: `lines` output lines of it (R95). -/
def splitSats (o : Operand) (tiles : Array (Array Num)) (off n lines : Nat) : Nat :=
  (List.range n).foldl (fun a i => (List.range lines).foldl (fun a m =>
    a + (split3 ((o.val tiles off m (off + i)).scale (-o.sexp))).2.2) a) 0

/-- One element's accumulator after the groups of K products (R96). -/
def contractElem (split : Bool) (oa ob : Operand) (ta tb : Array (Array Num)) (off n m j : Nat) (acc : Acc) : Acc :=
  (List.range ((n + 15) / 16)).foldl (fun a g =>
    let ks := (List.range (if 16 * g + 16 ≤ n then 16 else n - 16 * g)).map (fun i => off + 16 * g + i)
    groupStep a (ks.flatMap (fun k => kProducts split oa ob (oa.val ta off m k) (ob.val tb off j k)))) acc

/-- The elements of a bank as an array by 64 × m + n. -/
def accArray (acc : SMap Acc) : Array Acc :=
  acc.foldl (fun a e => a.setIfInBounds e.1 e.2) (Array.replicate 4096 Acc.zero)

/-- An array of bank elements as a sparse map. -/
def accMap (a : Array Acc) : SMap Acc :=
  (a.toList.zipIdx).filterMap (fun p => if p.1 = Acc.zero then none else some (p.2, p.1))

/-- A bank's elements after the groups of one product (R97). -/
def contract (split : Bool) (oa ob : Operand) (ta tb : Array (Array Num)) (off n : Nat) (acc : SMap Acc) : SMap Acc :=
  let a := accArray acc
  accMap (Array.ofFn (n := 4096) (fun i =>
    contractElem split oa ob ta tb off n (i.val / 64) (i.val % 64) (a.getD i.val Acc.zero)))

/-! Engines. -/

/-- Engine `e` of a core. -/
def CoreState.engine (k : CoreState) (e : Nat) : Engine := mget Engine.reset k.engines e

/-- An engine replaced. -/
def CoreState.setEngine (k : CoreState) (e : Nat) (v : Engine) : CoreState :=
  { k with engines := mset Engine.reset k.engines e v }

/-- Bank 0 A or 1 B. -/
def Engine.bank (v : Engine) (b : Nat) : Bank := if b = 0 then v.bankA else v.bankB

/-- A bank replaced. -/
def Engine.setBank (v : Engine) (b : Nat) (x : Bank) : Engine := if b = 0 then { v with bankA := x } else { v with bankB := x }

/-- One bank of an engine of a core set. -/
def State.setBank (s : State) (c e b : Nat) (x : Bank) : State :=
  s.onCore c (fun k => k.setEngine e ((k.engine e).setBank b x))

/-- The ENGINE_REPAIR word of an engine (R112). -/
def State.repair (s : State) (c e : Nat) : Nat := mget 0 s.nv.repair (c / 16 * 256 + 8 * (c % 16) + e)

/-- The ENGINE_REPAIR word set, in the save store. -/
def State.setRepair (s : State) (c e v : Nat) : State :=
  { s with nv := { s.nv with repair := mset 0 s.nv.repair (c / 16 * 256 + 8 * (c % 16) + e) v } }

/-- The oldest matrix descriptor of an engine. -/
def CoreState.mxHead (k : CoreState) (e : Nat) : Option Desc := k.mxQ.waiting.find? (fun d => wb d.bytes 0 8 3 = e)

/-- Every descriptor on an engine's queue completes with ABSENT_UNIT (R113). -/
def State.dropEngine (s : State) (c e : Nat) : State :=
  (((s.core c).mxQ.waiting.filter (fun d => wb d.bytes 0 8 3 = e))).foldl (fun t d => t.failDesc c 0 d tokAbsent 0) s

/-- A core quarantined at once by a lost engine (R305). -/
def State.hardQuarantine (s : State) (c : Nat) : State :=
  (s.setObj 0x8012 c 1).event (Event.at { code := 0x0108, cls := .fault, d0 := (s.core c).score } c)

/-- A cell stands in a retired column or row, or its engine is lost: it needs no action (R112). -/
def State.cellOut (s : State) (c e row col : Nat) : Bool :=
  let w := s.repair c e
  (bitOf w 0 && bits w 1 6 = col) || (bitOf w 7 && bits w 8 6 = row) || bitOf w 14

/-- A cell with fault count 3 retired: its column to the spare column, else its row to the spare row, else the engine is
lost (CELL_RETIRE and ENGINE_LOST, R112, R113). -/
def State.retireCell (s : State) (c e row col : Nat) : State :=
  let w := s.repair c e
  let d0 := row * 256 + col
  if s.cellOut c e row col then s
  else if bitOf w 0 = false then
    ((s.setRepair c e (w + 1 + col * 2)).event (Event.at { code := 0x0102, cls := .degraded, unit := e, d0 := d0 } c)).addScore c 64
  else if bitOf w 7 = false then
    ((s.setRepair c e (w + 128 + row * 256)).event
      (Event.at { code := 0x0102, cls := .degraded, unit := e, d0 := d0 + 2 ^ 16 } c)).addScore c 64
  else
    (((s.setRepair c e (w + 2 ^ 14)).event (Event.at { code := 0x0104, cls := .degraded, unit := e } c)).dropEngine c e).hardQuarantine c

/-- A residue mismatch in a cell (R110): its fault count, the event and the score. -/
def State.residue (s : State) (c e : Nat) (cell : Nat × Nat) : State :=
  let row := cell.1 % 64
  let col := cell.2 % 64
  let v := (s.core c).engine e
  let s1 := s.onCore c (fun k => k.setEngine e { v with faults := mset 0 v.faults (64 * row + col) (mget 0 v.faults (64 * row + col) + 1) })
  (s1.event (Event.at { code := 0x0101, cls := .corrected, unit := e, d0 := row * 256 + col } c)).addScore c 1

/-- Every cell whose fault count has reached 3 retired, in row-major order, as the start of a descriptor or of a replay
does it (R112). A cell that is out of use already needs nothing. -/
def State.retireDue (s : State) (c e : Nat) : State :=
  ((s.core c).engine e).faults.foldl (fun t x => if 3 ≤ x.2 then t.retireCell c e (x.1 / 64) (x.1 % 64) else t) s

/-- The engine has been lost (R113). -/
def State.engineLost (s : State) (c e : Nat) : Bool := bitOf (s.repair c e) 14

/-- How the attempts of a descriptor end (R111, R113): its groups done, the engine lost as a replay began, or a fifth
mismatch in a cell. -/
inductive Tried where
  | done
  | lost
  | failed (cell : Nat × Nat)
deriving DecidableEq, Repr

/-- The beats of an attempt that a residue mismatch abandons: how many its engine had completed is a free value (R26). -/
def State.busyLost (s : State) (c : Nat) : State :=
  { s with free := s.free + 1 }.addObj 0xA111 c 64 (Config.freeNat s.free)

/-- The attempts of a descriptor (R111): the mismatches of each attempt are counted; a replay retires what is due before its
first group and adds one to REPLAYS; the fifth mismatch names the failing cell, and what it makes due waits for the next
descriptor (R112). -/
def State.attempts (s : State) (c e : Nat) : Nat → List (List (Nat × Nat)) → State × Tried
  | 0, _ => (s, .done)
  | _, [] => (s, .done)
  | _ + 1, [] :: _ => (s, .done)
  | n + 1, (cell :: cells) :: rest =>
    let s1 := ((cell :: cells).foldl (fun t x => t.residue c e x) s).busyLost c
    if n = 0 then (s1, .failed cell)
    else
      let s2 := s1.retireDue c e
      if s2.engineLost c e then (s2, .lost) else (s2.addObj 0x8038 c 32 1).attempts c e n rest

/-- A failing field of a matrix descriptor as word and bit, or none (R68, R75, R94 to R96, R147, R148, R397). -/
def mmBadField (b : List Byte) : Option (Nat × Nat) :=
  let fa := wb b 2 24 4
  let fb := wb b 3 24 4
  let split := wb b 12 27 1 = 1
  if !elemFormat fa then some (2, 24)
  else if fa = 0 ∧ wb b 2 31 1 = 1 then some (2, 31)
  else if !elemFormat fb then some (3, 24)
  else if fb = 0 ∧ wb b 3 31 1 = 1 then some (3, 31)
  else if (streamExp (wd b 4)).isNone then some (4, 0)
  else if (streamExp (wd b 5)).isNone then some (5, 0)
  else if split ∧ ¬ (fa = 0 ∧ fb = 0) then some (12, 27)
  else if ¬ split ∧ (fa = 0 ∨ fb = 0 ∨ operandClass fa ≠ operandClass fb) then some (if fa = 0 then (2, 24) else (3, 24))
  else if mmOff b % 16 ≠ 0 then some (8, 0)
  else if !(operandA b).inSram (mmOff b) (mmK b) then some (2, 0)
  else if !(operandB b).inSram (mmOff b) (mmK b) then some (3, 0)
  else none

/-- A failing field of the FINISH part of a descriptor. -/
def finishBadField (b : List Byte) (l : Latch) : Option (Nat × Nat) :=
  if !l.ok then some (10, 24) else if sramSize < wb b 10 0 24 + l.tile.raw then some (10, 0) else none

/-- Beats of a descriptor's groups (R94, R95). -/
def groupBeats (cls : Nat) (split : Bool) (n : Nat) : Nat :=
  if split then (n + 15) / 16 * 64 else (n + 15) / 16 * (16 / productsPerBeat cls)

/-- The beats that an engine completed, counted for the core and for an Oxbow item (R26, R66). -/
def State.busy (s : State) (c beats : Nat) : State :=
  let s1 := s.addObj 0xA111 c 64 beats
  match (s.core c).item with
  | some i => if i.kind = .oxbow then s1.addObj 0xB102 c 64 beats else s1
  | none => s1

/-- A bank made VOID and the descriptor ended with an error token (R99, R102, R111). -/
def State.voidFail (s : State) (c e b : Nat) (d : Desc) (code detail : Nat) : State :=
  (s.setBank c e b { Bank.empty with st := .void }).failDesc c 0 d code detail

/-- A descriptor's groups done: the bank ACCUMULATING and the descriptor retired, or with FINISH the bank DRAINING with
what the descriptor latched (R102, R104). -/
def State.groupsDone (s : State) (c e bk : Nat) (d : Desc) (l : Latch) (groups : Nat) (acc : SMap Acc) : State :=
  if wb d.bytes 12 26 1 = 1 then
    (s.setBank c e bk ⟨.draining, groups, acc, some (d, l)⟩).onCore c (fun k => k.begin 0 d.num)
  else (s.setBank c e bk ⟨.accumulating, groups, acc, none⟩).okDesc c 0 d

/-- What stops a matrix descriptor before any work, in the order of the checks: a token code with its DETAIL. `groups` is
what the descriptor adds to the bank's count (R100, R102). START with FINISH runs on a VOID bank (assumption 187). -/
def mmRefuse (k : CoreState) (bank : Bank) (d : Desc) (groups : Nat) : Option (Nat × Nat) :=
  let b := d.bytes
  let l := k.latch (wb b 10 24 8)
  let cont := wb b 12 25 1 = 1
  match mmBadField b with
  | some f => some (tokRange, detailField f.1 f.2)
  | none =>
    match (if wb b 12 26 1 = 1 then finishBadField b l else none) with
    | some f => some (tokRange, detailField f.1 f.2)
    | none =>
      if cont && (bank.st = .empty || bank.st = .void) then some (tokRange, detailField 12 25)
      else if 2 ^ 20 < (if cont then bank.groups else 0) + groups then some (tokRange, detailField 7 0)
      else none

/-- A scaled operand refused by the load path (R99): the bank VOID, the token, and the event with the operand and k. -/
def State.rangeFail (s : State) (c e bk : Nat) (d : Desc) (detail : Nat) (at' : Nat × Nat) : State :=
  (s.voidFail c e bk d tokRange detail).event
    (Event.at { code := 0x0105, cls := .note, unit := e, d0 := at'.2 + at'.1 * 2 ^ 31 } c)

/-- The groups of a descriptor tried (R102, R111 to R113): the cells that are due retire, the bank goes to the replay copy,
and the attempts run. `work` is what groups without a mismatch leave. An engine that is lost before the first group leaves
the bank as it is; one lost at a replay, or a fifth mismatch, leaves the bank VOID. -/
def State.tryGroups (s : State) (c e bk : Nat) (d : Desc) (start : Bank) (mismatches : List (List (Nat × Nat)))
    (work : State → State) : State :=
  let s0 := s.retireDue c e
  if s0.engineLost c e then s0
  else
    let r := (s0.onCore c (fun k => k.setEngine e { k.engine e with replay := start })).attempts c e 5 mismatches
    match r.2 with
    | .done => work r.1
    | .lost => r.1.setBank c e bk { Bank.empty with st := .void }
    | .failed cell =>
      let dt := cell.1 % 64 * 256 + cell.2 % 64
      ((r.1.voidFail c e bk d tokCellFault dt).event
        (Event.at { code := 0x0103, cls := .degraded, unit := e, d0 := dt } c)).addScore c 512

/-- One matrix product run into a bank (R97 to R103): the operands are read once the attempts have succeeded. -/
def State.runProduct (s0 : State) (c e : Nat) (d : Desc) (mismatches : List (List (Nat × Nat))) : State :=
  let b := d.bytes
  let bk := wb b 12 24 1
  let s := s0.readWindow c ((operandA b).reads (mmOff b) (mmK b) ++ (operandB b).reads (mmOff b) (mmK b))
  let k := s.core c
  let bank := (k.engine e).bank bk
  let oa := operandA b
  let ob := operandB b
  let off := mmOff b
  let n := mmK b
  let split := wb b 12 27 1 = 1
  let l := k.latch (wb b 10 24 8)
  let start : Bank := if wb b 12 25 1 = 1 then bank else ⟨.accumulating, 0, [], none⟩
  if oa.poisoned k off n || ob.poisoned k off n then s.voidFail c e bk d tokUncorrectable 0
  else
    let ta := oa.load k off n
    let tb := ob.load k off n
    match rangeBreak split oa ob ta tb off n with
    | some x => s.rangeFail c e bk d (detailField (2 + x.1) 0) x
    | none =>
      s.tryGroups c e bk d start mismatches (fun t =>
        let sats := if split then splitSats oa ta off n 64 + splitSats ob tb off n 64 else 0
        ((t.addObj 0x5012 c 64 sats).groupsDone c e bk d l (start.groups + (n + 15) / 16)
          (contract split oa ob ta tb off n start.acc)).busy c (groupBeats (operandClass oa.form.format) split n))

/-- MM (R97): the engine runs its oldest descriptor. Nothing changes while the named bank drains (R103), or when the
oldest descriptor is no MM. -/
def execMm (core engine : Nat) (mismatches : List (List (Nat × Nat))) (s : State) : Res :=
  let k := s.core core
  match k.mxHead engine with
  | none => .next s
  | some d =>
    if wb d.bytes 0 0 8 ≠ 1 then .next s
    else if s.engineLost core engine then .next (s.failDesc core 0 d tokAbsent 0)
    else
      let bank := (k.engine engine).bank (wb d.bytes 12 24 1)
      match mmRefuse k bank d ((mmK d.bytes + 15) / 16) with
      | some r => if bank.st = .draining then .next s else .next (s.failDesc core 0 d r.1 r.2)
      | none => if bank.st = .draining then .next s else .next (s.runProduct core engine d mismatches)

/-- The bank that drains first: the one whose FINISH descriptor is the older (R103). -/
def Engine.drainingBank (v : Engine) : Option (Nat × Desc × Latch) :=
  match v.bankA.finish, v.bankB.finish with
  | some a, some b => if a.1.num < b.1.num then some (0, a) else some (1, b)
  | some a, none => some (0, a)
  | none, some b => some (1, b)
  | none, none => none

/-- The value of a bank element (R101). -/
def Acc.num : Acc → Num
  | .fin v => v.num
  | .posinf => .inf false
  | .neginf => .inf true
  | .nan => .nan

/-- EPILOGUE (R104): the oldest draining bank converted, written and posted. While the finished-tile queue holds 32
entries the bank stays DRAINING, and the beats it is held, whose number the spec does not give, are counted (R127). -/
def execEpilogue (core engine : Nat) (s : State) : Res :=
  let k := s.core core
  match (k.engine engine).drainingBank with
  | none => .next s
  | some (bk, d, l) =>
    if 32 ≤ k.ftq.length then
      .next ({ s with free := s.free + 1 }.addObj 0xB107 core 64 (Config.freeNat s.free))
    else
      let b := d.bytes
      let rows := wb b 12 12 6
      let cols := wb b 12 18 6
      let acc := accArray ((k.engine engine).bank bk).acc
      let dr := s.draw core engine ((List.range 4096).map (fun i => (i % 64, l.sr)))
      let draws := dr.1.toArray
      let elems := Array.ofFn (n := 4096) (fun i =>
        if i.val / 64 ≤ rows ∧ i.val % 64 ≤ cols then
          { x := (acc.getD i.val Acc.zero).num, draw := draws.getD i.val none, quiet := false : StElem }
        else { x := .fin false 0 0, draw := draws.getD i.val none, quiet := true })
      let st := storeTile l.tile l.sexp elems
      let addr := wb b 10 0 24
      let f : Ftq :=
        { addr := addr, engine := engine, bank := bk, nan := st.2.nan, inf := st.2.inf, sat := st.2.sats ≠ 0,
          tileRow := wb b 11 0 16, tileCol := wb b 11 16 16, tensor := wb b 12 0 12, format := l.format,
          rows := rows, cols := cols, mbId := wb b 1 0 16, tag := wb b 0 16 16 }
      let s1 := dr.2.onCore core (fun k => { k.sramWrite addr st.1 with ftq := k.ftq ++ [f] })
      .next (((s1.foldStore core l.entry st.2).setBank core engine bk .empty).okDesc core 0 d)

end Sys2Proof.Machine
end

