-- ==== Sys2Proof/Machine/Packing.lean ====
section
/-! DEFINITION. Compressed tiles and packed sequences (R192 to R197). -/

namespace Sys2Proof.Machine

/-- The bytes that a bit string needs, least significant bit first (R194): values of `w` bits back to back. -/
def bitStream (w : Nat) (vs : List Nat) : List Byte :=
  leBytes ((vs.length * w + 7) / 8) ((vs.reverse).foldl (fun acc v => acc * 2 ^ w + v % 2 ^ w) 0)

/-- `n` values of `w` bits read from a bit string. -/
def bitRead (w n : Nat) (bs : List Byte) : List Nat :=
  let v := leNat (bs.take ((n * w + 7) / 8))
  (List.range n).map (fun i => bits v (i * w) w)

/-- The formats for which DELTA is allowed (R194). -/
def deltaOk (format : Nat) : Bool := format ≤ 4

/-- The exponent width of a float format. -/
def Fmt.expBits (f : Fmt) : Nat := f.bits - 1 - f.frac

/-- A row's mask of elements that are not all-zero bits (R194). -/
def rowMask (xs : List Nat) : Nat :=
  (xs.zipIdx).foldl (fun m p => if p.1 = 0 then m else m + 2 ^ p.2) 0

/-- Bits needed so that a difference lies below 2^d. -/
def deltaWidth (v : Nat) : Nat := if v = 0 then 0 else Nat.log2 v + 1

/-- The DELTA code of a row, for MASKED 0 or 1, with the row header's fields (R194, R195). -/
def deltaRow (f : Fmt) (masked : Bool) (xs : List Nat) : List Byte :=
  let es := if masked then xs.filter (fun x => x ≠ 0) else xs
  let ex := fun x => bits x f.frac f.expBits
  let b := es.foldl (fun a x => if ex x < a then ex x else a) (2 ^ f.expBits - 1)
  let d := es.foldl (fun a x => if a < deltaWidth (ex x - b) then deltaWidth (ex x - b) else a) 0
  let code := fun x => b01 (bitOf x (f.bits - 1)) + (ex x - b) * 2 + bits x 0 f.frac * 2 ^ (1 + d)
  [BitVec.ofNat 8 (2 + d * 4 + b01 masked * 64), BitVec.ofNat 8 b]
    ++ (if masked then leBytes 8 (rowMask xs) else []) ++ bitStream (1 + d + f.frac) (es.map code)

/-- The shorter of two codes, the first on a tie. -/
def shorter (a b : List Byte) : List Byte := if b.length < a.length then b else a

/-- A row code (R195): 64 elements. -/
def packRow (format : Nat) (xs : List Nat) : List Byte :=
  let f := fmtD format
  if xs.all (fun x => x = 0) then [0]
  else
    let raw := (1 : Byte) :: packElems f.bits xs
    let c1 := if deltaOk format then shorter (shorter raw (deltaRow f false xs)) (deltaRow f true xs) else raw
    shorter c1 ((3 : Byte) :: leBytes 8 (rowMask xs) ++ bitStream f.bits (xs.filter (fun x => x ≠ 0)))

/-- A raw tile (element bytes, then scale bytes) packed (R192, R193). -/
def packTile (t : TileFmt) (raw : List Byte) : List Byte :=
  let f := fmtD t.format
  let els := raw.take t.elemBytes
  let scs := (raw.drop t.elemBytes).take t.scaleBytes
  let coded := ((chunks 64 (8 * f.bits) els).flatMap (fun row => packRow t.format (unpackElems f.bits 64 row))) ++ scs
  let form := if (els ++ scs).all (fun b => b = 0) then 2 else if coded.length < t.raw then 1 else 0
  let body := if form = 2 then [] else if form = 1 then coded else els ++ scs
  let w0 := t.format + t.size * 16 + t.dir * 64 + b01 t.scaled * 128 + form * 256
  let all := wordsLE [w0, body.length, crc32 (els ++ scs), 0] ++ body
  all ++ List.replicate ((16 - all.length % 16) % 16) 0

/-- One row code read: the row's 64 elements and the bytes that follow, or none where R196 refuses it. -/
def unpackRow (format : Nat) (bs : List Byte) : Option (List Nat × List Byte) :=
  let f := fmtD format
  match bs with
  | [] => none
  | h :: rest =>
    let hn := h.toNat
    let mode := bits hn 0 2
    if bitOf hn 7 then none
    else if mode = 0 then some (List.replicate 64 0, rest)
    else if mode = 1 then
      if rest.length < 8 * f.bits then none
      else some (unpackElems f.bits 64 (rest.take (8 * f.bits)), rest.drop (8 * f.bits))
    else if mode = 3 then
      let mask := fld rest 0 8
      let js := upto 64 (bitOf mask)
      let n := (js.length * f.bits + 7) / 8
      if rest.length < 8 + n then none
      else some (expand mask (bitRead f.bits js.length (rest.drop 8)), rest.drop (8 + n))
    else
      let d := bits hn 2 4
      let masked := bitOf hn 6
      if !deltaOk format || f.expBits < d then none
      else
        let b := fld rest 0 1
        let mask := if masked then fld rest 1 8 else 2 ^ 64 - 1
        let off := if masked then 9 else 1
        let js := upto 64 (bitOf mask)
        let w := 1 + d + f.frac
        let n := (js.length * w + 7) / 8
        if rest.length < off + n then none
        else
          let vs := bitRead w js.length (rest.drop off)
          if vs.any (fun v => 2 ^ f.expBits - 1 < b + bits v 1 d) then none
          else
            let el := fun v => bits v (1 + d) f.frac + (b + bits v 1 d) * 2 ^ f.frac + b01 (bitOf v 0) * 2 ^ (f.bits - 1)
            some (expand mask (vs.map el), rest.drop (off + n))
where
  /-- Values put at the positions that a mask names, zeros elsewhere. -/
  expand (mask : Nat) (vs : List Nat) : List Nat :=
    ((List.range 64).foldl (fun (acc : List Nat × List Nat) j =>
      if bitOf mask j then (acc.1 ++ [acc.2.headD 0], acc.2.drop 1) else (acc.1 ++ [0], acc.2)) ([], vs)).1

/-- `n` row codes read one after another. -/
def unpackRows (format : Nat) : Nat → List Byte → Option (List Nat × List Byte)
  | 0, bs => some ([], bs)
  | n + 1, bs => do
    let (xs, rest) ← unpackRow format bs
    let (ys, rest') ← unpackRows format n rest
    pure (xs ++ ys, rest')

/-- BODY_LENGTH of a compressed tile's header. -/
def bodyLength (bs : List Byte) : Nat := wb bs 1 0 17

/-- The bytes that a compressed tile occupies (R192). -/
def packedSize (bs : List Byte) : Nat := (16 + bodyLength bs + 15) / 16 * 16

/-- A compressed tile unpacked to its raw bytes, or none where R196 refuses it. -/
def unpackTile (t : TileFmt) (bs : List Byte) : Option (List Byte) := do
  let w0 := wd bs 0
  let form := bits w0 8 2
  let body := (bs.drop 16).take (bodyLength bs)
  if !t.ok || bits w0 0 4 ≠ t.format || bitOf w0 7 ≠ t.scaled || bits w0 4 2 ≠ t.size || bits w0 6 1 ≠ t.dir || body.length < bodyLength bs then none
  else
    let raw ← (if form = 2 then (if body = [] then some (List.replicate t.raw 0) else none)
      else if form = 0 then (if body.length = t.raw then some body else none)
      else if form = 1 then do
        let (xs, rest) ← unpackRows t.format 64 body
        if rest.length = t.scaleBytes then some (packElems (fmtD t.format).bits xs ++ rest) else none
      else none)
    if crc32 raw = wd bs 2 then some raw else none

/-- The header walk of a packed sequence (R197): the offsets of `n` compressed tiles and the sequence's length. -/
def packedWalk (bs : List Byte) : Nat → Nat → List Nat × Nat
  | 0, off => ([], off)
  | n + 1, off =>
    let r := packedWalk bs n (off + packedSize (bs.drop off))
    (off :: r.1, r.2)

end Sys2Proof.Machine
end

