-- ==== Sys2Proof/Machine/Tensors.lean ====
section
/-! DEFINITION. Tensor tables (R162): records, their tiles and the memory regions that they name. -/

namespace Sys2Proof.Machine

/-- A tensor record: its 64 bytes. -/
abbrev TensorRec := List Byte

/-- The record's KEEP. -/
def trKeep (r : TensorRec) : Nat := wb r 0 12 2
/-- The record's RULE. -/
def trRule (r : TensorRec) : Nat := wb r 0 22 3
/-- The record's RULE_SET. -/
def trSet (r : TensorRec) : Nat := wb r 0 25 6
/-- The working tile form. -/
def trForm (r : TensorRec) : TileFmt := ⟨wb r 0 14 4, wb r 0 18 1 = 1, wb r 0 19 2, wb r 0 21 1⟩
/-- ROWS. -/
def trRows (r : TensorRec) : Nat := wb r 1 0 24
/-- COLS. -/
def trCols (r : TensorRec) : Nat := wb r 2 0 24
/-- HOME_CORE. -/
def trHome (r : TensorRec) : Nat := wb r 1 24 7
/-- STAGE. -/
def trStage (r : TensorRec) : Nat := wb r 3 0 12
/-- VARIANT. -/
def trVariant (r : TensorRec) : Nat := wb r 3 12 6
/-- A 48-bit base address from word `i`. -/
def trBase (r : TensorRec) (i : Nat) : Nat := fld r (4 * i) 6

/-- Tile columns of a tensor. -/
def trTC (r : TensorRec) : Nat := (trCols r + 63) / 64
/-- Tile rows of a tensor. -/
def trTR (r : TensorRec) : Nat := (trRows r + 63) / 64
/-- Tiles of a tensor. -/
def trTiles (r : TensorRec) : Nat := trTR r * trTC r

/-- Dense FP32 tiles of an n × n square, in bytes. -/
def squareBytes (n : Nat) : Nat := ((n + 63) / 64) * ((n + 63) / 64) * 16384

/-- The largest preconditioned side, FACTOR_DIM_MAX (R177). -/
def factorDimMax : Nat := 8192

/-- Bytes of the factors at AUX_BASE: L, R, P_L, P_R, the kept sides only (R162, R177). -/
def auxBytes (r : TensorRec) : Nat :=
  2 * ((if trRows r ≤ factorDimMax then squareBytes (trRows r) else 0)
    + (if trCols r ≤ factorDimMax then squareBytes (trCols r) else 0))

/-- The memory regions that a record names: base and length (R162). -/
def trRegions (r : TensorRec) : List (Nat × Nat) :=
  let n := trTiles r
  [(trBase r 4, n * (trForm r).stride)]
    ++ (if trKeep r = 0 then [(trBase r 6, n * 16384)] else [])
    ++ (if trRule r ≠ 0 then [(trBase r 8, 64 + n * 16384)] else [])
    ++ (if trRule r = 2 then [(trBase r 10, n * 16384)] else [])
    ++ (if trKeep r = 2 then [(trBase r 12, n * 4096)] else [])
    ++ (if trRule r = 5 then [(trBase r 14, auxBytes r)] else [])

/-- The tensor records of a table. -/
def tensorRecs (table : List Byte) : List TensorRec := records 64 table

/-- The tensor table of a die: the committed one, which a commit changes only where the update unit latches it (R165). -/
def State.tensorTable (s : State) (die : Nat) : List TensorRec := tensorRecs (s.blob 0x4100 die)

/-- The record of a tensor index in a die's table. -/
def State.tensor (s : State) (die t : Nat) : Option TensorRec := (s.tensorTable die).find? (fun r => wb r 0 0 12 = t)

/-- The dies of the part. -/
def State.dies (s : State) : List Nat := List.range s.part.dies

/-- The home die of the tensor record that covers an address. -/
def State.tensorDie (s : State) (a : Nat) : Option Nat :=
  s.dies.find? (fun d => (s.tensorTable d).any (fun r => (trRegions r).any (fun g => g.1 ≤ a && a < g.1 + g.2)))

end Sys2Proof.Machine
end

