-- ==== Sys2Proof/Machine/Memory.lean ====
section
/-! DEFINITION. Tiered memory (R186 to R191, R198, R199, R201, R204 to R206, R210): pages and pieces of an access, frames and
their allocation, heat and lead, reads and writes. -/

namespace Sys2Proof.Machine

/-! Tile regions, pages and pieces. -/

/-- A tile region record (R188). -/
structure Region where
  base  : Nat
  tiles : Nat
  form  : TileFmt
deriving DecidableEq, Repr

/-- A tile region from its 16 bytes. -/
def regionOf (b : List Byte) : Region := ⟨fld b 0 6, wd b 2, ⟨wb b 3 0 4, wb b 3 4 1 = 1, wb b 3 5 2, wb b 3 7 1⟩⟩

/-- The first address past a region. -/
def Region.stop (r : Region) : Nat := r.base + r.tiles * r.form.stride

/-- The committed tile regions. -/
def State.regions (s : State) : List Region := (records 16 (s.blob 0x6010 0)).map regionOf

/-- The region that holds an address. -/
def State.regionAt (s : State) (a : Nat) : Option Region := s.regions.find? (fun r => r.base ≤ a && a < r.stop)

/-- A part of an access within one page, and within one tile of a tile page. -/
structure Piece where
  key  : Nat
  addr : Nat
  len  : Nat
  /-- The tile's address and region. -/
  tile : Option (Nat × Region)
deriving DecidableEq, Repr

/-- The page key of an address: twice the page's first address, plus 1 for a tile page. -/
def State.pageKey (s : State) (a : Nat) : Nat :=
  match s.regionAt a with
  | some r => 2 * (r.base + (a - r.base) / r.form.stride / 16 * 16 * r.form.stride) + 1
  | none => 2 * (a / 65536 * 65536)

/-- The piece of an access that begins at an address and covers at most `n` bytes. -/
def State.pieceAt (s : State) (a n : Nat) : Piece :=
  match s.regionAt a with
  | some r =>
    let t := r.base + (a - r.base) / r.form.stride * r.form.stride
    ⟨s.pageKey a, a, Nat.min n (t + r.form.stride - a), some (t, r)⟩
  | none =>
    let next := s.regions.foldl (fun m r => if a < r.base ∧ r.base < m then r.base else m) ((a / 65536 + 1) * 65536)
    ⟨s.pageKey a, a, Nat.min n (next - a), none⟩

/-- An access cut in pieces; `fuel` bounds their number. -/
def State.pieces (s : State) : Nat → Nat → Nat → List Piece
  | 0, _, _ => []
  | fuel + 1, a, n =>
    if n = 0 then []
    else
      let p := s.pieceAt a n
      p :: s.pieces fuel (a + p.len) (n - p.len)

/-- The pieces of an access. -/
def State.access (s : State) (a n : Nat) : List Piece := s.pieces n a n

/-- A page, if it is mapped. -/
def State.page (s : State) (key : Nat) : Option Page := mget none s.mem.pages key

/-- A page set. -/
def State.setPage (s : State) (key : Nat) (p : Option Page) : State :=
  { s with mem := { s.mem with pages := mset none s.mem.pages key p } }

/-- The tiles of the tile page with a key, or 0 for a plain page. -/
def State.keyTiles (s : State) (key : Nat) : Nat :=
  if key % 2 = 0 then 0
  else match s.regionAt (key / 2) with
    | some r => Nat.min 16 ((r.stop - key / 2) / r.form.stride)
    | none => 0

/-- Sectors of the frame of a page (R189). -/
def State.keySectors (s : State) (key : Nat) : Nat :=
  if key % 2 = 0 then 16
  else match s.regionAt (key / 2) with
    | some r => (s.keyTiles key * (r.form.stride + 64) + 4095) / 4096
    | none => 16

/-- The logical bytes that a page may hold: from its first address to one past its last. -/
def State.keyStop (s : State) (key : Nat) : Nat :=
  if key % 2 = 0 then key / 2 + 65536
  else match s.regionAt (key / 2) with
    | some r => key / 2 + s.keyTiles key * r.form.stride
    | none => key / 2

/-- The cells of a page. -/
def State.pageCells (s : State) (key : Nat) : List Host.Cell :=
  s.mem.cells.filter (fun c => key / 2 ≤ c.1 && c.1 < s.keyStop key && s.pageKey c.1 = key)

/-- The cells without those of a page. -/
def State.dropCells (s : State) (key : Nat) : List Host.Cell :=
  s.mem.cells.filter (fun c => !(key / 2 ≤ c.1 && c.1 < s.keyStop key && s.pageKey c.1 = key))

/-- A HINTS record that applies to a page: HINT, PIN and PIN_DIE (R202). -/
def State.hintOf (s : State) (key : Nat) : Nat × Nat × Nat :=
  match (records 16 (s.blob 0x6011 0)).find? (fun b => fld b 0 6 < s.keyStop key && key / 2 < fld b 0 6 + 65536 * wd b 2) with
  | some b => (wb b 3 0 2, wb b 3 2 2, wb b 3 4 3)
  | none => (0, 0, 0)

/-! Frames. -/

/-- Sectors of a stack outside its system region (R189). -/
def stackSectors : Nat := 16711680

/-- Sectors of the installed Backwater in use (R211, R214). -/
def State.bwSectors (s : State) : Nat :=
  ((List.range 12).filter (fun i => bitOf (s.obj 0x6001 2) i)).length * s.obj 0x6001 4 * s.obj 0x6001 3 * 2 ^ 18

/-- Sectors of a tier. -/
def State.tierSectors (s : State) (tier : Nat) : Nat := if tier = tierBw then s.bwSectors else stackSectors

/-- The last address of tiered memory plus one: the limit of R13. -/
def State.tieredLimit (s : State) : Nat := (s.part.stacks * stackSectors + s.bwSectors) * 4096

/-- Frames in use: of pages, of moves, of retained pages with their moves, and of what is kept for other positions. -/
def State.frames (s : State) : List Frame :=
  let own := fun (p : Page) => p.frame :: (match p.move with
    | some f => [f]
    | none => [])
  s.mem.pages.flatMap (fun e => match e.2 with
    | some p => own p
    | none => [])
  ++ s.mem.retained.flatMap (fun e => match e.2 with
    | some r => own r.page
    | none => [])
  ++ (s.buddy.copies.flatMap (fun (c : Copy) =>
      (c.images.flatMap (fun (i : Nat × List BuddyPage × List Byte) => i.2.1) ++ (match c.coming with
        | some x => x.2
        | none => [])).map (fun (p : BuddyPage) => p.frame))).eraseDups
  ++ s.ckpt.kept.map (fun (k : KeptShard) => k.frame)

/-- Retired sectors of a tier. -/
def State.retiredIn (s : State) (tier : Nat) : List Nat := mget [] s.mem.retired tier

/-- Free sectors of a tier. -/
def State.freeSectors (s : State) (tier : Nat) : Nat :=
  s.tierSectors tier - (s.retiredIn tier).length
    - (s.frames.foldl (fun n f => if f.tier = tier then n + f.sectors else n) 0)

/-- An interval put in a list that rises by first sector. -/
def ivIns (x : Nat × Nat) : List (Nat × Nat) → List (Nat × Nat)
  | [] => [x]
  | y :: l => if x.1 < y.1 then x :: y :: l else y :: ivIns x l

/-- Free runs of at least `need` sectors between the used intervals, from sector `at'`. -/
def gapsFrom (need total : Nat) : Nat → List (Nat × Nat) → List (Nat × Nat)
  | a, [] => if a + need ≤ total then [(a, total - a)] else []
  | a, (f, n) :: l =>
    let rest := gapsFrom need total (Nat.max a (f + n)) l
    if a + need ≤ f then (a, f - a) :: rest else rest

/-- Free runs of a tier that hold `need` sectors. -/
def State.gaps (s : State) (tier need : Nat) : List (Nat × Nat) :=
  let used := (s.frames.filter (fun f => f.tier = tier)).map (fun f => (f.first, f.sectors))
    ++ (s.retiredIn tier).map (fun k => (k, 1))
  gapsFrom need (s.tierSectors tier) 0 (used.foldl (fun l x => ivIns x l) [])

/-- A frame taken in a tier, leaving `reserve` sectors. Which free run holds it, and where in the run, are free values. -/
def State.allocIn (s : State) (tier need reserve : Nat) : Option (Frame × State) :=
  if s.freeSectors tier < need + reserve then none
  else
    let g := s.gaps tier need
    match g with
    | [] => none
    | x :: _ =>
      let run := g.getD (Config.freeNat s.free % g.length) x
      some (⟨tier, run.1 + Config.freeNat (s.free + 1) % (run.2 - need + 1), need⟩, { s with free := s.free + 2 })

/-- A die of the part that is not fenced (R317). -/
def State.dieUp (s : State) (d : Nat) : Bool := d < s.part.dies && s.obj 0x8010 d = 0

/-- Sectors of one stack that the snapshot reserve holds back (R199, R205). -/
def State.reserveOf (s : State) (agent : Agent) : Nat :=
  match agent with
  | .update _ => 0
  | _ => s.obj 0x6013 1 * 2 ^ 18 / s.part.stacks

/-- A frame on a die: in the stack of its pair with more free sectors, the lower on a tie; else in the other (R199). -/
def State.allocOnDie (s : State) (d need reserve : Nat) : Option (Frame × State) :=
  if s.dieUp d then
    let a := 2 * d
    let b := 2 * d + 1
    let hi := if s.freeSectors a < s.freeSectors b then b else a
    let lo := if hi = a then b else a
    match s.allocIn hi need reserve with
    | some r => some r
    | none => s.allocIn lo need reserve
  else none

/-- The order in which dies are tried from a first one: the ring neighbours, lower-numbered first, then every other. -/
def State.dieOrder (s : State) (d : Nat) : List Nat :=
  let n := s.part.dies
  let a := (d + 1) % n
  let b := (d + n - 1) % n
  let near := if a < b then [a, b] else [b, a]
  d :: near ++ s.dies.filter (fun x => x ≠ d && !near.contains x)

/-- A frame by R199, from a first die: its pair, its neighbours, the others, then Backwater. -/
def State.allocFrom (s : State) (agent : Agent) (d need : Nat) : Option (Frame × State) :=
  match (s.dieOrder d).findSome? (fun x => s.allocOnDie x need (s.reserveOf agent)) with
  | some r => some r
  | none => s.allocIn tierBw need 0

/-- The die on which R199 prefers a page's frame. -/
def State.preferDie (s : State) (agent : Agent) (key : Nat) : Nat :=
  let h := s.hintOf key
  if h.2.1 = 2 then h.2.2
  else match agent.die with
    | some d => d
    | none => match s.tensorDie (key / 2) with
      | some d => d
      | none => key / 2 / 65536 % s.part.dies

/-- Sectors that a freed frame retires: those of its poisoned lines, and those due by R320. -/
def State.freeFrame (s : State) (f : Frame) (poison : List Nat) : State :=
  let due := s.mem.retireDue.filter (fun l => l / 2 ^ 40 = f.tier && f.first ≤ l % 2 ^ 40 / 64 && l % 2 ^ 40 / 64 < f.first + f.sectors)
  let gone := poison.map (fun l => f.first + l / 64) ++ due.map (fun l => l % 2 ^ 40 / 64)
  if gone = [] then s
  else { s with mem := { s.mem with
    retired := mset [] s.mem.retired f.tier (gone.foldl sIns (s.retiredIn f.tier)),
    retireDue := s.mem.retireDue.filter (fun l => !due.contains l) } }

/-! Moves (R200, R204). -/

/-- A demotion of a page started: a frame taken in Backwater. -/
def State.demotePage (s : State) (order key : Nat) (p : Page) : State :=
  match s.allocIn tierBw p.frame.sectors 0 with
  | some (f, s') => s'.setPage key (some { p with move := some f, order := order })
  | none => s

/-- A demotion of a retained page started. -/
def State.demoteRetained (s : State) (order i : Nat) (r : Retained) : State :=
  match s.allocIn tierBw r.page.frame.sectors 0 with
  | some (f, s') =>
    { s' with mem := { s'.mem with
      retained := mset none s'.mem.retained i (some { r with page := { r.page with move := some f, order := order } }) } }
  | none => s

/-- The floor of a die in sectors, FREE_FLOOR_PCT of its stack pair (R200). -/
def State.floorSectors (s : State) : Nat := s.obj 0x6013 2 * (2 * stackSectors) / 100

/-- Free sectors of a die's pair. -/
def State.dieFree (s : State) (d : Nat) : Nat := s.freeSectors (2 * d) + s.freeSectors (2 * d + 1)

/-- Sectors that moves under way will free on a die. -/
def State.dieLeaving (s : State) (d : Nat) : Nat :=
  let count := fun (n : Nat) (p : Page) => if p.frame.tier / 2 = d ∧ p.frame.tier ≠ tierBw ∧ p.move ≠ none then n + p.frame.sectors else n
  s.mem.retained.foldl (fun n e => match e.2 with
    | some r => count n r.page
    | none => n) (s.mem.pages.foldl (fun n e => match e.2 with
    | some p => count n p
    | none => n) 0)

/-- A victim of row 2 of *Placement decisions*: its rank in the order and what it is. -/
structure Victim where
  rank : Nat
  kept : Bool
  id   : Nat
deriving DecidableEq, Repr

/-- A victim put in order. -/
def victimIns (x : Victim) : List Victim → List Victim
  | [] => [x]
  | y :: l => if x.rank < y.rank then x :: y :: l else y :: victimIns x l

/-- The victims of row 2 on a die, in order: shadow pages, snapshot-held pages, COLD pages, unhinted and STREAM pages by
ascending heat, HOT pages by ascending heat; the lower address first on a tie. -/
def State.victims (s : State) (d : Nat) : List Victim :=
  let here := fun (p : Page) => p.frame.tier ≠ tierBw && p.frame.tier / 2 = d && p.move = none && p.later = []
  let rank := fun (cls heat addr : Nat) => (cls * 2 ^ 16 + heat) * 2 ^ 48 + addr
  let kept := s.mem.retained.filterMap (fun e => match e.2 with
    | some r => if here r.page then some (⟨rank (if r.snap then 1 else 0) 0 (r.key / 2), true, e.1⟩ : Victim) else none
    | none => none)
  let live := s.mem.pages.filterMap (fun e => match e.2 with
    | some p =>
      let h := s.hintOf e.1
      if here p && h.2.1 = 0 && !p.held then
        some (⟨(if h.1 = 2 then rank 2 0 (e.1 / 2) else rank (if h.1 = 1 then 4 else 3) p.heat (e.1 / 2)), false, e.1⟩ : Victim)
      else none
    | none => none)
  (kept ++ live).foldl (fun l v => victimIns v l) []

/-- Row 2 on a die: while its free sectors are below the floor, demotions start until they will reach twice the floor.
`order` is 0 where an allocation forces them, else the epoch close that decides them. -/
def State.demoteBelow (s : State) (order d : Nat) : State :=
  if s.dieFree d + s.dieLeaving d < s.floorSectors then
    (s.victims d).foldl (fun t v =>
      if t.dieFree d + t.dieLeaving d < 2 * t.floorSectors then
        if v.kept then
          match mget none t.mem.retained v.id with
          | some r => t.demoteRetained order v.id r
          | none => t
        else match t.page v.id with
          | some p => t.demotePage order v.id p
          | none => t
      else t) s
  else s

/-- An allocation made: one that takes a die below its floor runs row 2 at once (R200). -/
def settleAlloc : Option (Frame × State) → Option (Frame × State)
  | some (f, t) => some (f, if f.tier = tierBw then t else t.demoteBelow 0 (f.tier / 2))
  | none => none

/-- A frame on a die that leaves the die at or above its floor (R200). -/
def State.allocAboveFloor (s : State) (d need : Nat) : Option (Frame × State) :=
  if s.dieFree d < s.floorSectors + need then none else s.allocOnDie d need (s.reserveOf .hub)

/-- A frame by R199 in the stacks, from a first die. -/
def State.allocStacks (s : State) (d need : Nat) : Option (Frame × State) :=
  (s.dieOrder d).findSome? (fun x => s.allocOnDie x need (s.reserveOf .hub))

/-- A fresh frame for a page by R199. -/
def State.allocFor (s : State) (agent : Agent) (key : Nat) : Option (Frame × State) :=
  settleAlloc (s.allocFrom agent (s.preferDie agent key) (s.keySectors key))

/-- A mapped page's record at its first write. -/
def freshPage (f : Frame) (step : Nat) : Page :=
  { frame := f, lead := 0, leadCnt := 0, prevCnt := 0, heat := 0, acc := 0, written := step % 2 ^ 32, poison := [],
    held := false, demand := none, fetched := false, move := none, order := 0, later := [], damaged := [], fresh := false, old := none }

/-- The key of a line of a tier among the symbol errors and the scrub marks. -/
def lineId (tier line : Nat) : Nat := 2 ^ 40 * tier + line

/-- A frame written in whole: every line of it is a new code word. -/
def State.fillFrame (s : State) (f : Frame) : State :=
  if s.mem.errors = [] then s
  else
    let a := lineId f.tier (64 * f.first)
    { s with mem := { s.mem with errors := s.mem.errors.filter (fun e => !(a ≤ e.1 && e.1 < a + 64 * f.sectors)) } }

/-- A page mapped if it is not (R187, R199). -/
def State.mapPage (s : State) (agent : Agent) (key : Nat) : Option State :=
  match s.page key with
  | some _ => some s
  | none => match s.allocFor agent key with
    | some (f, s') => some ((s'.fillFrame f).setPage key (some (freshPage f s.job.step)))
    | none => none

/-- A page unmapped: its frame and that of its move freed, its cells gone. -/
def State.unmapPage (s : State) (key : Nat) : State :=
  match s.page key with
  | none => s
  | some p =>
    let s1 := { s with mem := { s.mem with cells := s.dropCells key } }.setPage key none
    s1.freeFrame p.frame p.poison

/-! Errors. -/

/-- The UE counter of a tier. -/
def State.countUe (s : State) (tier : Nat) : State :=
  if tier = tierBw then s.addObj 0x6025 0 64 1 else s.addObj 0x6023 tier 64 1

/-- The CE counter of a tier. -/
def State.countCe (s : State) (tier : Nat) : State :=
  if tier = tierBw then s.addObj 0x6024 0 64 1 else s.addObj 0x6022 tier 64 1

/-- The MEM_UE package fault for a logical address; self-lost in a region that a tensor record names (R210, R309). -/
def State.memUe (s : State) (a : Nat) : State :=
  s.event { code := 0x0403, cls := .fault, selfLost := (s.tensorDie a).isSome, d0 := a % 2 ^ 32, d1 := a / 2 ^ 32 % 65536 }

/-- The tier of a mapped page's frame. -/
def State.tierOf (s : State) (key : Nat) : Nat :=
  match s.page key with
  | some p => p.frame.tier
  | none => 0

/-- MEM_FULL, DEGRADED, or a package fault when an update unit raises it (R206). -/
def State.memFull (s : State) (agent : Agent) : State :=
  match agent with
  | .update d => s.event { code := 0x0406, cls := .fault, die := d }
  | .core c => s.event (Event.at { code := 0x0406, cls := .degraded } c)
  | .hub => s.event { code := 0x0406, cls := .degraded, die := 8 }

/-! Access: lines, heat and lead (R189, R198). -/

/-- The raw bytes of a tile, as the cells hold them. -/
def State.tileRaw (s : State) (t : Nat) (r : Region) : List Byte := rdBytes s.mem.cells t r.form.raw

/-- The frame lines that an access of a piece fetches or writes: the first and their number. -/
def State.pieceLines (s : State) (p : Piece) : Nat × Nat :=
  match p.tile with
  | none => ((p.addr - p.key / 2) / 64, (p.addr + p.len - 1) / 64 - p.addr / 64 + 1)
  | some (t, r) =>
    ((t - p.key / 2) / r.form.stride * ((r.form.stride + 64) / 64), (16 + bodyLength (packTile r.form (s.tileRaw t r)) + 63) / 64)

/-- LEAD and LEAD_CNT after one access from die `d` (R198). -/
def leadStep (d : Nat) (x : Nat × Nat) : Nat × Nat :=
  if x.1 = d then (d, if x.2 < 255 then x.2 + 1 else 255) else if x.2 = 0 then (d, 1) else (x.1, x.2 - 1)

/-- A page after line accesses from a compute die; HD units count toward neither heat nor lead (R198). -/
def Page.touch (p : Page) (die : Option Nat) (lines : Nat) : Page :=
  match die with
  | none => p
  | some d =>
    let x := forN lines (p.lead, p.leadCnt) (fun x _ => leadStep d x)
    { p with lead := x.1, leadCnt := x.2, acc := Nat.min 65535 (p.acc + lines) }

/-! Lines read through their code (R209, R212). -/

/-- The code of a tier. -/
def tierCode (tier : Nat) : LineCode := if tier = tierBw then bwCode else stackCode

/-- The symbols of a line of a tier as it stands in memory: in Backwater encrypted under the key of slot 2 with the line's
index as the tweak, then encoded (R209, R212). -/
def State.lineWord (s : State) (tier line : Nat) (data : List Byte) : List Nat :=
  let d := (if tier = tierBw then Config.xtsEncrypt (mget 0 s.sec.keyGen 2) line data else data).map (fun b => b.toNat)
  d ++ (tierCode tier).check d

/-- The data of a line from its symbols: the inverse order. -/
def State.lineData (s : State) (tier line : Nat) (word : List Nat) : List Byte :=
  let d := (word.take 64).map (fun x => BitVec.ofNat 8 x)
  if tier = tierBw then Config.xtsDecrypt (mget 0 s.sec.keyGen 2) line d else d

/-- What a decoder has left wrong of a line of a page with some contents: a tile page's line is damaged, so that RAW_CRC refuses
its tile (R196); a plain page's bytes are those that the wrong symbols decode to. -/
def State.damageLine (s : State) (key l : Nat) (x : Page × List Host.Cell) (left : SMap Nat) : Page × List Host.Cell :=
  if left = [] then x
  else if key % 2 = 1 then ({ x.1 with damaged := sIns x.1.damaged l }, x.2)
  else
    let a := key / 2 + 64 * l
    let line := 64 * x.1.frame.first + l
    let word := s.lineWord x.1.frame.tier line (rdBytes x.2 a 64)
    let bad := word.zipIdx.map (fun y => y.1 ^^^ mget 0 left y.2)
    (x.1, wrBytes x.2 a (s.lineData x.1.frame.tier line bad))

/-- A line of a frame read (R209), for the page that it holds, with its contents: corrected, written back and counted, or
poisoned. -/
def State.readLine (s : State) (key l : Nat) (x : Page × List Host.Cell) : (Page × List Host.Cell) × State :=
  let id := lineId x.1.frame.tier (64 * x.1.frame.first + l)
  let s1 := { s with mem := { s.mem with errors := mset [] s.mem.errors id [] } }
  match mget [] s.mem.errors id with
  | [] => (x, s)
  | e => match (tierCode x.1.frame.tier).decode e with
    | .clean left => (s.damageLine key l x left, s1)
    | .corrected left => (s.damageLine key l x left, s1.countCe x.1.frame.tier)
    | .uncorrectable => (({ x.1 with poison := sIns x.1.poison l }, x.2), s1)

/-- The lines of a frame, from a first one, in which symbol errors stand. -/
def State.errorLines (s : State) (f : Frame) (first n : Nat) : List Nat :=
  let a := lineId f.tier (64 * f.first) + first
  s.mem.errors.filterMap (fun e => if a ≤ e.1 ∧ e.1 < a + n then some (e.1 - a + first) else none)

/-- Lines of a mapped page read. -/
def State.readLines (s : State) (key first n : Nat) : State :=
  match s.page key with
  | none => s
  | some pg => (s.errorLines pg.frame first n).foldl (fun t l =>
      let r := t.readLine key l ((t.page key).getD pg, t.mem.cells)
      { r.2 with mem := { r.2.mem with cells := r.1.2 } }.setPage key (some r.1.1)) s

/-- Every line of a retained page's frame read. -/
def State.readKept (s : State) (i : Nat) (k : Retained) : Retained × State :=
  let r := (s.errorLines k.page.frame 0 (64 * k.page.frame.sectors)).foldl (fun (x : (Page × List Host.Cell) × State) l =>
    x.2.readLine k.key l x.1) ((k.page, k.cells), s)
  let k1 := { k with page := r.1.1, cells := r.1.2 }
  (k1, { r.2 with mem := { r.2.mem with retained := mset none r.2.mem.retained i (some k1) } })

/-- The lines of some pieces read. -/
def State.readPieces (s : State) (ps : List Piece) : State :=
  ps.foldl (fun t p => let l := t.pieceLines p; t.readLines p.key l.1 l.2) s

/-- Pieces whose lines hold no symbol error read through the code as they stand. -/
theorem State.readPieces_clean (s : State) (ps : List Piece) (h : s.mem.errors = []) : s.readPieces ps = s := by
  have one : ∀ k a n, s.readLines k a n = s := by
    intro k a n
    unfold State.readLines
    split <;> simp [State.errorLines, h]
  induction ps with
  | nil => rfl
  | cons p ps ih => simpa [State.readPieces, one] using ih

/-- A piece of a tile page meets a line that resolved wrongly (R196, R209). -/
def State.pieceDamaged (s : State) (p : Piece) : Bool :=
  match s.page p.key with
  | none => false
  | some pg =>
    let l := s.pieceLines p
    pg.damaged.any (fun x => l.1 ≤ x && x < l.1 + l.2)

/-- A PACK_CHECK event for a device address (R196). -/
def State.packCheck (s : State) (e : Event) (a : Nat) : State :=
  s.event { e with code := 0x0405, cls := .degraded, d0 := a % 2 ^ 32, d1 := a / 2 ^ 32 % 65536 }

/-- A piece of a mapped page meets a poisoned line. -/
def State.piecePoisoned (s : State) (p : Piece) : Bool :=
  match s.page p.key with
  | none => false
  | some pg =>
    let l := s.pieceLines p
    pg.poison.any (fun x => l.1 ≤ x && x < l.1 + l.2)

/-- The fenced die on whose stack a piece's page lives. -/
def State.pieceFenced (s : State) (p : Piece) : Option Nat :=
  match s.page p.key with
  | none => none
  | some pg => if pg.frame.tier ≠ tierBw ∧ !s.dieUp (pg.frame.tier / 2) then some (pg.frame.tier / 2) else none

/-- A piece's page is in Backwater, and its data have not arrived. -/
def State.pieceBelow (s : State) (p : Piece) : Bool :=
  match s.page p.key with
  | none => false
  | some pg => pg.frame.tier = tierBw && !pg.fetched

/-- An access of a piece must wait for a promotion (R183, R184, R201, R208): its page is in Backwater and its data have not
arrived. A tile mover reads a page hinted STREAM where it lies; an update unit needs every state page in the stacks. -/
def State.pieceWaits (s : State) (agent : Agent) (p : Piece) : Bool :=
  s.pieceBelow p && (match agent with
    | .update _ => true
    | _ => (s.hintOf p.key).1 ≠ 3)

/-- A page on its way: a move, or a demand promotion (R201, R204). -/
def Page.moving (p : Page) : Bool := p.move.isSome || p.demand.isSome

/-- Every page that an access waits for becomes a demand promotion for the place that R199 prefers; one that is moving already
ends its move first (R204). -/
def State.demandPages (s : State) (agent : Agent) (ps : List Piece) : State :=
  ps.foldl (fun t p => match t.page p.key with
    | some pg => if t.pieceWaits agent p ∧ !pg.moving then t.setPage p.key (some { pg with demand := some (t.preferDie agent p.key) }) else t
    | none => t) s

/-- The first access of a page hinted HOT in Backwater makes it a demand promotion, for a unit of HD too (R201). -/
def State.demandHot (s : State) (agent : Agent) (key : Nat) (p : Page) : Page :=
  if p.frame.tier = tierBw ∧ (s.hintOf key).1 = 1 ∧ !p.moving ∧ !p.fetched then { p with demand := some (s.preferDie agent key) } else p

/-- A decision that waited for a page's move to end takes its turn (R204): the first one whose place is not the page's own. -/
def State.startLater (s : State) (key : Nat) : State :=
  match s.page key with
  | none => s
  | some p =>
    let away := fun (x : Option Nat × Nat) => match x.1 with
      | some d => decide (p.frame.tier = tierBw ∨ p.frame.tier / 2 ≠ d)
      | none => decide (p.frame.tier ≠ tierBw)
    let q := p.later.dropWhile (fun x => !away x)
    let p1 := { p with later := q.drop 1 }
    match q.head? with
    | none => s.setPage key (some p1)
    | some (none, o) => (s.setPage key (some p1)).demotePage o key p1
    | some (some d, o) =>
      let pin := (s.hintOf key).2.1
      let n := p.frame.sectors
      match settleAlloc (if pin = 2 then s.allocOnDie d n (s.reserveOf .hub)
        else if pin = 1 ∨ o = 0 then s.allocStacks d n else s.allocAboveFloor d n) with
      | some (f, t) => t.setPage key (some { p1 with move := some f, order := o })
      | none => s.setPage key (some p1)

/-- A page's move or demand promotion is voided (R204); what waited for it goes on. -/
def State.voidMove (s : State) (key : Nat) : State :=
  match s.page key with
  | some p =>
    if p.moving then
      ((s.setPage key (some { p with move := none, demand := none })).addObj 0x6026 4 64 1).startLater key
    else s
  | none => s

/-- A read of a piece by a tile mover or an update unit voids a demotion of its page (R204). -/
def State.voidDemotion (s : State) (agent : Agent) (key : Nat) : State :=
  match s.page key with
  | some p => match p.move with
    | some f => if f.tier = tierBw ∧ p.frame.tier ≠ tierBw ∧ agent ≠ .hub then s.voidMove key else s
    | none => s
  | none => s

/-- The bytes of a piece: padding past a tile's raw bytes is not stored (R193). -/
def State.pieceBytes (s : State) (p : Piece) : List Byte :=
  let bs := rdBytes s.mem.cells p.addr p.len
  match p.tile, s.page p.key with
  | some (t, r), some _ =>
    let stored := t + r.form.raw - p.addr
    bs.take stored ++ (List.range (p.len - stored)).map (fun i => Config.padByte (p.addr + stored + i))
  | _, _ => bs

/-- A piece read: heat, lead, the line counters, and a demotion voided. An unmapped piece reads 0 and maps nothing. -/
def State.readPiece (s : State) (agent : Agent) (p : Piece) : List Byte × State :=
  let v := s.voidDemotion agent p.key
  match v.page p.key with
  | none => (List.replicate p.len 0, s)
  | some pg =>
    let l := s.pieceLines p
    let die := if (s.hintOf p.key).1 = 3 then none else agent.die
    let s1 := v.setPage p.key (some (({ v.demandHot agent p.key pg with fetched := false }).touch die l.2))
    (s.pieceBytes p, if p.tile = none then s1
      else (s1.addObj 0x6027 1 64 ((p.addr + p.len - 1) / 64 - p.addr / 64 + 1)).addObj 0x6027 2 64 l.2)

/-- A piece that a unit of HD reads. An uncorrectable line is not delivered: UE rises with a MEM_UE package fault (R210), and a
tile that RAW_CRC refuses is a PACK_CHECK (R196); what the unit then takes for the bytes is free. -/
def State.readPieceHub (s0 : State) (p : Piece) : List Byte × State :=
  let l := s0.pieceLines p
  let s := s0.readLines p.key l.1 l.2
  let lost := fun (t : State) => ((List.range p.len).map (Config.freeByte t.free), { t with free := t.free + 1 })
  if s.piecePoisoned p then lost ((s.countUe (s.tierOf p.key)).memUe p.addr)
  else if s.pieceDamaged p then lost (s.packCheck { code := 0, cls := .degraded, die := 8 } p.addr)
  else s.readPiece .hub p

/-- Bytes of tiered memory read piece by piece. Tile movers and update units have judged the lines before (R210). -/
def State.readTiered (s : State) (agent : Agent) (a n : Nat) : List Byte × State :=
  (s.access a n).foldl (fun x p =>
    let r := match agent with
      | .hub => x.2.readPieceHub p
      | _ => x.2.readPiece agent p
    (x.1 ++ r.1, r.2)) ([], s)

/-- A piece written in its mapped page (R191, R201, R204, R209): a move of the page is voided, a line written in part is read
first, lines written whole are new code words and no longer poisoned, and a Backwater page hinted HOT becomes a demand
promotion at its first access. -/
def State.writePiece (s : State) (agent : Agent) (p : Piece) (bs : List Byte) : State :=
  let s0 := s.voidMove p.key
  let asked := match s.page p.key with
    | some pg => !pg.moving
    | none => false
  match s0.page p.key with
  | none => s
  | some pg =>
    let kept := match p.tile with
      | some (t, r) => bs.take (t + r.form.raw - p.addr)
      | none => bs
    let s1 := { s0 with mem := { s0.mem with cells := wrBytes s0.mem.cells p.addr kept } }
    let l := s1.pieceLines p
    let whole := fun (x : Nat) => match p.tile with
      | some _ => decide (l.1 ≤ x ∧ x < l.1 + l.2)
      | none => decide (p.addr ≤ p.key / 2 + 64 * x ∧ p.key / 2 + 64 * x + 64 ≤ p.addr + p.len)
    let a := lineId pg.frame.tier (64 * pg.frame.first)
    let s2 := { s1 with mem := { s1.mem with errors := s1.mem.errors.filter (fun e => !(a ≤ e.1 && e.1 < a + 64 * pg.frame.sectors && whole (e.1 - a))) } }
    let pg1 := { pg with
      written := s.job.step % 2 ^ 32, poison := pg.poison.filter (fun x => !whole x), damaged := pg.damaged.filter (fun x => !whole x) }
    s2.setPage p.key (some ((if asked then s2.demandHot agent p.key pg1 else pg1).touch agent.die l.2))

/-- The piece covers its whole tile, or lies in no tile (R191). -/
def Piece.whole (p : Piece) : Bool :=
  match p.tile with
  | some (t, r) => p.addr = t && r.form.raw ≤ p.len
  | none => true

/-- A tile's merge lock is held (R191). -/
def State.locked (s : State) (t : Nat) : Bool := mget [] s.mem.locks t ≠ []

/-- Every page of an access mapped, or none when no frame is free in any tier (R206). -/
def State.mapAll (s : State) (agent : Agent) (ps : List Piece) : Option State :=
  ps.foldl (fun o p => match o with
    | some t => t.mapPage agent p.key
    | none => none) (some s)

/-! Merge locks (R191). -/

/-- A tile's lock queue set. -/
def State.setLock (s : State) (t : Nat) (q : List Merge) : State :=
  { s with mem := { s.mem with locks := mset [] s.mem.locks t q } }

/-- A write in a lock's queue covers its whole tile. -/
def Merge.whole (m : Merge) (t : Nat) (r : Region) : Bool := m.addr = t && r.form.raw ≤ m.bytes.length

/-- A partial write merged into its tile as it stands. -/
def State.mergeTile (s : State) (t : Nat) (r : Region) (m : Merge) : List Byte :=
  rdBytes (wrBytes (cellsOf t (s.tileRaw t r)) m.addr m.bytes) t r.form.raw

/-- A tile-mover descriptor has not retired. -/
def State.moveOpen (s : State) (c num : Nat) : Bool :=
  (s.core c).tmQ.begun.contains num || (s.core c).tmQ.waiting.any (fun d => d.num = num)

/-- The writer of a queued write still stands: its descriptor has not ended. -/
def State.mergeOpen (s : State) (m : Merge) : Bool :=
  match m.agent, m.desc with
  | .core c, some d => s.moveOpen c d.num
  | _, _ => true

/-- Some tile write of a descriptor is still in a lock's queue. -/
def State.merging (s : State) (c num : Nat) : Bool :=
  s.mem.locks.any (fun e => e.2.any (fun m => m.agent = .core c && m.desc.any (fun d => d.num = num)))

/-- A merged or whole tile written as one unit. -/
def State.landMerge (s : State) (t : Nat) (m : Merge) (bs : List Byte) : State :=
  if s.mergeOpen m then s.writePiece m.agent (s.pieceAt t bs.length) bs else s

/-- A descriptor whose last merge has landed retires. -/
def State.endMerge (s : State) (m : Merge) : State :=
  match m.agent, m.desc with
  | .core c, some d => if s.merging c d.num then s else s.onCore c (fun k => k.retire 3 d.num)
  | _, _ => s

/-- A partial write whose tile could not be read: the reading descriptor ends UNCORRECTABLE (R196, R210). -/
def State.failMerge (s : State) (m : Merge) : State :=
  match m.agent, m.desc with
  | .core c, some d => if s.moveOpen c d.num then s.failDesc c 3 d tokUncorrectable 0 else s
  | _, _ => s

/-- The event record of a unit's own event: on its core, on its die, or of HD. -/
def Agent.event (g : Agent) (e : Event) : Event :=
  match g with
  | .core c => Event.at e c
  | .update d => { e with die := d }
  | .hub => { e with die := 8 }

/-- The holder of a tile's lock reads the tile (R191). A tile in Backwater is a demand promotion that a tile mover and an
update unit wait for, with no merged tile yet (R201); none is a tile whose lines cannot be read (R196, R210). -/
def State.startMerge (s0 : State) (t : Nat) (r : Region) (m : Merge) : Option Merge × State :=
  let p := s0.pieceAt t r.form.raw
  let s := s0.readPieces [p]
  if s.piecePoisoned p then (none, (s.countUe (s.tierOf p.key)).memUe p.addr)
  else if s.pieceDamaged p then (none, s.packCheck (m.agent.event { code := 0, cls := .degraded }) p.addr)
  else if m.agent ≠ .hub ∧ s.pieceWaits m.agent p then (some { m with merged := none }, s.demandPages m.agent [p])
  else (some { m with merged := some (s.mergeTile t r m) }, (s.readPiece m.agent p).2)

/-- A lock's queue as it goes on once the lock is free: whole writes land, the next partial write takes the lock and reads the
tile, and one that cannot read it gives the lock up. -/
def State.runLock (s : State) (t : Nat) (r : Region) : List Merge → State
  | [] => s.setLock t []
  | m :: rest =>
    if m.whole t r then (((s.setLock t rest).landMerge t m (m.bytes.take r.form.raw)).endMerge m).runLock t r rest
    else match s.startMerge t r m with
      | (some m', s1) => s1.setLock t (m' :: rest)
      | (none, s1) => ((s1.setLock t rest).failMerge m).runLock t r rest

/-- A tile write put in the queue of its tile's lock; one that finds the lock free goes on at once. -/
def State.enqueueMerge (s : State) (t : Nat) (r : Region) (m : Merge) : State :=
  match mget [] s.mem.locks t with
  | [] => s.runLock t r [m]
  | q => s.setLock t (q ++ [m])

/-- A partial-tile write whose read, merge and write are one step, with the lock held for that step: a unit of HD, or an update
unit, whose commands wait for its pages and locks before they write. -/
def State.mergeNow (s : State) (t : Nat) (r : Region) (m : Merge) : State :=
  match s.startMerge t r m with
  | (some m', s1) => s1.landMerge t m (m'.merged.getD (s1.mergeTile t r m))
  | (none, s1) => s1

/-- A piece of a write by a unit of HD or an update unit (R191): a tile whose lock is held waits in its queue. -/
def State.writeThrough (s : State) (agent : Agent) (p : Piece) (bs : List Byte) : State :=
  match p.tile with
  | none => s.writePiece agent p bs
  | some (t, r) =>
    let m : Merge := ⟨agent, none, p.addr, bs, none⟩
    if s.locked t then s.enqueueMerge t r m
    else if p.whole then s.writePiece agent p bs
    else s.mergeNow t r m

/-- A write of tiered memory by a unit of HD or an update unit. None when no frame is free. -/
def State.writeTiered (s : State) (agent : Agent) (a : Nat) (bs : List Byte) : Option State :=
  let ps := s.access a bs.length
  match s.mapAll agent ps with
  | none => none
  | some s1 => some (ps.foldl (fun t p => t.writeThrough agent p ((bs.drop (p.addr - a)).take p.len)) s1)

end Sys2Proof.Machine
end

