-- ==== Sys2Proof/Machine/CoreCtl.lean ====
section
/-! DEFINITION. The control core's queue, summary, Oxbow, step and control instructions: DESC, WAIT and its return, QRD,
FTQRD, SETVL, GETVL, OXB, DRAIN, STEPEND, TOKRD and HALT (R143 to R156). -/

namespace Sys2Proof.Machine

/-- The opcodes that a work queue defines (R147). -/
def opcodeDefined (q op : Nat) : Bool :=
  match q with
  | 0 => op = 1 || op = 2
  | 1 => (1 ≤ op && op ≤ 0x0B) || (0x10 ≤ op && op ≤ 0x15) || (0x18 ≤ op && op ≤ 0x1A) || (0x20 ≤ op && op ≤ 0x24)
      || (0x28 ≤ op && op ≤ 0x2B) || op = 0x30
  | 2 => 1 ≤ op && op ≤ 9
  | 3 => 1 ≤ op && op ≤ 5
  | 4 => op = 1 || op = 2
  | 5 => op = 1 || op = 2
  | 6 => op = 1
  | _ => false

/-- The depth of a work queue (R147, R51). -/
def queueDepth : Nat → Nat
  | 0 => 16
  | 1 => 32
  | 2 => 16
  | 3 => 32
  | 4 => 64
  | 5 => 64
  | _ => 16

/-- The entries of a queue that count against its depth: per engine for the matrix queue, the drain hold included for
the send queue (R147, R149). -/
def CoreState.queueUsed (k : CoreState) (q engine : Nat) : Nat :=
  if q = 0 then (k.mxQ.waiting.filter (fun d => wb d.bytes 0 8 3 = engine)).length
  else if q = 4 then k.sendQ.waiting.length + k.drainHold.length + k.orderHold.length
  else (k.queue q).waiting.length

/-- A key for a stream side. -/
def sideKey (stream side : Nat) : Nat := 2 * stream + side

/-- The item holds a Sluice tile, or one of its RECVs has not retired (R154). -/
def Item.holds (i : Item) : Bool := !i.recvs.isEmpty || i.got.any (fun e => mget 0 i.rels e.1 < e.2)

/-- The current item holds a Sluice tile (R154). -/
def CoreState.itemHolds (k : CoreState) : Bool :=
  match k.item with
  | some i => i.holds
  | none => false

/-- A backward item has executed its OXB (R156). -/
def CoreState.oxbTwice (k : CoreState) : Bool :=
  match k.item with
  | some i => i.kind = .backward && i.oxbDone
  | none => false

/-- An issued RECV, REL or SEND carries the picked MB_ID of a forward or backward item (R153). -/
def CoreState.itemMatches (k : CoreState) (mbId : Nat) : Bool :=
  match k.item with
  | some i => (i.kind = .forward || i.kind = .backward) && i.mbId = mbId
  | none => false

/-- The stream side that a receive descriptor names, as a key. -/
def recvKey (bytes : List Byte) : Nat := sideKey (wb bytes 2 0 12) (wb bytes 2 12 1)

/-- What an issue changes in the current item: a RECV is noted until it retires, a REL covers its tiles (R154). A RECV of the
item is noted whatever MB_ID it names; a REL that names another one covers nothing. -/
def Item.issue (i : Item) (q op num : Nat) (bytes : List Byte) (bad : Bool) : Item :=
  if q = 5 ∧ op = 1 then { i with recvs := i.recvs ++ [num] }
  else if q = 5 ∧ op = 2 ∧ bad = false then
    { i with rels := mset 0 i.rels (recvKey bytes) (mget 0 i.rels (recvKey bytes) + wb bytes 2 13 10) }
  else i

/-- The 64 bytes of a descriptor as the queue receives them: a vector descriptor takes VL into word 10 [12:0] (R147). -/
def CoreState.descBytes (k : CoreState) (q a : Nat) : List Byte :=
  let b := k.sdmRead a 64
  if q = 1 then b.take 40 ++ leBytes 4 (setBits (wd b 10) 0 13 k.vl.toNat) ++ b.drop 44 else b

/-- The descriptor put in its queue, numbered, and the issue number written to RD (R147, R151). -/
def State.issue (s : State) (c q : Nat) (rd : Reg) (bytes : List Byte) : State :=
  let k := s.core c
  let op := wb bytes 0 0 8
  let num := (k.queue q).issued + 1
  let isRed := decide (q = 4 ∧ op = 2)
  let bad := (decide (q = 5) || decide (q = 4 ∧ op = 1)) && opcodeDefined q op && !k.itemMatches (wb bytes 1 0 16)
  let d : Desc := ⟨num, bytes, bad, if isRed then k.redIssued + 1 else 0⟩
  let v := k.queue q
  let k1 := k.setQueue q { v with issued := num, waiting := v.waiting ++ [d] }
  let k2 := { k1 with
    redIssued := if isRed then k1.redIssued + 1 else k1.redIssued,
    item := k1.item.map (fun (i : Item) => i.issue q op num bytes bad) }
  let s1 := s.setCore c (k2.setReg rd (BitVec.ofNat 64 num))
  if opcodeDefined q op then s1 else s1.failDesc c q d tokRange (detailField 0 0)

/-- DESC.q (R147): the 64 bytes at s[RA] into the queue. A full queue stalls the core, which leaves the state as it is;
queue code 7, a bad address, and a breach of R146 or R154 are PROGRAM_FAULTs. -/
def execDesc (core : Nat) (queue : BitVec 3) (rd ra : Reg) (s : State) : Res :=
  if s.runs core then
    let k := s.core core
    let q := queue.toNat
    let a := (k.reg ra).toNat
    if q = 7 then .next (s.programFault core causeReserved)
    else if a % 16 ≠ 0 then .next (s.programFault core causeDesc)
    else if 0x10000 < a + 64 then .next (s.programFault core causeMemory)
    else
      let bytes := k.descBytes q a
      let op := wb bytes 0 0 8
      if k.doneSpan ∧ ¬ (q = 4 ∧ op = 2) then .next (s.programFault core causeStructure)
      else if q = 4 ∧ (op = 1 ∨ op = 2) ∧ k.itemHolds then
        .next (s.programFault core causeStructure)
      else if queueDepth q ≤ k.queueUsed q (wb bytes 0 8 3) then .next s
      else .next ((s.issue core q rd bytes).advance core)
  else .next s

/-- WAIT.q (R151): the core waits for every descriptor numbered s[RA] or lower. -/
def execWait (core : Nat) (queue : BitVec 3) (rd ra : Reg) (s : State) : Res :=
  if s.runs core then
    .next (s.onCore core (fun k => { k with waiting := .wait queue.toNat (k.reg ra).toNat rd }))
  else .next s

/-- RSENDs that have left the send queue and have not retired: those in the drain hold and those in an order wait (R57, R219). -/
def CoreState.heldSends (k : CoreState) : List Desc := k.drainHold ++ k.orderHold

/-- Every awaited descriptor has retired (R151): queue 7 counts the reduction sends, and queue 4 leaves them out. -/
def CoreState.waitDone (k : CoreState) (q n : Nat) : Bool :=
  if q = 7 then
    k.sendQ.waiting.all (fun d => d.rnum = 0 || n < d.rnum) && k.heldSends.all (fun d => n < d.rnum)
  else if q = 4 then
    k.sendQ.waiting.all (fun d => d.rnum ≠ 0 || n < d.num)
      && k.sendQ.begun.all (fun x => n < x || k.heldSends.any (fun d => d.num = x))
  else (k.queue q).waiting.all (fun d => n < d.num) && (k.queue q).begun.all (fun x => n < x)

/-- The lowest-numbered unreported error at or below `n`: its code, and the list with it reported (R151). -/
def reportErr (errs : List Retired) (n : Nat) : Nat × List Retired :=
  let hits := errs.filter (fun e => !e.reported && e.num ≤ n)
  match hits.foldl (fun (acc : Option Retired) e =>
    match acc with
    | none => some e
    | some b => if e.num < b.num then some e else some b) none with
  | none => (0, errs)
  | some b => (b.code, errs.map (fun e => if e.num = b.num then { e with reported := true } else e))

/-- WAIT_RETURN (R151): the awaited descriptors have retired, so RD receives the code and the program goes on. -/
def execWaitReturn (core : Nat) (s : State) : Res :=
  let k := s.core core
  match k.run, k.waiting with
  | .running, .wait q n rd =>
    if k.waitDone q n then
      if q = 7 then
        let r := reportErr k.redErrs n
        .next ((s.setCore core ({ k with redErrs := r.2, waiting := .none }.setReg rd (BitVec.ofNat 64 r.1))).advance core)
      else
        let v := k.queue q
        let r := reportErr v.errs n
        .next ((s.setCore core
          ({ (k.setQueue q { v with errs := r.2 }) with waiting := .none }.setReg rd (BitVec.ofNat 64 r.1))).advance core)
    else .next s
  | _, _ => .next s

/-- A vector or row descriptor in a queue names summary register `q` (R123). -/
def namesSummary (row : Bool) (q : Nat) (d : Desc) : Bool :=
  if row then wb d.bytes 12 20 1 = 1 && wb d.bytes 12 17 3 = q else wb d.bytes 10 20 1 = 1 && wb d.bytes 10 17 3 = q

/-- QRD (R123): the read waits while a vector or row descriptor that names the register is pending. -/
def execQrd (core : Nat) (q : BitVec 3) (word : BitVec 2) (rd : Reg) (s : State) : Res :=
  if s.runs core then
    let k := s.core core
    if k.vecQ.waiting.any (namesSummary false q.toNat) || k.rowQ.waiting.any (namesSummary true q.toNat) then .next s
    else .next (s.writeAdvance core rd (BitVec.ofNat 64 ((k.summary q.toNat).word word.toNat)))
  else .next s

/-- The four words of a finished-tile queue entry (R125). -/
def Ftq.words (e : Ftq) : List Nat :=
  [e.addr + e.engine * 2 ^ 24 + e.bank * 2 ^ 27 + b01 e.nan * 2 ^ 28 + b01 e.inf * 2 ^ 29 + b01 e.sat * 2 ^ 30,
   e.tileRow + e.tileCol * 2 ^ 16,
   e.tensor + e.format * 2 ^ 12 + e.rows * 2 ^ 16 + e.cols * 2 ^ 22,
   e.mbId + e.tag * 2 ^ 16]

/-- FTQRD (R126, R143): words 0 and 1 into RD, 2 and 3 into RD + 1; it waits while the queue is empty. -/
def execFtqrd (core : Nat) (rd : Reg) (s : State) : Res :=
  if s.runs core then
    if rd = 31 then .next (s.programFault core causeReserved)
    else
      let k := s.core core
      match k.ftq with
      | [] => .next s
      | e :: _ =>
        let w := e.words
        let k' := (k.setReg rd (BitVec.ofNat 64 (w.getD 0 0 + w.getD 1 0 * 2 ^ 32))).setReg (rd + 1)
          (BitVec.ofNat 64 (w.getD 2 0 + w.getD 3 0 * 2 ^ 32))
        .next ((s.setCore core k').advance core)
  else .next s

/-- SETVL (R114, R143): VL = s[RA], a PROGRAM_FAULT above 4,096. -/
def execSetvl (core : Nat) (ra : Reg) (s : State) : Res :=
  if s.runs core then
    let v := ((s.core core).reg ra).toNat
    if 4096 < v then .next (s.programFault core causeVl)
    else .next ((s.onCore core (fun k => { k with vl := BitVec.ofNat 13 v })).advance core)
  else .next s

/-- GETVL (R143). -/
def execGetvl (core : Nat) (rd : Reg) (s : State) : Res :=
  if s.runs core then .next (s.writeAdvance core rd (BitVec.ofNat 64 (s.core core).vl.toNat)) else .next s

/-- A layer's Oxbow counts. -/
def CoreState.layer (k : CoreState) (l : Nat) : LayerCount := mget ⟨0, 0, 0⟩ k.layers l

/-- A layer's Oxbow counts set. -/
def CoreState.setLayer (k : CoreState) (l : Nat) (v : LayerCount) : CoreState :=
  { k with layers := mset ⟨0, 0, 0⟩ k.layers l v }

/-- One Oxbow entry enqueued (R145): the payload and the item's identity; more than the drain point declares is an
overrun (R57). An OXB before the first PICK has no item, and its identity is a free value. -/
def State.oxbEnqueue (s : State) (c layer : Nat) (payload : List Byte) : State :=
  let k := s.core c
  let f := Config.freeNat s.free
  let e : OxEntry := match k.item with
    | some i => ⟨layer, payload, i.mbId, i.n, i.variant, i.version⟩
    | none => ⟨layer, payload, f % 65536, f, f % 64, f % 65536⟩
  let lc := k.layer layer
  let k1 := { (k.setLayer layer { lc with queued := lc.queued + 1 }) with
    oxbow := k.oxbow ++ [e], item := k.item.map (fun i => { i with oxbDone := true }) }
  let s1 := ({ s with free := if k.item = none then s.free + 1 else s.free }.setCore c k1).peakObj 0xB103 c k1.oxbow.length
  if lc.declared < lc.queued + 1 then s1.event (Event.at { code := 0x0208, cls := .fault, d0 := layer } c) else s1

/-- OXB (R145, R156): s[RA] is the payload's address, s[RB] the layer. A full Oxbow makes the item wait (R65). -/
def execOxb (core : Nat) (ra rb : Reg) (s : State) : Res :=
  if s.runs core then
    let k := s.core core
    let a := (k.reg ra).toNat
    if k.doneSpan then .next (s.programFault core causeStructure)
    else if a % 8 ≠ 0 ∨ 0x10000 < a + 32 then .next (s.programFault core causeMemory)
    else if k.oxbTwice then
      .next (s.programFault core causeStructure)
    else if 256 ≤ k.oxbow.length then .next s
    else .next ((s.oxbEnqueue core (k.reg rb).toNat (k.sdmRead a 32)).advance core)
  else .next s

/-- DRAIN (R145, R156): layer s[RA] is declared with s[RB] entries for the step; after the layer's first OXB it breaks
the structure rule. -/
def execDrain (core : Nat) (ra rb : Reg) (s : State) : Res :=
  if s.runs core then
    let k := s.core core
    let l := (k.reg ra).toNat
    let lc := k.layer l
    if k.doneSpan ∨ 0 < lc.queued then .next (s.programFault core causeStructure)
    else .next ((s.setCore core (k.setLayer l { lc with declared := (k.reg rb).toNat })).advance core)
  else .next s

/-- Every descriptor that the item issued has retired, except SENDs and RSENDs (R155). -/
def CoreState.itemRetired (k : CoreState) : Bool :=
  [0, 1, 2, 3, 5, 6].all (fun q => (k.queue q).waiting.isEmpty && (k.queue q).begun.isEmpty)

/-- TOKRD (R152): the oldest error token, or 0. -/
def execTokrd (core : Nat) (rd : Reg) (s : State) : Res :=
  if s.runs core then
    let k := s.core core
    match k.errLog with
    | [] => .next (s.writeAdvance core rd 0)
    | t :: rest =>
      .next ((s.setCore core { k with errLog := rest }).writeAdvance core rd (BitVec.ofNat 64 (t.1 + t.2 * 2 ^ 32)))
  else .next s

/-- HALT: CORE_STATE becomes 2 (R143). -/
def execHalt (core : Nat) (s : State) : Res :=
  if s.runs core then .next (s.onCore core (fun k => { k with run := .halted })) else .next s

end Sys2Proof.Machine
end

