-- ==== Sys2Proof/Machine/Fabric.lean ====
section
/-! DEFINITION. What carries data inside the package: Kolfin's senders and paths (R17, R18, R20), and the boundary queues between
clockless and clocked circuits (R27, R28). -/

namespace Sys2Proof.Machine

/-! Links and arbiters. -/

/-- A Kolfin link, by the sub-index of its width. -/
def State.link (s : State) (n : Nat) : Link := mget .reset s.links n

/-- A Kolfin link set. -/
def State.setLink (s : State) (n : Nat) (l : Link) : State := { s with links := mset .reset s.links n l }

/-- A link of the part. -/
def State.hasLink (s : State) (n : Nat) : Bool := n < s.part.dies || (0x10 ≤ n && n < 0x10 + s.part.dies)

/-- The link on which a sender sends. -/
def txLink (tx : Nat) : Nat := if tx < 0x20 then tx else if tx < 0x40 then tx - 0x10 else tx - 0x40

/-- An arbiter. -/
def State.arb (s : State) (n : Nat) : Arbiter := mget .reset s.arbs n

/-- An arbiter set. -/
def State.setArb (s : State) (n : Nat) (a : Arbiter) : State := { s with arbs := mset .reset s.arbs n a }

/-- A link that carries frames. -/
def State.linkRuns (s : State) (n : Nat) : Bool := s.hasLink n && ((s.link n).st = .up || (s.link n).st = .limping)

/-- A packet put in a channel of an arbiter. -/
def Arbiter.add (a : Arbiter) (vc : Nat) (p : KPacket) : Arbiter :=
  { a with queues := mset [] a.queues vc (mget [] a.queues vc ++ [p]) }

/-! Paths (R17, R18). -/

/-- HD as an end of a path; compute dies are 0 to 7. -/
def hubEnd : Nat := 8

/-- The sender at which a packet starts its path (R17, R18): HD's output to the die; between ring neighbours the ring link while it
runs; else the source die's own hub link, and HD forwards what is for another die. -/
def State.pathSender (s : State) (src dst : Nat) : Nat :=
  let n := s.part.dies
  if src = hubEnd then 0x40 + dst
  else if dst = hubEnd then src
  else if dst = (src + 1) % n ∧ s.linkRuns (0x10 + src) then 0x10 + src
  else if src = (dst + 1) % n ∧ s.linkRuns (0x10 + dst) then 0x20 + dst
  else src

/-- The input number of a sender's own sources (R22). -/
def ownInput : Nat := 16

/-- Payload bytes of a Kolfin frame. -/
def kolfinPayload : Nat := 240

/-- Something that travels between two ends of the package waits at the first sender of its path, in packets of a frame each
(R17, R20); inside one die nothing crosses Kolfin. -/
def State.kolfinPut (s : State) (src dst vc : Nat) (bytes : List Byte) : State :=
  if src = dst then s
  else
    let n := s.pathSender src dst
    (chunks bytes.length kolfinPayload bytes).foldl (fun (t : State) (p : List Byte) => t.setArb n ((t.arb n).add vc ⟨ownInput, 0, p⟩)) s

/-! Boundary queues (R27, R28). -/

/-- Entries of a boundary queue. -/
def boundaryDepth : Nat := 16

/-- The clocked domain of a port's PHY (R28). -/
def portDomain (n : Nat) : Nat := n + 1

/-- The clocked domain of a compute die's Kolfin PHYs (R28). -/
def kolfinDomain (die : Nat) : Nat := 0x20 + die

/-- A domain's queue towards its interface, and the one from it. -/
def txQueue (domain : Nat) : Nat := 2 * domain

/-- A domain's receive queue. -/
def rxQueue (domain : Nat) : Nat := 2 * domain + 1

/-- The entries of a boundary queue. -/
def State.boundary (s : State) (k : Nat) : List (List Byte) := mget [] s.bq k

/-- A boundary queue holds no more. -/
def State.boundaryFull (s : State) (k : Nat) : Bool := boundaryDepth ≤ (s.boundary k).length

/-- A boundary queue holds nothing. -/
def State.boundaryEmpty (s : State) (k : Nat) : Bool := (s.boundary k).isEmpty

/-- The oldest entry read; nothing is read from an empty queue. -/
def State.boundaryTake (s : State) (k : Nat) : Option (List Byte × State) :=
  match s.boundary k with
  | [] => none
  | e :: rest => some (e, { s with bq := mset [] s.bq k rest })

/-- An entry written; nothing is written to a full queue. -/
def State.boundaryPut (s : State) (k : Nat) (e : List Byte) : Option State :=
  if s.boundaryFull k then none else some { s with bq := mset [] s.bq k (s.boundary k ++ [e]) }

/-- An entry sent towards an interface: a full queue makes the clockless side wait until the clocked side has read its oldest
entry, so that the entry is then written and none is lost. -/
def State.boundarySend (s : State) (domain : Nat) (e : List Byte) : State :=
  let k := txQueue domain
  let t := if s.boundaryFull k then (s.boundaryTake k).elim s (fun x => x.2) else s
  (t.boundaryPut k e).getD t

/-- The clocked sides have read every entry that was to be sent. -/
def State.boundaryIdle (s : State) : State := { s with bq := [] }

/-- A domain that returns to local reset empties its queues: the entries go back to their senders as errors (R28). -/
def State.boundaryLost (s : State) (domain : Nat) : State :=
  let l := s.boundary (txQueue domain) ++ s.boundary (rxQueue domain)
  let t := { s with bq := mset [] (mset [] s.bq (txQueue domain) []) (rxQueue domain) [] }
  l.foldl (fun (u : State) (e : List Byte) => u.emit (.returned domain e)) t

end Sys2Proof.Machine
end

