-- ==== Sys2Proof/Machine/Streams.lean ====
section
/-! DEFINITION. Millrace streams (R35 to R51, R149, R150): SEND, the message it sends, RECV, REL, the checks of an arriving
message and credit returns; and the end of a micro-batch's input-gradient half at a stage (R54, R60). -/

namespace Sys2Proof.Machine

/-! Streams and their sides. -/

/-- The core at the receiving end of a side: 0 forward, 1 backward. -/
def StreamRec.rxCore (r : StreamRec) (side : Nat) : Nat := if side = 0 then r.downCore else r.upCore
/-- The position of the receiving end. -/
def StreamRec.rxPkg (r : StreamRec) (side : Nat) : Nat := if side = 0 then r.downPkg else r.upPkg
/-- The core at the sending end of a side. -/
def StreamRec.txCore (r : StreamRec) (side : Nat) : Nat := r.rxCore (1 - side)
/-- The position of the sending end. -/
def StreamRec.txPkg (r : StreamRec) (side : Nat) : Nat := r.rxPkg (1 - side)
/-- Capacity of a side in slots. -/
def StreamRec.slots (r : StreamRec) (side : Nat) : Nat := if side = 0 then r.fwdSlots else r.bwdSlots
/-- The slot region of a side in the receiving core's SRAM. -/
def StreamRec.base (r : StreamRec) (side : Nat) : Nat := if side = 0 then r.fwdBase else r.bwdBase
/-- Bytes of one slot. -/
def StreamRec.slotBytes (r : StreamRec) : Nat := 256 * r.slotUnits
/-- The core SRAM offset of a slot. -/
def StreamRec.slotAt (r : StreamRec) (side slot : Nat) : Nat := r.base side + r.slotBytes * slot

/-- The port on this package by which the other end of a stream is reached: 8 stands for a stream inside the package. -/
def StreamRec.portHere (r : StreamRec) (atUp : Bool) : Nat :=
  if r.isLocal then 8 else if atUp then r.upPort else r.downPort

/-- A stream of the package, if its index has a record. -/
def State.stream (s : State) (i : Nat) : Option Stream := mget none s.streams i
/-- A stream set. -/
def State.setStream (s : State) (i : Nat) (v : Stream) : State := { s with streams := mset none s.streams i (some v) }

/-- A side of a stream. -/
def Stream.side (v : Stream) (side : Nat) : Side := if side = 0 then v.fwd else v.bwd
/-- A side set. -/
def Stream.setSide (v : Stream) (side : Nat) (x : Side) : Stream := if side = 0 then { v with fwd := x } else { v with bwd := x }

/-- Core `c` of this package receives on a side of a stream. -/
def State.receives (s : State) (v : Stream) (c side : Nat) : Bool :=
  v.record.rxCore side = c && v.record.rxPkg side = s.position
/-- Core `c` of this package sends on a side of a stream. -/
def State.sends (s : State) (v : Stream) (c side : Nat) : Bool :=
  v.record.txCore side = c && v.record.txPkg side = s.position

/-- The stream that a core's descriptor names: its index has a record with an end at the core. -/
def State.coreStream (s : State) (c i : Nat) : Option Stream :=
  match s.stream i with
  | some v => if s.receives v c 0 || s.receives v c 1 then some v else none
  | none => none

/-- Indices of the streams that satisfy `p`. -/
def State.streamsWhere (s : State) (p : Stream → Bool) : List Nat :=
  s.streams.filterMap (fun e => match e.2 with
    | some v => if p v then some e.1 else none
    | none => none)

/-- Streams whose forward side a core receives: its upstream streams. -/
def State.upStreams (s : State) (c : Nat) : List Nat := s.streamsWhere (fun v => s.receives v c 0)
/-- Streams whose forward side a core sends: its downstream streams. -/
def State.downStreams (s : State) (c : Nat) : List Nat := s.streamsWhere (fun v => s.sends v c 0)

/-- A side at job start and at re-creation (R47, R48). -/
def Side.fresh (capacity : Nat) : Side := { entries := [], used := [], freed := 0, credit := capacity, sent := [] }

/-- A stream re-created, with the job micro-batch counter in force (R43, R47). -/
def Stream.fresh (r : StreamRec) (base : Nat) : Stream :=
  { record := r, fwd := .fresh r.fwdSlots, bwd := .fresh r.bwdSlots, fault := false, base := base }

/-- A Sluice's entry for a micro-batch index. -/
def Side.entry (x : Side) (ix : Nat) : MbEntry := mget .free x.entries ix
/-- An entry set. -/
def Side.setEntry (x : Side) (ix : Nat) (e : MbEntry) : Side := { x with entries := mset .free x.entries ix e }

/-- The generation that an entry holds or expects: by R42 from the counter `base` until its first use. -/
def MbEntry.expects (e : MbEntry) (base ix : Nat) : Nat :=
  match e.gen with
  | some g => g
  | none => (base + (ix + 4096 - base % 4096) % 4096) / 4096 % 16

/-- A LIVE entry made FREE: it expects the next generation (R43). -/
def MbEntry.release (e : MbEntry) (base ix : Nat) : MbEntry := { MbEntry.free with gen := some ((e.expects base ix + 1) % 16) }

/-- The micro-batch index of an identifier (R42). -/
def mbIx (mbId : Nat) : Nat := mbId % 4096
/-- The generation of an identifier. -/
def mbGen (mbId : Nat) : Nat := mbId / 4096 % 16

/-- The entry of an identifier is LIVE with its generation. -/
def Stream.liveFor (v : Stream) (side mbId : Nat) : Bool :=
  let e := (v.side side).entry (mbIx mbId)
  e.live && e.expects v.base (mbIx mbId) = mbGen mbId

/-- The Tributary attempt (R225), which is every stream's generation (R36). -/
def State.attempt (s : State) : Nat := s.job.attempt % 16

/-- The 16-bit stream identifier of an index. -/
def State.streamId (s : State) (i : Nat) : Nat := i + s.attempt * 4096

/-! In-flight micro-batches at a stage (R54, R60). -/

/-- The in-flight record of a micro-batch at a core. -/
def CoreState.flight (k : CoreState) (mbId : Nat) : Option InFlight :=
  match mget none k.inflight (mbIx mbId) with
  | some r => if r.mbId = mbId then some r else none
  | none => none

/-- An in-flight record set. -/
def CoreState.setFlight (k : CoreState) (r : InFlight) : CoreState :=
  { k with inflight := mset none k.inflight (mbIx r.mbId) (some r) }

/-- The stage entry of a core. -/
def State.stageOf (s : State) (c : Nat) : Option StageEntry := mget none s.stages c

/-- The cores of this package that run a stage. -/
def State.stageCores (s : State) (stage : Nat) : List Nat :=
  s.stages.filterMap (fun e => match e.2 with
    | some v => if v.stage = stage then some e.1 else none
    | none => none)

/-- A key of the version table of a stage and a variant (R59). -/
def vtKey (stage variant : Nat) : Nat := 64 * stage + variant

/-- The version table of a stage and variant as a job starts with it: version 0 CURRENT. -/
def freshVersions : List VSlot := { VSlot.free with st := .current } :: List.replicate 7 .free

/-- The version table of a stage and a variant, 8 slots (R59). -/
def State.vtable (s : State) (stage variant : Nat) : List VSlot := mget freshVersions s.versions (vtKey stage variant)

/-- Contents of older versions that stay needed: those of a table go with its last HELD slot (R59). -/
def keepPast (past : List Past) (stage variant : Nat) (t : List VSlot) : List Past :=
  if t.any (fun x => x.st = .held) then past else past.filter (fun x => !(x.stage = stage && x.variant = variant))

/-- A version table set; its live slots count towards VERSION_LIVE_PEAK of the stage's cores (R66). -/
def State.setVtable (s : State) (stage variant : Nat) (t : List VSlot) : State :=
  let live := (t.filter (fun x => x.st ≠ .free)).length
  (s.stageCores stage).foldl (fun u c => u.peakObj 0xB105 c live)
    { s with
      versions := mset freshVersions s.versions (vtKey stage variant) t,
      mem := { s.mem with past := keepPast s.mem.past stage variant t } }

/-- A holder leaves the slot of a version; a HELD slot without holders becomes FREE (R59, R60). -/
def dropHolder (t : List VSlot) (number : Nat) : List VSlot :=
  t.map (fun x =>
    if x.number = number ∧ (x.st = .current ∨ x.st = .held) ∧ 0 < x.holders then
      if x.st = .held ∧ x.holders = 1 then .free else { x with holders := x.holders - 1 }
    else x)

/-- A core's half of a micro-batch completes (R54): at the last core of the stage, the in-flight count falls, the version's
holder count falls and the in-flight records are dropped (R60). -/
def State.gradientDone (s : State) (c n : Nat) : State :=
  match s.stageOf c with
  | none => s
  | some st =>
    let list := mget [] s.stageMbs st.stage
    match list.find? (fun e => e.1 = n) with
    | none => s
    | some e =>
      let done := sIns e.2.done c
      if (s.stageCores st.stage).all (fun x => done.contains x) then
        let s1 := { s with
          stageMbs := mset [] s.stageMbs st.stage (list.filter (fun x => x.1 ≠ n)),
          stageDone := mset 0 s.stageDone st.stage (mget 0 s.stageDone st.stage + 1) }
        let s2 := s1.setVtable st.stage e.2.variant (dropHolder (s1.vtable st.stage e.2.variant) e.2.version)
        (s.stageCores st.stage).foldl (fun t x => t.onCore x (fun k =>
          { k with inflight := k.inflight.filter (fun f => match f.2 with
            | some r => r.n ≠ n
            | none => true) })) s2
      else { s with stageMbs := mset [] s.stageMbs st.stage (list.map (fun x => if x.1 = n then (n, { e.2 with done := done }) else x)) }

/-! SEND (R39, R41, R149). -/

/-- The tile form that words 4 and 5 of a message or send layout name. -/
def sendForm (b : List Byte) : TileFmt := ⟨wb b 5 12 4, wb b 5 19 1 = 1, wb b 5 16 2, wb b 5 18 1⟩

/-- TILE_COUNT of a SEND. -/
def sendTiles (b : List Byte) : Nat := wb b 2 14 4 + 1

/-- The walk of a packed payload: the tile offsets and the length (R197). -/
def sendWalk (k : CoreState) (b : List Byte) : List Nat × Nat :=
  packedWalk (k.sramRead (wb b 3 0 24) (wb b 7 0 17)) (sendTiles b) 0

/-- The payload length of a SEND (R39, R149, R197). -/
def sendLength (k : CoreState) (b : List Byte) : Nat :=
  if wb b 7 17 1 = 1 then (sendWalk k b).2 else sendTiles b * (sendForm b).stride

/-- Bytes that each tile of a packed payload needs in its slot (R41). -/
def packedNeeds (bs : List Byte) (offs : List Nat) : List Nat := offs.map (fun o => packedSize (bs.drop o))

/-- Why a SEND is refused: its token code and DETAIL (R41, R147, R149, R153, R197, R397). -/
def State.sendRefuse (s : State) (c : Nat) (d : Desc) : Option (Nat × Nat) :=
  let b := d.bytes
  let k := s.core c
  let t := sendForm b
  let side := wb b 2 12 1
  let packed := decide (wb b 7 17 1 = 1)
  let src := wb b 3 0 24
  if d.badItem then some (tokRange, detailField 1 0)
  else match s.coreStream c (wb b 2 0 12) with
  | none => some (tokNoObject, detailField 2 0)
  | some v =>
    if v.fault then some (tokStreamFault, detailField 2 0)
    else if !elemFormat t.format then some (tokRange, detailField 5 12)
    else if !t.ok then some (tokRange, detailField 5 19)
    else if (streamExp (wd b 6)).isNone then some (tokRange, detailField 6 0)
    else if !s.sends v c side then some (tokRange, detailField 2 12)
    else if v.record.slots side < sendTiles b then some (tokRange, detailField 2 14)
    else if packed then
      let len := wb b 7 0 17
      if len = 0 ∨ 65536 < len then some (tokRange, detailField 7 0)
      else if sramSize < src + len then some (tokRange, detailField 3 0)
      else if k.poisoned src len then some (tokUncorrectable, 0)
      else
        let w := sendWalk k b
        if len < w.2 then some (tokRange, detailField 7 0)
        else if (packedNeeds (k.sramRead src len) w.1).any (fun n => v.record.slotBytes < n) then some (tokRange, detailField 2 14)
        else none
    else if v.record.slotBytes < t.stride then some (tokRange, detailField 5 12)
    else if 65536 < sendTiles b * t.stride then some (tokRange, detailField 2 14)
    else if sramSize < src + sendTiles b * t.stride then some (tokRange, detailField 3 0)
    else none

/-- VERSION of a message (R61, R149), with a free value where the record or the entry that gives it is gone. -/
def State.sendVersion (s : State) (c : Nat) (v : Stream) (side mbId : Nat) : Nat × State :=
  let free := (Config.freeNat s.free % 65536, { s with free := s.free + 1 })
  if side = 0 then
    match (s.core c).flight mbId with
    | some r => (r.version, s)
    | none => free
  else if v.liveFor 0 mbId then ((v.fwd.entry (mbIx mbId)).version, s)
  else free

/-- Header words 0 to 6 of a SEND (R39). -/
def sendHeader (b : List Byte) (streamId version msgIndex len : Nat) : List Byte :=
  wordsLE [streamId + wb b 1 0 16 * 2 ^ 16,
    version + wb b 1 16 6 * 2 ^ 16 + wb b 2 12 1 * 2 ^ 22 + wb b 2 13 1 * 2 ^ 23,
    wd b 4,
    wb b 5 0 12 + wb b 2 14 4 * 2 ^ 12 + msgIndex % 65536 * 2 ^ 16,
    wb b 5 12 4 + wb b 5 16 2 * 2 ^ 4 + wb b 5 18 1 * 2 ^ 6 + wb b 5 19 1 * 2 ^ 7 + wb b 5 20 6 * 2 ^ 8
      + wb b 5 26 6 * 2 ^ 14 + wb b 7 17 1 * 2 ^ 20,
    wd b 6, len]

/-- SENDs counted on a side for an identifier; an older use of its index is forgotten. -/
def Side.countSend (x : Side) (mbId : Nat) : Side :=
  let kept := x.sent.filter (fun e => mbIx e.1 ≠ mbIx mbId || e.1 = mbId)
  { x with sent := mset 0 kept mbId (mget 0 kept mbId + 1) }

/-- The bytes of a packed payload read through their code before its tiles are walked (R186, R197). -/
def State.sendRead (s : State) (c : Nat) (d : Desc) : State :=
  if wb d.bytes 7 17 1 = 1 ∧ (s.sendRefuse c d).all (fun r => r.1 = tokUncorrectable) then
    s.readWindow c [(wb d.bytes 3 0 24, wb d.bytes 7 0 17)]
  else s

/-- A window without flipped bits is read as it stands. -/
theorem State.sendRead_clean (s : State) (c : Nat) (d : Desc) (h : (s.core c).flips = []) : s.sendRead c d = s := by
  unfold State.sendRead
  split
  · exact s.readWindow_clean c _ h
  · rfl

/-- SEND reaches the head of the send queue (R51, R149): it is refused, or its header is built; without credit it is
counted in CREDIT_WAITS (R66). A header once built counts in MSG_INDEX (assumption 169). -/
def execSend (core : Nat) (s0 : State) : Res :=
  match (s0.core core).ready, (s0.core core).sendQ.waiting with
  | none, d :: _ =>
    let s := s0.sendRead core d
    let k := s.core core
    if wb d.bytes 0 0 8 ≠ 1 then .next s0
    else match s.sendRefuse core d, s.coreStream core (wb d.bytes 2 0 12) with
      | some r, _ => .next (s.failDesc core 4 d r.1 r.2)
      | none, none => .next s
      | none, some v =>
        let b := d.bytes
        let side := wb b 2 12 1
        let i := wb b 2 0 12
        let mbId := wb b 1 0 16
        let ver := s.sendVersion core v side mbId
        let ready : ReadySend := ⟨d, i, side, sendTiles b, wb b 2 13 1 = 1,
          sendHeader b (s.streamId i) ver.1 (mget 0 (v.side side).sent mbId) (sendLength k b)⟩
        let s1 := ver.2.onCore core (fun k => { k with ready := some ready })
        let s2 := s1.setStream i (v.setSide side ((v.side side).countSend mbId))
        .next (if (v.side side).credit < ready.tiles then s2.addObj 0xB106 core 32 1 else s2)
  | _, _ => .next s0

/-- What a sent message changes at its core's ends of the stream (R43, R48, R54): the credit, the backward-side entry that
a first forward message makes LIVE, and the forward-side entry that a last backward message frees. -/
def Stream.sent (v : Stream) (r : ReadySend) (mbId : Nat) : Stream :=
  let x := v.side r.side
  let v1 := v.setSide r.side { x with credit := x.credit - r.tiles }
  let ix := mbIx mbId
  if r.side = 0 then
    let e := v1.bwd.entry ix
    if e.live then v1
    else
      let e1 := { MbEntry.free with live := true, gen := some (mbGen mbId), version := wb r.header 1 0 16 }
      { v1 with bwd := v1.bwd.setEntry ix e1 }
  else if r.last then { v1 with fwd := v1.fwd.setEntry ix ((v1.fwd.entry ix).release v1.base ix) }
  else v1

/-- The last backward send of a micro-batch on a stream has completed at a core with upstream streams (R54). -/
def State.backwardSent (s : State) (c stream mbId : Nat) : State :=
  match (s.core c).flight mbId with
  | none => s
  | some r =>
    let sent := sIns r.bwdSent stream
    let all := (s.upStreams c).all (fun i => sent.contains i)
    let s1 := s.onCore c (fun k => k.setFlight { r with bwdSent := sent, igDone := r.igDone || all })
    if all then s1.gradientDone c r.n else s1

/-- MILLRACE_MESSAGE_SEND (R48): a send whose credit suffices leaves, and its credit is subtracted. -/
def execMillraceMessageSend (core : Nat) (s : State) : Res :=
  let k := s.core core
  match k.ready with
  | none => .next s
  | some r =>
    match s.stream r.stream with
    | none => .next s
    | some v =>
      let b := r.desc.bytes
      let src := wb b 3 0 24
      let len := wb r.header 6 0 17
      let mbId := wb b 1 0 16
      let s0 := (if v.fault then s else s.readWindow core [(src, len)]).onCore core (fun k => { k with ready := none })
      if v.fault then .next (s0.failDesc core 4 r.desc tokStreamFault (detailField 2 0))
      else if (v.side r.side).credit < r.tiles then .next s
      else if k.poisoned src len then .next (s0.failDesc core 4 r.desc tokUncorrectable 0)
      else
        let payload := k.sramRead src len
        let message := r.header ++ leBytes 4 (crc32 (r.header ++ payload)) ++ payload
        let port := v.record.portHere (r.side = 0)
        let dst := if port < s.part.ports then hubEnd else v.record.rxCore r.side / 16
        let s1 := ((s0.setStream r.stream (v.sent r mbId)).emitStream port message).kolfinPut (core / 16) dst 2 message
        let s2 := s1.okDesc core 4 r.desc
        .next (if r.side = 1 ∧ r.last then s2.backwardSent core r.stream mbId else s2)

/-! RECV and REL (R150). -/

/-- The stream side that a receive descriptor names, or its refusal (R150, R153): the core must receive on the side. -/
def State.recvStream (s : State) (c : Nat) (d : Desc) : Except (Nat × Nat) Stream :=
  if d.badItem then .error (tokRange, detailField 1 0)
  else match s.coreStream c (wb d.bytes 2 0 12) with
  | none => .error (tokNoObject, detailField 2 0)
  | some v => if s.receives v c (wb d.bytes 2 12 1) then .ok v else .error (tokRange, detailField 2 12)

/-- The oldest accepted message of a micro-batch, and the entry without it. -/
def MbEntry.deliver (e : MbEntry) : Option (Accepted × MbEntry) :=
  match e.arrived with
  | [] => none
  | a :: rest => some (a, { e with arrived := rest, held := e.held ++ a.slots })

/-- The header that RECV writes: word 7 holds the first slot's offset (R150). -/
def recvHeader (r : StreamRec) (side : Nat) (a : Accepted) : List Byte :=
  a.header.take 28 ++ leBytes 4 (r.slotAt side (a.slots.headD 0))

/-- A RECV retires in the current item: its tiles are held from now on (R154). -/
def Item.received (i : Item) (num key tiles : Nat) : Item :=
  { i with recvs := i.recvs.filter (fun x => x ≠ num), got := mset 0 i.got key (mget 0 i.got key + tiles) }

/-- RECV (R150): the next message of its micro-batch on the side is delivered, or the descriptor waits. -/
def execRecv (core : Nat) (s : State) : Res :=
  let k := s.core core
  match k.recvQ.waiting with
  | [] => .next s
  | d :: _ =>
    let b := d.bytes
    let fail := fun (e : Nat × Nat) =>
      (s.onCore core (fun k => { k with item := k.item.map (fun (i : Item) => { i with recvs := i.recvs.filter (fun x => x ≠ d.num) }) })).failDesc core 5 d e.1 e.2
    if wb b 0 0 8 ≠ 1 then .next s
    else match s.recvStream core d with
    | .error e => .next (fail e)
    | .ok v =>
      let side := wb b 2 12 1
      let mbId := wb b 1 0 16
      if wb b 3 0 16 % 32 ≠ 0 then .next (fail (tokRange, detailField 3 0))
      else if !v.liveFor side mbId then .next s
      else match ((v.side side).entry (mbIx mbId)).deliver with
      | none => .next s
      | some (a, e') =>
        let s1 := s.setStream (wb b 2 0 12) (v.setSide side ((v.side side).setEntry (mbIx mbId) e'))
        .next (s1.onCore core (fun k =>
          let k1 := (k.tableWrite (wb b 3 0 16) (recvHeader v.record side a)).retire 5 d.num
          { k1 with item := k1.item.map (fun (i : Item) => i.received d.num (sideKey (wb b 2 0 12) side) a.slots.length) }))

/-- The Sluice's credit return, when 8 slots have been freed since the last or the side is empty (R49). -/
def State.returnCredit (s : State) (i side : Nat) : State :=
  match s.stream i with
  | none => s
  | some v =>
    let x := v.side side
    if 8 ≤ x.freed ∨ (x.used = [] ∧ 0 < x.freed) then
      (s.setStream i (v.setSide side { x with freed := 0 })).emitCredit
        (v.record.portHere (side = 1)) (s.streamId i) side x.freed
    else s

/-- Slots of a side freed: the oldest `n` that a micro-batch holds (R150). On the backward side, the release of the last
tile of the message with LAST set frees the entry (R54). -/
def Stream.releaseTiles (v : Stream) (side mbId n : Nat) : Stream :=
  let x := v.side side
  let ix := mbIx mbId
  let e := x.entry ix
  let out := e.held.take n
  let e1 := { e with held := e.held.drop n }
  let e2 := if side = 1 ∧ e1.lastIn ∧ e1.held = [] ∧ e1.arrived = [] then e1.release v.base ix else e1
  v.setSide side { x.setEntry ix e2 with used := x.used.filter (fun u => !out.contains u), freed := x.freed + n }

/-- A REL that ends with an error covers none of the item's tiles (R154). -/
def Item.unrel (i : Item) (d : Desc) : Item :=
  if d.badItem then i
  else
    let key := sideKey (wb d.bytes 2 0 12) (wb d.bytes 2 12 1)
    { i with rels := mset 0 i.rels key (mget 0 i.rels key - wb d.bytes 2 13 10) }

/-- A REL retired with an error. -/
def State.failRel (s : State) (c : Nat) (d : Desc) (code detail : Nat) : State :=
  (s.onCore c (fun k => { k with item := k.item.map (fun (i : Item) => i.unrel d) })).failDesc c 5 d code detail

/-- REL (R150): the COUNT oldest tiles that the micro-batch holds on the side are freed. -/
def execRel (core : Nat) (s : State) : Res :=
  let k := s.core core
  match k.recvQ.waiting with
  | [] => .next s
  | d :: _ =>
    let b := d.bytes
    if wb b 0 0 8 ≠ 2 then .next s
    else match s.recvStream core d with
    | .error e => .next (s.failRel core d e.1 e.2)
    | .ok v =>
      let side := wb b 2 12 1
      let mbId := wb b 1 0 16
      let n := wb b 2 13 10
      let held := if v.liveFor side mbId then ((v.side side).entry (mbIx mbId)).held.length else 0
      if n = 0 ∨ 512 < n ∨ held < n then .next (s.failRel core d tokRange (detailField 2 13))
      else
        let i := wb b 2 0 12
        .next (((s.setStream i (v.releaseTiles side mbId n)).okDesc core 5 d).returnCredit i side)

/-! Acceptance at the receiver (R42 to R46). -/

/-- Outcomes of *Receiver checks*. -/
inductive Arrival where
  | accept
  | late (credited : Bool)
  /-- Discarded, with the event's code and DETAIL1; the stream enters FAULT. -/
  | fault (code d1 : Nat)
  /-- A stream in FAULT accepts nothing (R46). -/
  | ignored
deriving DecidableEq, Repr

/-- The tile form that a message header names. -/
def headerForm (h : List Byte) : TileFmt := ⟨wb h 4 0 4, wb h 4 7 1 = 1, wb h 4 4 2, wb h 4 6 1⟩

/-- TILE_COUNT of a message. -/
def headerTiles (h : List Byte) : Nat := wb h 3 12 4 + 1

/-- The bytes of each tile of a payload. -/
def payloadTiles (h payload : List Byte) : List (List Byte) :=
  if wb h 4 20 1 = 1 then
    let w := packedWalk payload (headerTiles h) 0
    w.1.map (fun o => (payload.drop o).take (packedSize (payload.drop o)))
  else
    let t := (headerForm h).stride
    (List.range (headerTiles h)).map (fun i => (payload.drop (i * t)).take t)

/-- What each tile of a message needs in its slot (R41, R44 check 8). -/
def tileNeeds (h payload : List Byte) : List Nat :=
  if wb h 4 20 1 = 1 then packedNeeds payload (packedWalk payload (headerTiles h) 0).1
  else List.replicate (headerTiles h) (headerForm h).stride

/-- *Receiver checks* (R44), in their order, at core `c`. A stream in FAULT ignores every message (assumption 168). -/
def State.arrival (s : State) (c : Nat) (m : List Byte) : Arrival :=
  let payload := m.drop 32
  let i := wb m 0 0 12
  let side := wb m 1 22 1
  let mbId := wb m 0 16 16
  match s.stream i with
  | none => if crc32 (m.take 28 ++ payload) ≠ wd m 7 then .fault 0x0201 0 else .fault 0x0202 0
  | some v =>
    if v.fault then .ignored
    else if m.length < 33 ∨ crc32 (m.take 28 ++ payload) ≠ wd m 7 then .fault 0x0201 0
    else if !s.receives v c side then .fault 0x0202 0
    else if wb m 0 12 4 ≠ s.attempt then .late false
    else
      let x := v.side side
      let e := x.entry (mbIx mbId)
      if (side = 1 ∧ e.live = false) ∨ e.expects v.base (mbIx mbId) ≠ mbGen mbId then .late true
      else if !(headerForm m).ok then .fault 0x0203 0
      else if wb m 3 16 16 ≠ e.rxNext then .fault 0x0204 (wb m 3 16 16)
      else if side = 1 ∧ wb m 1 0 16 ≠ e.version then .fault 0x0205 (wb m 1 0 16)
      else if (tileNeeds m payload).any (fun n => v.record.slotBytes < n) then .fault 0x0203 0
      else if v.record.slots side - x.used.length < headerTiles m then .fault 0x0207 0
      else .accept

/-- The slots that a message fills: consecutive free slots where there is such a run, else free slots in rising order from
a start. Which run or start is a free value: the spec does not say where a message lands. -/
def chooseSlots (slots : Nat) (used : List Nat) (n f : Nat) : List Nat :=
  let free := upto slots (fun i => !used.contains i)
  let runs := free.filter (fun p => (List.range n).all (fun j => free.contains (p + j)))
  if runs = [] then
    let p := f % slots
    ((free.filter (fun i => p ≤ i)) ++ (free.filter (fun i => i < p))).take n
  else (List.range n).map (fun j => runs.getD (f % runs.length) 0 + j)

/-- A message accepted: its tiles are written to their slots and its entry notes it (R43, R44). -/
def State.acceptMessage (s : State) (c : Nat) (v : Stream) (m : List Byte) : State :=
  let i := wb m 0 0 12
  let side := wb m 1 22 1
  let ix := mbIx (wb m 0 16 16)
  let x := v.side side
  let e := x.entry ix
  let slots := chooseSlots (v.record.slots side) x.used (headerTiles m) (Config.freeNat s.free)
  let e0 := if e.live then e else { MbEntry.free with live := true, gen := some (mbGen (wb m 0 16 16)), version := wb m 1 0 16 }
  let e1 := { e0 with
    rxNext := e0.rxNext + 1, lastIn := e0.lastIn || wb m 1 23 1 = 1, arrived := e0.arrived ++ [⟨m.take 32, slots⟩] }
  let s1 := { s with free := s.free + 1 }.setStream i
    (v.setSide side { x.setEntry ix e1 with used := slots.foldl sIns x.used })
  s1.onCore c (fun k => ((payloadTiles m (m.drop 32)).zip slots).foldl (fun k p => k.sramWrite (v.record.slotAt side p.2) p.1) k)

/-- The event of a stream, with STREAM_ID and MB_ID in DETAIL0. -/
def streamEvent (c code : Nat) (cls : EvClass) (m : List Byte) (d1 : Nat) : Event :=
  Event.at { code := code, cls := cls, d0 := wd m 0, d1 := d1 } c

/-- A stream put in FAULT, if its index has a record (R46). -/
def State.faultStream (s : State) (i : Nat) : State :=
  match s.stream i with
  | some v => s.setStream i { v with fault := true }
  | none => s

/-- MILLRACE_MESSAGE_RECEIVE (R44 to R46) at core `core`. -/
def execMillraceMessageReceive (core : Nat) (message : List Byte) (s : State) : Res :=
  if s.part.hasCore core then
    match s.arrival core message, s.stream (wb message 0 0 12) with
    | .accept, some v => .next (s.acceptMessage core v message)
    | .accept, none => .next s
    | .ignored, _ => .next s
    | .fault code d1, _ => .next ((s.faultStream (wb message 0 0 12)).event (streamEvent core code .fault message d1))
    | .late credited, some v =>
      let i := wb message 0 0 12
      let side := wb message 1 22 1
      let s1 := (s.addObj 0xB104 core 32 1).event (streamEvent core 0x0206 .note message 0)
      if credited then
        let x := v.side side
        .next ((s1.setStream i (v.setSide side { x with freed := x.freed + headerTiles message })).returnCredit i side)
      else .next s1
    | .late _, none => .next s
  else .next s

/-- CREDIT_RETURN_RECEIVE (R50). -/
def execCreditReturnReceive (streamId side count : Nat) (s : State) : Res :=
  let i := streamId % 4096
  match s.stream i with
  | none => .next (s.event { code := 0x0202, cls := .fault, d0 := streamId % 65536 })
  | some v =>
    if streamId / 4096 % 16 ≠ s.attempt then .next s
    else
      let x := v.side side
      if v.record.txPkg side = s.position ∧ x.credit + count ≤ v.record.slots side then
        .next (s.setStream i (v.setSide side { x with credit := x.credit + count }))
      else .next ((s.faultStream i).event
        (Event.at { code := 0x0207, cls := .fault, d0 := streamId % 65536 } (v.record.txCore side)))

end Sys2Proof.Machine
end

