-- ==== Sys2Proof/Machine/Placement.lean ====
section
/-! DEFINITION. Placement (R171, R198 to R207): epochs, decisions, moves, demand promotions, the step plan, fresh, shadow and
snapshot-held pages, released pages and the page query. -/

namespace Sys2Proof.Machine

/-- MOVING pages named from outside: a page's key, or 2^60 plus the serial number of a retained page. -/
def retainedBase : Nat := 2 ^ 60

/-- A retained page. -/
def State.kept (s : State) (i : Nat) : Option Retained := mget none s.mem.retained i

/-- A retained page set. -/
def State.setKept (s : State) (i : Nat) (r : Option Retained) : State :=
  { s with mem := { s.mem with retained := mset none s.mem.retained i r } }

/-- The move counter of a completed move: PROMOTIONS, DEMOTIONS or MIGRATIONS (R214). -/
def moveSub (src dst : Nat) : Nat := if dst = tierBw then 2 else if src = tierBw then 1 else 3

/-- Some move that an earlier epoch close decided is not finished: moves of a close keep their place ahead of those of later
closes, and a forced move, of order 0, does not travel with them (R200). -/
def State.movesAhead (s : State) (order : Nat) : Bool :=
  let ahead := fun (p : Page) => p.move.isSome && decide (0 < p.order ∧ p.order < order)
  s.mem.pages.any (fun e => e.2.any ahead) || s.mem.retained.any (fun e => e.2.any (fun r => ahead r.page))

/-- The page after its copy to a frame is remapped. -/
def Page.moved (p : Page) (f : Frame) : Page := { p with frame := f, move := none, demand := none, fetched := false }

/-- What a remap leaves beside the page: the move counted, the old frame freed, the new frame's lines new code words. -/
def State.remapped (s : State) (p : Page) (f : Frame) : State :=
  ((s.addObj 0x6026 (moveSub p.frame.tier f.tier) 64 1).freeFrame p.frame p.poison).fillFrame f

/-- A mapped page remapped to a frame that holds the copy; a decision that waited for the move takes its turn (R204). -/
def State.landMove (s : State) (key : Nat) (f : Frame) : State :=
  let s1 := s.readLines key 0 (64 * (s.keySectors key))
  match s1.page key with
  | some p => ((s1.setPage key (some (p.moved f))).remapped p f).startLater key
  | none => s

/-- PAGE_MOVE_COMPLETE (R204): the copy of a move ends and the page is remapped; the old frame is freed. A page without a
move (voided or abandoned) is left as it is, and so is one whose move travels behind those of an earlier close (R200). -/
def execPageMoveComplete (page : Nat) (s : State) : Res :=
  if retainedBase ≤ page then
    match s.kept (page - retainedBase) with
    | some r => match r.page.move with
      | some f =>
        .next (if s.movesAhead r.page.order then s
          else
            let x := s.readKept (page - retainedBase) r
            (x.2.setKept (page - retainedBase) (some { x.1 with page := x.1.page.moved f })).remapped x.1.page f)
      | none => .next s
    | none => .next s
  else
    match s.page page with
    | some p => match p.move with
      | some f => .next (if s.movesAhead p.order then s else s.landMove page f)
      | none => .next s
    | none => .next s

/-- DEMAND_PROMOTION_COMPLETE (R201): the frame read from Backwater is delivered and written to a stack frame chosen by R199,
from the pin's die or else the reader's; where no stack has room the page stays in Backwater and only its data are
delivered. -/
def execDemandPromotionComplete (page : Nat) (s : State) : Res :=
  match s.page page with
  | none => .next s
  | some p =>
    match p.demand with
    | none => .next s
    | some die =>
      match settleAlloc (s.allocStacks die p.frame.sectors) with
      | some (f, s1) => .next (s1.landMove page f)
      | none => .next ((s.setPage page (some { p with demand := none, fetched := true })).startLater page)

/-! Epochs and decisions (R198, R200). -/

/-- Heat at an epoch close. -/
def Page.decay (p : Page) : Page := { p with heat := Nat.min 65535 (p.heat / 2 + p.acc / 2), acc := 0 }

/-- A move of a mapped page started to a frame, by the epoch close `order`, or by a forced decision (0). -/
def State.startMove (s : State) (order key : Nat) (p : Page) (f : Frame) : State :=
  s.setPage key (some { p with move := some f, order := order })

/-- A decision to move a page to the stacks of a die: a page that is moving waits for its move to end (R204); `find` gives the
frame. -/
def State.decideMove (s : State) (order key die : Nat) (p : Page) (find : State → Option (Frame × State)) : State :=
  if p.moving then s.setPage key (some { p with later := p.later ++ [(some die, order)] })
  else match settleAlloc (find s) with
    | some (f, t) => t.startMove order key p f
    | none => s

/-- A page lies on a die's stacks. -/
def Page.onDie (p : Page) (d : Nat) : Bool := p.frame.tier ≠ tierBw && p.frame.tier / 2 = d

/-- Row 1: a pinned page not where its pin requires. -/
def State.movePinned (s : State) (order key : Nat) (p : Page) : State :=
  let h := s.hintOf key
  if h.2.1 = 2 ∧ p.onDie h.2.2 = false then s.decideMove order key h.2.2 p (fun t => t.allocOnDie h.2.2 p.frame.sectors (t.reserveOf .hub))
  else if h.2.1 = 1 ∧ p.frame.tier = tierBw then s.decideMove order key p.lead p (fun t => t.allocStacks p.lead p.frame.sectors)
  else s

/-- The epoch close has decided about a page already: a page is a candidate for only the first row that selects it. -/
def Page.decided (p : Page) (order : Nat) : Bool :=
  (p.move.isSome && p.order = order) || p.later.any (fun x => x.2 = order)

/-- Row 3: a stack page whose LEAD is another die, with LEAD_CNT at least MIGRATE_LEAD at this close and the last. -/
def State.migrate (s : State) (order key : Nat) (p : Page) : State :=
  if p.decided order = false ∧ p.frame.tier ≠ tierBw ∧ p.frame.tier / 2 ≠ p.lead ∧ s.obj 0x6013 4 ≤ p.leadCnt
      ∧ s.obj 0x6013 4 ≤ p.prevCnt ∧ (s.hintOf key).2.1 ≠ 2 ∧ p.held = false then
    s.decideMove order key p.lead p (fun t => t.allocAboveFloor p.lead p.frame.sectors)
  else s

/-- Row 4: a Backwater page with HEAT at least PROMOTE_HEAT, not COLD or STREAM. -/
def State.promote (s : State) (order key : Nat) (p : Page) : State :=
  let h := (s.hintOf key).1
  if p.decided order = false ∧ p.frame.tier = tierBw ∧ s.obj 0x6013 3 ≤ p.heat ∧ h ≠ 2 ∧ h ≠ 3 then
    s.decideMove order key p.lead p (fun t => t.allocAboveFloor p.lead p.frame.sectors)
  else s

/-- A change made to every mapped page, in key order. -/
def State.eachPage (s : State) (f : State → Nat → Page → State) : State :=
  s.mem.pages.foldl (fun t e => match t.page e.1 with
    | some p => f t e.1 p
    | none => t) s

/-- *Placement decisions*, in order, of the epoch close with a number (R200). -/
def State.placementDecide (s : State) (order : Nat) : State :=
  let s1 := s.eachPage (fun t k p => t.movePinned order k p)
  let s2 := s1.dies.foldl (fun t d => t.demoteBelow order d) s1
  (s2.eachPage (fun t k p => t.migrate order k p)).eachPage (fun t k p => t.promote order k p)

/-- An epoch ends: heat decays, and the placement engine decides (R198, R200). -/
def State.closeEpoch (s : State) : State :=
  let s1 := s.eachPage (fun t k p => t.setPage k (some p.decay))
  let n := s1.mem.closes + 1
  ({ s1 with mem := { s1.mem with closes := n } }.placementDecide n).eachPage
    (fun t k p => t.setPage k (some { p with prevCnt := p.leadCnt }))

/-! The step plan (R203). -/

/-- The page keys in a range that are mapped. -/
def State.keysIn (s : State) (base len : Nat) : List Nat :=
  s.mem.pages.filterMap (fun e => if e.2 ≠ none ∧ e.1 / 2 < base + len ∧ base < s.keyStop e.1 then some e.1 else none)

/-- A page of a plan entry: moved towards the die's stacks if it is not there, and held. A pin takes precedence. -/
def State.planPage (s : State) (die key : Nat) : State :=
  match s.page key with
  | none => s
  | some p =>
    if (s.hintOf key).2.1 ≠ 0 then s
    else
      let h := { p with held := true }
      let s1 := s.setPage key (some h)
      if p.moving = false ∧ p.onDie die then s1 else s1.decideMove 0 key die h (fun t => t.allocStacks die p.frame.sectors)

/-- A core of a stage picks an item of a direction and block: entries that name them act, the first time in the step. -/
def State.planPick (s : State) (stage dir block : Nat) : State :=
  ((records 16 (s.blob 0x6012 0)).zipIdx).foldl (fun t e =>
    let b := e.1
    if wb b 3 0 12 = stage ∧ wb b 3 12 1 = dir ∧ wb b 3 13 8 = block ∧ !t.mem.planDone.contains e.2 then
      (t.keysIn (fld b 0 6) (65536 * wd b 2)).foldl (fun u k => u.planPage (wb b 3 21 3) k)
        { t with mem := { t.mem with planDone := sIns t.mem.planDone e.2 } }
    else t) s

/-- At a step boundary the holds end and the plan starts afresh (R184, R203). -/
def State.endHolds (s : State) : State :=
  { s with mem := { s.mem with
    planDone := [],
    pages := s.mem.pages.map (fun e => (e.1, e.2.map (fun (p : Page) => { p with held := false }))) } }

/-! Fresh, shadow and snapshot-held pages (R171, R172, R205). -/

/-- A page superseded by a fresh frame: its contents and frame are retained, and a move of it is voided (R204). `cut` is the step of an open checkpoint cut: a
page written at that step or earlier becomes snapshot-held (R205). None when no frame is free. -/
def State.freshen (s : State) (die : Nat) (cut : Option Nat) (key : Nat) : Option State :=
  match s.page key with
  | some p =>
    if p.fresh then some s
    else match s.allocFor (.update die) key with
      | none => none
      | some (f, s1) =>
        let snap := match cut with
          | some c => c % 2 ^ 32 = p.written || newer 32 c p.written
          | none => false
        let i := s1.mem.serial
        let s2 := { s1 with mem := { s1.mem with
          serial := i + 1,
          retained := mset none s1.mem.retained i (some ⟨key, { p with move := none, demand := none, later := [] }, s.pageCells key, snap⟩) } }
        let s3 := (s2.setPage key (some { p with
          frame := f, written := s.job.step % 2 ^ 32, move := none, demand := none, fetched := false, fresh := true,
          old := some i })).fillFrame f
        some (if p.moving then (s3.addObj 0x6026 4 64 1).startLater key else s3)
  | none =>
    match s.allocFor (.update die) key with
    | none => none
    | some (f, s1) => some ((s1.setPage key (some { freshPage f s.job.step with fresh := true })).fillFrame f)

/-- A retained page freed (R171, R205, R254). -/
def State.freeKept (s : State) (i : Nat) : State :=
  match s.kept i with
  | some r => (s.setKept i none).freeFrame r.page.frame r.page.poison
  | none => s

/-- Fresh pages that satisfy `q` freed, their shadow pages current again (R171, R180). -/
def State.discardFreshWhere (s : State) (q : Page → Bool) : State :=
  s.eachPage (fun t k p =>
    if p.fresh && q p then
      let t1 := t.unmapPage k
      match p.old with
      | none => t1
      | some i => match t1.kept i with
        | some r =>
          let t2 := { t1.setKept i none with mem := { (t1.setKept i none).mem with
            cells := (r.cells.foldl (fun (m : List Host.Cell) (c : Host.Cell) => wrByte m c.1 c.2) t1.mem.cells) } }
          t2.setPage k (some r.page)
        | none => t1
    else t)

/-- Every fresh page freed. -/
def State.discardFresh (s : State) : State := s.discardFreshWhere (fun _ => true)

/-- The step's fresh pages become current for good and the shadow pages are freed (R171, R205). -/
def State.commitFresh (s : State) : State :=
  let s1 := s.eachPage (fun t k p => if p.fresh then t.setPage k (some { p with fresh := false, old := none }) else t)
  s1.mem.retained.foldl (fun t e => match e.2 with
    | some r => if r.snap then t else t.freeKept e.1
    | none => t) s1

/-! Contents of older weight versions (R59, R60). -/

/-- A page holds state of a tensor of a stage and variant. -/
def State.pageOfTable (s : State) (stage variant key : Nat) : Bool :=
  s.dies.any (fun d => (s.tensorTable d).any (fun r => trStage r = stage && trVariant r = variant
    && (trRegions r).any (fun g => decide (g.1 < s.keyStop key) && decide (key / 2 < g.1 + g.2))))

/-- What the fresh pages of a table supersede at an APPLY verdict, kept for the micro-batches that hold the version that it ends
(R60). -/
def State.keepVersion (s : State) (stage variant version : Nat) : State :=
  let kept := s.mem.pages.filterMap (fun e => match e.2 with
    | some p =>
      if p.fresh && s.pageOfTable stage variant e.1 then
        some (⟨stage, variant, version, e.1, match p.old.bind s.kept with
          | some r => r.cells
          | none => []⟩ : Past)
      else none
    | none => none)
  { s with mem := { s.mem with past := s.mem.past ++ kept } }

/-- Every older version forgotten. -/
def State.forgetPast (s : State) : State := { s with mem := { s.mem with past := [] } }

/-- The cells that a page has in a version of a tensor's table (R60): those kept at the first APPLY from that version on that
changed the page; else those before a write under way that the version does not see; else the page's own. -/
def State.cellsAt (s : State) (r : TensorRec) (version key : Nat) : List Host.Cell :=
  let age := fun (x : Past) => (x.version + 65536 - version % 65536) % 65536
  let found := (s.mem.past.filter (fun x => x.stage = trStage r && x.variant = trVariant r && x.key = key && decide (age x < 32768))).foldl
    (fun (o : Option Past) x => match o with
      | some y => if age x < age y then some x else some y
      | none => some x) none
  match found, s.page key with
  | some x, _ => x.cells
  | none, some p =>
    if p.fresh && (s.vtable (trStage r) (trVariant r)).any (fun v => v.st = .pending && v.number ≠ version) then
      (match p.old.bind s.kept with
        | some k => k.cells
        | none => [])
    else s.mem.cells
  | none, none => s.mem.cells

/-- Bytes of a tensor in a version. -/
def State.bytesAt (s : State) (r : TensorRec) (version a n : Nat) : List Byte :=
  (s.access a n).flatMap (fun p => rdBytes (s.cellsAt r version p.key) p.addr p.len)

/-! Releasing pages (R207). -/

/-- Every page that lies wholly in a range becomes unmapped; its shadow and snapshot-held frames last until their own
ends. -/
def State.releaseRange (s : State) (base len : Nat) : State :=
  s.eachPage (fun t k _ => if base ≤ k / 2 ∧ t.keyStop k ≤ base + len then t.unmapPage k else t)

/-- The releases that waited for a step boundary. -/
def State.releaseWaiting (s : State) : State :=
  s.mem.releases.foldl (fun t r => t.releaseRange r.1 r.2) { s with mem := { s.mem with releases := [] } }

/-! The page query (R214). -/

/-- *Page query result* of a logical address. -/
def State.pageQuery (s : State) (a : Nat) : List Byte :=
  let key := s.pageKey a
  let h := s.hintOf key
  let hw := h.1 * 2 ^ 18 + h.2.1 * 2 ^ 20 + h.2.2 * 2 ^ 22
  let shadows := fun (snap : Bool) => s.mem.retained.any (fun e => e.2.any (fun r => r.key = key && r.snap = snap))
  let kept := b01 (shadows false) * 2 ^ 25 + b01 (shadows true) * 2 ^ 26
  match s.page key with
  | none => wordsLE [hw + kept, 0, 0, 0]
  | some p =>
    let stack := if p.frame.tier = tierBw then 0 else p.frame.tier
    wordsLE [1 + key % 2 + b01 (p.frame.tier = tierBw) * 4 + stack * 8 + p.lead * 2 ^ 7 + p.leadCnt * 2 ^ 10 + hw
        + kept + b01 p.moving * 2 ^ 27 + b01 (p.poison ≠ []) * 2 ^ 28,
      p.heat + p.frame.sectors * 2 ^ 16, p.frame.first, p.written]

/-- Every page unmapped (R213); retired sectors are never allocated again (R210). -/
def State.wipeMemory (s : State) : State := { s with mem := { Tiered.reset with retired := s.mem.retired } }

end Sys2Proof.Machine
end

