-- ==== Sys2Proof/Machine/Pick.lean ====
section
/-! DEFINITION. Picking work (R52 to R57, R60, R79, R144, R153 to R155): PICK, the pick function and the pick record. -/

namespace Sys2Proof.Machine

/-- Micro-batches per step: MICROBATCHES_PER_STEP, or under the stashed schedule, where a step is one update interval,
STASH_UPDATE_INTERVAL (R57, R64). -/
def State.perStep (s : State) : Nat := if s.obj 0x4001 1 = 1 then s.obj 0x4001 3 else s.obj 0x4001 2

/-- The job micro-batch number of an identifier: the one that R42 gives it nearest the step in progress. -/
def State.nOf (s : State) (mbId : Nat) : Nat :=
  let low := s.job.mbBase - 4096
  low + (mbId + 65536 - low % 65536) % 65536

/-- The variant of micro-batch n (R42). -/
def State.variantOf (s : State) (n : Nat) : Nat :=
  let cycle := s.blob 0x4001 6
  if cycle = [] then 0 else (cycle.getD (n % cycle.length) 0).toNat % 64

/-- The forward limit L_k of a stage entry: 0 selects P − k (R52, R159). -/
def State.limitOf (s : State) (e : StageEntry) : Nat := if e.limit = 0 then s.obj 0x4001 5 - e.stage else e.limit

/-- The stage is the last. -/
def State.lastStage (s : State) (e : StageEntry) : Bool := e.stage + 1 = s.obj 0x4001 5

/-! Ends of items. -/

/-- The core's half of a micro-batch completes with its backward item of block 0, at a core with no upstream stream
(R54). -/
def State.endBackward (s : State) (c : Nat) (i : Item) : State :=
  match (s.core c).flight i.mbId with
  | none => s
  | some r =>
    let ig := decide (i.block = 0) && (s.upStreams c).isEmpty
    let s1 := s.onCore c (fun k => k.setFlight { r with bwdDone := r.bwdDone + 1, igDone := r.igDone || ig })
    if ig then s1.gradientDone c i.n else s1

/-- The current item of a core ends (R54, R145, R153). -/
def State.endItem (s : State) (c : Nat) : State :=
  match (s.core c).item with
  | none => s
  | some i =>
    let s1 := match i.kind with
      | .forward => s.onCore c (fun k => match k.flight i.mbId with
        | some r => k.setFlight { r with fwdDone := r.fwdDone + 1 }
        | none => k)
      | .backward => s.endBackward c i
      | .oxbow => s.onCore c (fun k =>
        let l := k.layer i.layer
        k.setLayer i.layer { l with ran := l.ran + 1 })
      | .done => s
    s1.onCore c (fun k => { k with item := none })

/-! The pick function. -/

/-- What the pick function returns. -/
inductive Choice where
  | forward (mbId n : Nat)
  | backward (mbId n : Nat)
  /-- The Oxbow entry at a place of the Oxbow. -/
  | oxbow (at' : Nat)
  | done
  /-- Rank 6: whether some forward item was refused only for lack of downstream credit. -/
  | wait (blocked : Bool)
deriving DecidableEq, Repr

/-- The lowest of a list of numbers. -/
def lowest : List Nat → Option Nat
  | [] => none
  | x :: l => match lowest l with
    | none => some x
    | some y => some (if x ≤ y then x else y)

/-- The in-flight records of a core. -/
def CoreState.flights (k : CoreState) : List InFlight := k.inflight.filterMap (fun e => e.2)

/-- The identifiers whose first message on a side of a stream has been accepted (R52). -/
def Stream.arrivedIds (v : Stream) (side : Nat) : List Nat :=
  (v.side side).entries.filterMap (fun e =>
    if e.2.live ∧ 0 < e.2.rxNext then some (e.1 + 4096 * e.2.expects v.base e.1) else none)

/-- On every one of some streams, the first message of an identifier is accepted on a side. -/
def State.allArrived (s : State) (streams : List Nat) (side mbId : Nat) : Bool :=
  streams.all (fun i => match s.stream i with
    | some v => (v.arrivedIds side).contains mbId
    | none => false)

/-- Micro-batch numbers with data on some of the streams. -/
def State.withData (s : State) (streams : List Nat) (side : Nat) : List Nat :=
  streams.flatMap (fun i => match s.stream i with
    | some v => (v.arrivedIds side).map s.nOf
    | none => [])

/-- The core makes its own backward input: on the last stage, or with no downstream stream (R52). -/
def State.ownBackward (s : State) (c : Nat) (e : StageEntry) : Bool := s.lastStage e || (s.downStreams c).isEmpty

/-- Rank 3: the micro-batch being continued, else the oldest with backward data, where it is allowed. Under the stashed schedule
micro-batches of later update intervals may be in flight: their backward work belongs to their own interval (R64, assumption
166). -/
def State.backwardPick (s : State) (c : Nat) (e : StageEntry) : Option Nat :=
  let fs := (s.core c).flights
  match lowest ((fs.filter (fun r => 0 < r.bwdDone && r.bwdDone < e.blocks)).map (fun r => r.n)) with
  | some n => some n
  | none =>
    let fresh := fs.filter (fun r => r.bwdDone = 0 && decide (r.n < s.job.mbBase + s.perStep))
    if s.ownBackward c e then lowest ((fresh.filter (fun r => e.blocks ≤ r.fwdDone)).map (fun r => r.n))
    else
      let data := s.withData (s.downStreams c) 1
      match lowest ((fresh.filter (fun r => data.contains r.n)).map (fun r => r.n)) with
      | some n => if s.allArrived (s.downStreams c) 1 (n % 65536) then some n else none
      | none => none

/-- Micro-batches in flight at a stage (R52, R54). -/
def State.stageFlights (s : State) (stage : Nat) : List (Nat × StageMb) := mget [] s.stageMbs stage

/-- A committed layout change has not run, and the schedule is stashed: stage 0 takes no new micro-batch (R228). -/
def State.heldBack (s : State) : Bool := s.obj 0x4001 1 = 1 && s.obj 0x4034 1 = (s.obj 0x4035 1 + 1) % 2 ^ 32

/-- Rank 4 without its credit condition: the micro-batch being continued, else the oldest new one, where the forward limit
and its messages allow it. Under the stashed schedule a core with no upstream stream goes on past the update interval, as far as
the forward limit lets it (R64). -/
def State.forwardPick (s : State) (c : Nat) (e : StageEntry) : Option Nat :=
  let k := s.core c
  let fs := k.flights
  match lowest ((fs.filter (fun r => r.fwdDone < e.blocks)).map (fun r => r.n)) with
  | some n => some n
  | none =>
    let flights := s.stageFlights e.stage
    let room := fun (n : Nat) => flights.any (fun x => x.1 = n) || flights.length < s.limitOf e
    if (s.upStreams c).isEmpty then
      let n := s.job.mbBase + k.taken
      if (s.obj 0x4001 1 = 1 ∨ k.taken < s.perStep) ∧ room n ∧ !s.heldBack then some n else none
    else
      match lowest ((s.withData (s.upStreams c) 0).filter (fun n => !fs.any (fun r => r.n = n))) with
      | some n => if s.allArrived (s.upStreams c) 0 (n % 65536) ∧ room n then some n else none
      | none => none

/-- Every downstream forward side has at least one credit, or the stage is the last (R52). -/
def State.forwardCredit (s : State) (c : Nat) (e : StageEntry) : Bool :=
  s.lastStage e || (s.downStreams c).all (fun i => match s.stream i with
    | some v => 0 < v.fwd.credit
    | none => true)

/-- The Oxbow places of entries that R56 allows to run: the oldest of each layer. -/
def oldestOfLayers : List OxEntry → List Nat → Nat → List Nat
  | [], _, _ => []
  | x :: l, seen, i =>
    if seen.contains x.layer then oldestOfLayers l seen (i + 1) else i :: oldestOfLayers l (x.layer :: seen) (i + 1)

/-- Layers with a pending drain point: a reduction send for the layer waits in the drain hold (R57). -/
def CoreState.pendingLayers (k : CoreState) : List Nat := k.drainHold.map (fun d => wb d.bytes 2 0 12)

/-- Rank 1: the oldest entry of a layer with a pending drain point; of several such layers, the one whose entry stands first in
the Oxbow (assumption 167). -/
def CoreState.rank1 (k : CoreState) : Option Nat :=
  (oldestOfLayers k.oxbow [] 0).find? (fun i => match k.oxbow[i]? with
    | some x => k.pendingLayers.contains x.layer
    | none => false)

/-- Every Oxbow entry that a core has queued in the step has run. -/
def CoreState.oxbowDone (k : CoreState) : Bool := k.oxbow.isEmpty && k.layers.all (fun e => e.2.queued = e.2.ran)

/-- Every micro-batch of the step has completed both halves at the stage (R144). -/
def State.stepDone (s : State) (e : StageEntry) : Bool :=
  s.perStep ≤ mget 0 s.stageDone e.stage && (s.stageCores e.stage).all (fun c => (s.core c).oxbowDone)

/-- *Pick order* (R52, R53). -/
def State.choose (s : State) (c : Nat) : Choice :=
  let k := s.core c
  match s.stageOf c with
  | none => .done
  | some e =>
    if s.stepDone e then .done
    else
      let b := s.backwardPick c e
      let f0 := s.forwardPick c e
      let credit := s.forwardCredit c e
      let f := if credit then f0 else none
      let back := fun (n : Nat) => Choice.backward (n % 65536) n
      let forth := fun (n : Nat) => Choice.forward (n % 65536) n
      match k.rank1 with
      | some i => .oxbow i
      | none =>
        if 256 ≤ k.oxbow.length then .oxbow 0
        else
          let middle : Option Choice :=
            if s.obj 0x4001 4 = 1 then
              match b, f with
              | some x, some y => some (if x ≤ y then back x else forth y)
              | some x, none => some (back x)
              | none, some y => some (forth y)
              | none, none => none
            else match b, f with
              | some x, _ => some (back x)
              | none, some y => some (forth y)
              | none, none => none
          match middle with
          | some x => x
          | none => if k.oxbow.isEmpty then .wait (f0.isSome && !credit) else .oxbow 0

/-! The answer (R42, R60, R144, R203). -/

/-- *Pick record* (R144), at 0xED00. The fields that a kind of item gives no value are free values. -/
def pickRecord (i : Item) (step : Nat) (payload : List Byte) : List Byte :=
  wordsLE [i.kind.code + i.block * 2 ^ 8, i.mbId + i.variant * 2 ^ 16, i.version, i.layer, step % 2 ^ 32, step / 2 ^ 32 % 2 ^ 32, 0, 0]
    ++ padTo 32 payload

/-- Bytes that the spec gives no value, from a reading of the free-value counter. -/
def freeBytes (n f : Nat) : List Byte := leBytes n (Config.freeNat f)

/-- An item begins: the pick record and KIND are written, and the program goes on. -/
def State.beginItem (s : State) (c : Nat) (i : Item) (payload : List Byte) : State :=
  let k := s.core c
  match k.waiting with
  | .pick rd =>
    let k1 := k.sdmWrite 0xED00 (pickRecord i s.job.step payload)
    let k2 := { k1 with item := some i, doneSpan := decide (i.kind = Kind.done), waiting := .none }
    (s.setCore c (k2.setReg rd (BitVec.ofNat 64 i.kind.code))).advance c
  | _ => s

/-- The CURRENT slot of a version table. -/
def currentSlot (t : List VSlot) : Option VSlot := t.find? (fun x => x.st = .current)

/-- A holder joins the CURRENT slot (R60). -/
def takeVersion (t : List VSlot) : List VSlot := t.map (fun x => if x.st = .current then { x with holders := x.holders + 1 } else x)

/-- A micro-batch's first forward item at a core (R42, R60): the stage takes the CURRENT version once, and the core gets its
in-flight record. A table without a CURRENT slot, which the spec does not describe, gives a free version number. -/
def State.takeMicrobatch (s : State) (c : Nat) (e : StageEntry) (n variant : Nat) : State :=
  let up := s.upStreams c
  let flights := s.stageFlights e.stage
  let joined : Nat × State := match flights.find? (fun x => x.1 = n) with
    | some x => (x.2.version, s)
    | none =>
      let t := s.vtable e.stage variant
      let v := match currentSlot t with
        | some x => x.number
        | none => Config.freeNat s.free % 65536
      let s1 := { s with
        stageMbs := mset [] s.stageMbs e.stage (flights ++ [(n, StageMb.mk variant v [])]),
        free := if (currentSlot t).isSome then s.free else s.free + 1 }
      (v, s1.setVtable e.stage variant (takeVersion t))
  joined.2.onCore c (fun k =>
    { k.setFlight ⟨n, n % 65536, variant, joined.1, 0, 0, false, []⟩ with taken := if up.isEmpty then k.taken + 1 else k.taken })

/-- The variant of a micro-batch that a core meets: by R42 at a core with no upstream stream, else from the header of its
first forward message. -/
def State.pickVariant (s : State) (c n : Nat) : Nat :=
  match (s.upStreams c).findSome? (fun i => match s.stream i with
    | some v => ((v.fwd.entry (n % 4096)).arrived.head?).map (fun a => wb a.header 1 16 6)
    | none => none) with
  | some x => x
  | none => s.variantOf n

/-- An item of a micro-batch begins: forward items run blocks upwards, backward items downwards. -/
def State.beginMb (s : State) (c : Nat) (e : StageEntry) (kind : Kind) (mbId : Nat) : State :=
  match (s.core c).flight mbId with
  | none => s
  | some r =>
    let block := if kind = .forward then r.fwdDone else e.blocks - 1 - r.bwdDone
    let i : Item := ⟨kind, block, mbId, r.n, r.variant, r.version, Config.freeNat s.free % 4096, false, [], [], [], false⟩
    ({ s with free := s.free + 2 }.beginItem c i (freeBytes 32 (s.free + 1))).planPick e.stage (if kind = Kind.forward then 0 else 1) block

/-- A waiting pick answered with a choice. -/
def State.answer (s : State) (c : Nat) (e : Option StageEntry) : Choice → State
  | .forward mbId n =>
    match e with
    | none => s
    | some e =>
      let s1 := if ((s.core c).flight mbId).isSome then s else s.takeMicrobatch c e n (s.pickVariant c n)
      s1.beginMb c e .forward mbId
  | .backward mbId _ =>
    match e with
    | none => s
    | some e => s.beginMb c e .backward mbId
  | .oxbow at' =>
    let k := s.core c
    match k.oxbow[at']? with
    | none => s
    | some x =>
      let s1 := s.setCore c { k with oxbow := k.oxbow.eraseIdx at' }
      let i : Item := ⟨.oxbow, Config.freeNat s.free % 256, x.mbId, x.n, x.variant, x.version, x.layer, false, [], [], [], false⟩
      { s1 with free := s1.free + 1 }.beginItem c i x.payload
  | .done =>
    let f := s.free
    let i : Item := ⟨.done, Config.freeNat f % 256, Config.freeNat (f + 1) % 65536, 0, Config.freeNat (f + 2) % 64,
      Config.freeNat (f + 3) % 65536, Config.freeNat (f + 4) % 4096, false, [], [], [], false⟩
    { s with free := f + 6 }.beginItem c i (freeBytes 32 (f + 5))
  | .wait blocked =>
    { s with free := s.free + 1 }.addObj (if blocked then 0xB100 else 0xB101) c 64 (Config.freeNat s.free)

/-- PICK_ANSWER (R52): a waiting pick is answered; while no rank is allowed it waits, and the beats of the wait are
counted (R54). -/
def execPickAnswer (core : Nat) (s : State) : Res :=
  let k := s.core core
  match k.run, k.waiting with
  | .running, .pick _ => .next (s.answer core (s.stageOf core) (s.choose core))
  | _, _ => .next s

/-- PICK (R144, R154, R155): it first waits until the item's descriptors have retired, except its sends; an item that still
holds a Sluice tile is a PROGRAM_FAULT. The item ends, PER_STEP 0 intervals close (R79), and the pick waits to be answered;
a core with no stage entry gets KIND 3 at once. -/
def execPick (core : Nat) (rd : Reg) (s : State) : Res :=
  if s.runs core then
    let k := s.core core
    if k.item ≠ none ∧ ¬ k.itemRetired then .next s
    else if k.itemHolds then .next (s.programFault core causeStructure)
    else
      let s1 := ((s.endItem core).closeIntervals core 0).onCore core (fun k => { k with waiting := .pick rd, doneSpan := false })
      match s.stageOf core with
      | some _ => .next s1
      | none => .next (s1.answer core none .done)
  else .next s

end Sys2Proof.Machine
end

