-- ==== Sys2Proof/Machine/Update.lean ====
section
/-! DEFINITION. The update unit (R162 to R185): the learning rate, the fixed menu, the keep modes, arrival and apply of
gradient tiles, and UFETCH. -/

namespace Sys2Proof.Machine

/-! Update units. -/

/-- A die's update unit. -/
def State.unit (s : State) (die : Nat) : UpdUnit := mget .reset s.upd die

/-- A die's update unit replaced. -/
def State.setUnit (s : State) (die : Nat) (u : UpdUnit) : State := { s with upd := mset .reset s.upd die u }

/-- The arrival buffer's tiles (R168). -/
def arrivalTiles : Nat := 512

/-- The vote bit set (R179). -/
def State.setVote (s : State) (b : Bool) : State := if b then { s with job := { s.job with vote := true } } else s

/-! Rule sets (R173, R174). -/

/-- The schedule's learning rate at a step: before its first point the first rate, from its last point the last, and
interpolated between (R173). -/
def rateAt (step : Nat) : List (Nat × Nat) → Nat
  | [] => 0
  | [(_, lr)] => lr
  | (s0, lr0) :: (s1, lr1) :: rest =>
    if step < s0 then lr0
    else if step < s1 then
      fadd lr0 (fmul (fsub lr1 lr0) (fdiv (ofNat32 (step - s0)) (ofNat32 (s1 - s0))))
    else rateAt step ((s1, lr1) :: rest)

/-- What a step's updates take from a rule set, as FP32 bits. -/
structure Rules where
  beta1     : Nat
  beta2     : Nat
  eps       : Nat
  decay     : Nat
  gradScale : Nat
  nesterov  : Bool
  lr        : Nat
  omb1      : Nat
  omb2      : Nat
deriving DecidableEq, Repr

/-- The schedule points in use of a rule set. -/
def State.ratePoints (s : State) (n : Nat) : List (Nat × Nat) :=
  (List.range (s.obj (0x5100 + n) 0x10)).map (fun i =>
    let v := s.obj (0x5100 + n) (0x11 + i)
    (v % 2 ^ 32, v / 2 ^ 32))

/-- The rule set `n` for a step. -/
def State.rules (s : State) (n step : Nat) : Rules :=
  let o := fun i => s.obj (0x5100 + n) i
  { beta1 := o 1, beta2 := o 2, eps := o 3, decay := o 4, gradScale := o 5, nesterov := o 6 = 1,
    lr := rateAt step (s.ratePoints n), omb1 := fsub one32 (o 1), omb2 := fsub one32 (o 2) }

/-! The fixed menu (R174). -/

/-- One element's direction and new moments under rules 1 to 3; `b1p` and `b2p` are the header's powers after they
advanced. `f` is a free word: the direction of a NaN under sign momentum, which R174 does not state. -/
def menu (u : Rules) (rule b1p b2p m v gIn f : Nat) : Nat × Nat × Nat :=
  let g := fmul gIn u.gradScale
  if rule = 1 then
    let m1 := ffma u.beta1 m g
    (if u.nesterov then ffma u.beta1 m1 g else m1, m1, v)
  else if rule = 2 then
    let m1 := ffma u.beta1 m (fmul u.omb1 g)
    let v1 := ffma u.beta2 v (fmul u.omb2 (fmul g g))
    let mh := fdiv m1 (fsub one32 b1p)
    let vh := fdiv v1 (fsub one32 b2p)
    (fdiv mh (fadd (fsqrt vh) u.eps), m1, v1)
  else
    let c := ffma u.beta1 m (fmul u.omb1 g)
    let dd := if (f32 c).isNan then f else if (f32 c).isZero then 0 else if (f32 c).sign then 0xBF800000 else one32
    (dd, ffma u.beta2 m (fmul u.omb2 g), v)

/-- The step value of a direction: the last line of R174. -/
def stepValue (u : Rules) (w dd : Nat) : Nat := fnegB (fmul u.lr (ffma u.decay w dd))

/-- A matrix rule's fold of a gradient element into momentum (R175). -/
def foldMomentum (u : Rules) (m gIn : Nat) : Nat := ffma u.beta1 m (fmul u.omb1 (fmul gIn u.gradScale))

/-! Keep modes (R166, R167). -/

/-- The block scale exponent under which an element of a stored tile reads. -/
def TileFmt.elemScale (t : TileFmt) (raw : List Byte) (i : Nat) : Int :=
  if t.scaled then (blockExp ((raw.drop t.elemBytes).getD (t.scaleIx (i / 64) (i % 64)) 0).toNat).getD 0 else 0

/-- The exponent of q(v): the quantum of a value in a format at a block scale (R166). -/
def quantumAt (f : Fmt) (k : Int) (x : Num) : Int :=
  match x.scale (-k) with
  | .fin _ m e => (if m = 0 then (if f.isInt then 0 else 1 - (f.bias : Int) - f.frac) else quantum f m e) + k
  | _ => k

/-- An update is stagnant: its step value lies below half a quantum (R167). -/
def stagnant (delta : Nat) (q : Int) : Bool :=
  match f32 delta with
  | .fin _ m e => magLt m e 1 (q - 1)
  | _ => false

/-- The residual after a write: the remainder in 1/256 of the new quantum, clamped (R166); of a NaN, the free byte. -/
def residual (e : Nat) (q : Int) (f : Nat) : Byte :=
  match f32 e with
  | .fin n m ex =>
    let r : Int := roundQ m (ex + 8 - q) 0 none
    let v := if n then -r else r
    BitVec.ofInt 8 (if v < -128 then -128 else if 127 < v then 127 else v)
  | .inf n => if n then 0x80 else 0x7F
  | .nan => BitVec.ofNat 8 f

/-- What a keep mode writes for a whole tile. -/
structure Kept where
  work     : List Byte
  master   : List Byte
  resid    : List Byte
  sats     : Nat
  /-- NaNs that the working tile's format takes as +0 (R84). -/
  zeroed   : Nat
  stagnant : Nat
  nf       : Bool
deriving DecidableEq, Repr

/-- FP32 words stored by the update-unit store path: −0 as +0, NaNs canonical, infinities saturated and counted (R83 to
R85). -/
def storeWords (ws : Array Nat) : List Byte × Nat :=
  let os := ws.toList.map (fun w => storeElem fp32 (f32 w) none)
  (packElems 32 (os.map (fun o => o.bits)), os.foldl (fun n o => if o.sat then n + 1 else n) 0)

/-- Whether a tile holds a non-finite FP32 word among the elements that `live` names. -/
def anyNonFinite (live : Nat → Bool) (ws : Array Nat) : Bool := ws.toList.zipIdx.any (fun p => live p.2 && !finB p.1)

/-- R166: each element written by its keep mode. `w` is the working tile widened, `master` the old masters, `resid` the old
residuals, `delta` the step values, `draws` the lanes' draws under BARE; `live` tells elements from padding, which is
written as +0. -/
def keepTile (form : TileFmt) (keep : Nat) (raw : List Byte) (w master delta : Array Nat) (resid : Array Byte)
    (draws : List (Option Nat)) (live : Nat → Bool) (f : Nat) : Kept :=
  let fm := fmtD form.format
  let z : Num := .fin false 0 0
  let qOld := fun i => quantumAt fm (form.elemScale raw i) (f32 (w.getD i 0))
  let xs : Array Nat := Array.ofFn (n := 4096) (fun i =>
    let d := delta.getD i.val 0
    if !live i.val then 0
    else if keep = 0 then fadd (master.getD i.val 0) d
    else if keep = 1 then fadd (w.getD i.val 0) d
    else
      let r := (resid.getD i.val 0).toInt
      let c := rne32 (numAdd (f32 d) (.fin (decide (r < 0)) r.natAbs (qOld i.val - 8)))
      fadd (w.getD i.val 0) c)
  let es : Array StElem := Array.ofFn (n := 4096) (fun i =>
    { x := if live i.val then f32 (xs.getD i.val 0) else z, draw := if keep = 1 then draws.getD i.val none else none, quiet := !live i.val })
  let st := storeTile form 0 es
  let wNew := (widenAll (loadTile form 0 st.1)).1
  let rs : List Byte := (List.range 4096).map (fun i =>
    if live i then
      residual (fsub (xs.getD i 0) (wNew.getD i 0)) (quantumAt fm (form.elemScale st.1 i) (f32 (wNew.getD i 0))) (bits f (8 * i) 8)
    else 0)
  let ms := storeWords xs
  { work := st.1, master := ms.1, resid := rs, sats := st.2.sats + (if keep = 0 then ms.2 else 0), zeroed := st.2.zeroed,
    stagnant := if keep = 0 then 0 else ((List.range 4096).filter (fun i => live i && stagnant (delta.getD i 0) (qOld i))).length,
    nf := anyNonFinite live xs }

/-! The state header (R163, R174). -/

/-- The header after one advance. -/
def advanceHeader (u : Rules) (step : Nat) (h : List Byte) : List Byte :=
  wordsLE [(wd h 0 + 1) % 2 ^ 32, fmul (wd h 1) u.beta1, fmul (wd h 2) u.beta2, wd h 3, wd h 4, wd h 5, step % 2 ^ 32, step / 2 ^ 32 % 2 ^ 32]
    ++ (h.drop 32).take 32

/-- Stagnant updates added to a header. -/
def headerStagnant (n : Nat) (h : List Byte) : List Byte :=
  h.take 16 ++ leBytes 8 ((fld h 16 8 + n) % 2 ^ 64) ++ h.drop 24

/-- REFRESH_DUE of a header set. -/
def headerRefresh (n : Nat) (h : List Byte) : List Byte := h.take 12 ++ leBytes 4 n ++ h.drop 16

/-! State in tiered memory. -/

/-- Bytes of state read by a die's update unit. -/
def State.stateRead (s : State) (die a n : Nat) : List Byte × State := s.readTiered (.update die) a n

/-- Bytes of state written by a die's update unit, in pages already fresh. -/
def State.stateWrite (s : State) (die a : Nat) (bs : List Byte) : State := (s.writeTiered (.update die) a bs).getD s

/-- A tile of FP32 words read. -/
def State.wordsRead (s : State) (die a : Nat) : Array Nat × State :=
  let r := s.stateRead die a 16384
  ((unpackElems 32 4096 r.1).toArray, r.2)

/-- The extents of a tile's state (R162, R169): working and master tile, header and moments, residual. -/
def tileState (r : TensorRec) (i : Nat) : List (Nat × Nat) :=
  let st := (trForm r).stride
  [(trBase r 4 + i * st, st)]
    ++ (if trKeep r = 0 then [(trBase r 6 + 16384 * i, 16384)] else [])
    ++ [(trBase r 8, 64), (trBase r 8 + 64 + 16384 * i, 16384)]
    ++ (if trRule r = 2 then [(trBase r 10 + 16384 * i, 16384)] else [])
    ++ (if trKeep r = 2 then [(trBase r 12 + 4096 * i, 4096)] else [])

/-- The extents that an arriving tile writes: all of a fixed-menu tile's state, the momentum alone under a matrix rule
(R175). -/
def tileWrites (r : TensorRec) (i : Nat) : List (Nat × Nat) :=
  if 4 ≤ trRule r then [(trBase r 8 + 64 + 16384 * i, 16384)] else tileState r i

/-- The pieces of extents. -/
def State.piecesOf (s : State) (xs : List (Nat × Nat)) : List Piece := xs.flatMap (fun x => s.access x.1 x.2)

/-- The step of the open checkpoint cut (R205). -/
def State.cutStep (s : State) : Option Nat := s.ckpt.cut.map (fun (c : Cut) => c.step)

/-- Every page of some pieces fresh (R171), or none when no frame is free. -/
def State.freshenAll (s : State) (die : Nat) (ps : List Piece) : Option State :=
  ps.foldl (fun o p => match o with
    | some t => t.freshen die t.cutStep p.key
    | none => none) (some s)

/-- Whether a drain of an open cut is in progress (R206). -/
def State.draining (s : State) : Bool :=
  match s.ckpt.cut with
  | some c => !c.done
  | none => false

/-- An update-unit write that finds no frame: it holds while a checkpoint drain runs, else the package faults (R206). -/
def State.updateFull (s : State) (die : Nat) : State :=
  if s.draining then
    let u := s.unit die
    if u.blocked then s else (s.setUnit die { u with blocked := true }).addObj 0x6028 0 64 1
  else s.memFull (.update die)

/-! Riffle draws of an update unit (R91, R170). -/

/-- One draw for each element of a tile, lane j taking elements j, j + 256 and so on. -/
def State.drawUpdate (s : State) (die : Nat) : List (Option Nat) × State :=
  let u := s.unit die
  let r := drawAll (fun l => s.laneSeed die 15 10 l) ((List.range 4096).map (fun i => (i % 256, true))) u.riffle []
  (r.1, s.setUnit die { u with riffle := r.2 })

/-! Applying a tile (R166 to R175). -/

/-- Elements of a tensor's tile that are not padding. -/
def liveElem (r : TensorRec) (i e : Nat) : Bool :=
  decide (64 * (i / trTC r) + e / 64 < trRows r) && decide (64 * (i % trTC r) + e % 64 < trCols r)

/-- The sub-index of a die's update unit in the counters of R84 and R86 that the dictionary shows for cores alone: no core's
(DESIGN CHOICE, assumption 173). -/
def unitSub (die : Nat) : Nat := 16 * die + 15

/-- A tile's elements written under their keep mode from directions `dd`; the pages are fresh. -/
def State.writeElems (s : State) (die : Nat) (r : TensorRec) (u : Rules) (i : Nat) (dd : Array Nat) : State :=
  let form := trForm r
  let keep := trKeep r
  let live := liveElem r i
  let a := trBase r 4 + i * form.stride
  let work := s.stateRead die a form.raw
  let loaded := widenAll (loadTile form 0 work.1)
  let w := loaded.1
  let ma := if keep = 0 then work.2.wordsRead die (trBase r 6 + 16384 * i) else (#[], work.2)
  let re := if keep = 2 then ma.2.stateRead die (trBase r 12 + 4096 * i) 4096 else ([], ma.2)
  let base := fun (e : Nat) => if keep = 0 then ma.1.getD e 0 else w.getD e 0
  let delta : Array Nat := Array.ofFn (n := 4096) (fun e => stepValue u (base e.val) (dd.getD e.val 0))
  let dr := if keep = 1 then re.2.drawUpdate die else ([], re.2)
  let k := keepTile form keep work.1 w ma.1 delta re.1.toArray dr.1 live (Config.freeNat s.free)
  let s1 := { dr.2 with free := dr.2.free + 1 }.stateWrite die a k.work
  let s2 := if keep = 0 then s1.stateWrite die (trBase r 6 + 16384 * i) k.master else s1
  let s3 := if keep = 2 then s2.stateWrite die (trBase r 12 + 4096 * i) k.resid else s2
  let h := s3.stateRead die (trBase r 8) 64
  let s4 := if k.stagnant = 0 then h.2 else h.2.stateWrite die (trBase r 8) (headerStagnant k.stagnant h.1)
  ((((s4.addObj 0x5014 die 64 k.sats).addObj 0x5012 (unitSub die) 64 loaded.2).addObj 0x5011 (unitSub die) 64 k.zeroed).addObj
    0x5032 die 64 k.stagnant).setVote k.nf

/-- A tensor's header advanced, once in the step (R174). -/
def State.advanceTensor (s : State) (die : Nat) (r : TensorRec) (u : Rules) (step : Nat) : State :=
  let t := wb r 0 0 12
  let v := s.unit die
  if v.headed.contains t then s
  else
    let h := s.stateRead die (trBase r 8) 64
    (h.2.stateWrite die (trBase r 8) (advanceHeader u step h.1)).setUnit die { h.2.unit die with headed := sIns v.headed t }

/-- A fixed-menu tile applied; its pages are fresh. -/
def State.applyMenu (s : State) (die : Nat) (r : TensorRec) (t : GradTile) : State :=
  let u := s.rules (trSet r) t.step
  let s1 := s.advanceTensor die r u t.step
  let h := s1.stateRead die (trBase r 8) 64
  let m := h.2.wordsRead die (trBase r 8 + 64 + 16384 * t.tile)
  let v := if trRule r = 2 then m.2.wordsRead die (trBase r 10 + 16384 * t.tile) else (#[], m.2)
  let g := (unpackElems 32 4096 t.data).toArray
  let live := liveElem r t.tile
  let f := Config.freeNat s.free
  let out : Array (Nat × Nat × Nat) := Array.ofFn (n := 4096) (fun e =>
    if live e.val then
      menu u (trRule r) (wd h.1 1) (wd h.1 2) (m.1.getD e.val 0) (v.1.getD e.val 0) (g.getD e.val 0) (bits f (32 * e.val) 32)
    else (0, 0, 0))
  let ms := storeWords (out.map (fun x => x.2.1))
  let vs := storeWords (out.map (fun x => x.2.2))
  let s2 := { v.2 with free := v.2.free + 1 }.stateWrite die (trBase r 8 + 64 + 16384 * t.tile) ms.1
  let s3 := if trRule r = 2 then s2.stateWrite die (trBase r 10 + 16384 * t.tile) vs.1 else s2
  let nf := anyNonFinite live (out.map (fun x => x.2.1)) || (trRule r = 2 && anyNonFinite live (out.map (fun x => x.2.2)))
  ((s3.addObj 0x5014 die 64 (ms.2 + (if trRule r = 2 then vs.2 else 0))).setVote nf).writeElems die r u t.tile (out.map (fun x => x.1))

/-- A matrix-rule tile folded into momentum (MOMENTUM_FOLD, R175). -/
def State.applyFold (s : State) (die : Nat) (r : TensorRec) (t : GradTile) : State :=
  let u := s.rules (trSet r) t.step
  let a := trBase r 8 + 64 + 16384 * t.tile
  let m := s.wordsRead die a
  let g := (unpackElems 32 4096 t.data).toArray
  let live := liveElem r t.tile
  let out : Array Nat := Array.ofFn (n := 4096) (fun e => if live e.val then foldMomentum u (m.1.getD e.val 0) (g.getD e.val 0) else 0)
  let ms := storeWords out
  ((m.2.stateWrite die a ms.1).addObj 0x5014 die 64 ms.2).setVote (anyNonFinite live out)

/-- The version slot that an apply writes: the PENDING slot, or a FREE slot that becomes PENDING with the next number
(R59, R62, R63). None when no slot is FREE. -/
def pendVersion (t : List VSlot) : Option (List VSlot) :=
  if t.any (fun x => x.st = .pending) then some t
  else match t.findIdx? (fun x => x.st = .free) with
    | none => none
    | some i => some (t.set i ⟨.pending, (((currentSlot t).map (fun (x : VSlot) => x.number)).getD 0 + 1) % 65536, 0⟩)

/-- What becomes of the tile at the head of the arrival buffer (R169). -/
inductive Fate where
  | unknown
  | frozen (r : TensorRec)
  | overrun
  /-- Held: R172, or a merge lock or fenced die in the way. -/
  | held
  /-- A state page in Backwater (R183). -/
  | miss (ps : List Piece)
  /-- A state line reads uncorrectable (R210). -/
  | ue (address tier : Nat)
  /-- A state tile that RAW_CRC refuses (R196, R209). -/
  | refused (address : Nat)
  /-- No FREE version slot (R63). -/
  | noVersion
  | apply (r : TensorRec) (versions : List VSlot)
deriving DecidableEq, Repr

/-- *Arrival outcomes*, by the first row that fits. -/
def State.fate (s : State) (die : Nat) (t : GradTile) : Fate :=
  match s.tensor die t.tensor with
  | none => .unknown
  | some r =>
    if trTiles r ≤ t.tile then .unknown
    else if trRule r = 0 then .frozen r
    else if (s.unit die).applied.contains (2 ^ 32 * t.tensor + t.tile) then .overrun
    else if s.job.committed + 1 < t.step then .held
    else
      let ps := s.piecesOf (tileState r t.tile)
      if ps.any (fun p => (s.pieceFenced p).isSome || (match p.tile with | some (a, _) => s.locked a | none => false)) then .held
      else if ps.any (s.pieceWaits (.update die)) then .miss ps
      else match ps.find? s.piecePoisoned, ps.find? s.pieceDamaged with
        | some p, _ => .ue p.addr (s.tierOf p.key)
        | none, some p => .refused p.addr
        | none, none => match pendVersion (s.vtable (trStage r) (trVariant r)) with
          | none => .noVersion
          | some v => .apply r v

/-- The head tile leaves the buffer, counted as dealt with; a matrix rule's last announced tile makes its program wait
(R175, R176). -/
def State.dealTile (s : State) (die : Nat) (t : GradTile) (applied matrix : Bool) : State :=
  let u := s.unit die
  let n := mget 0 u.dealt t.tensor + 1
  s.setUnit die { u with
    buffer := u.buffer.drop 1,
    missed := false,
    blocked := false,
    applied := if applied then sIns u.applied (2 ^ 32 * t.tensor + t.tile) else u.applied,
    dealt := mset 0 u.dealt t.tensor n,
    waiting := if applied && matrix && decide (n = mget 0 u.due t.tensor) then u.waiting ++ [t.tensor] else u.waiting }

/-- A gradient element of the tensor is NaN or infinite, or the tile's non-finite bit is set (R179). -/
def gradNonFinite (r : TensorRec) (t : GradTile) : Bool :=
  t.nf || anyNonFinite (liveElem r t.tile) (unpackElems 32 4096 t.data).toArray

/-- The state lines of a tile that is due to be applied, read through their code (R209). -/
def State.readState (s : State) (die : Nat) (t : GradTile) : State :=
  match s.fate die t with
  | .apply r _ => s.readPieces (s.piecesOf (tileState r t.tile))
  | _ => s

/-- Without a symbol error the lines read as they stand. -/
theorem State.readState_clean (s : State) (die : Nat) (t : GradTile) (h : s.mem.errors = []) : s.readState die t = s := by
  unfold State.readState
  split
  · exact s.readPieces_clean _ h
  · rfl

/-- UPDATE_TILE_APPLY (R169): the head tile of the arrival buffer is discarded, held or applied. -/
def execUpdateTileApply (die : Nat) (s0 : State) : Res :=
  let u := s0.unit die
  match u.buffer with
  | [] => .next s0
  | t :: _ =>
    let s := s0.readState die t
    match s.fate die t with
    | .unknown => .next ((s.dealTile die t false false).event
        { code := 0x0301, cls := .fault, die := die, d0 := t.tensor, d1 := t.tile })
    | .frozen r => .next (((s.dealTile die t false false).addObj 0x5033 die 64 1).setVote (gradNonFinite r t))
    | .overrun => .next ((s.dealTile die t false false).event
        { code := 0x0302, cls := .fault, die := die, d0 := t.tensor, d1 := t.tile })
    | .held => .next s
    | .noVersion => .next s
    | .miss ps =>
      let s1 := if u.missed then s else (s.setUnit die { u with missed := true }).addObj 0x5030 die 64 1
      .next (({ s1 with free := s1.free + 1 }.addObj 0x5031 die 64 (Config.freeNat s1.free)).demandPages (.update die) ps)
    | .ue a tier => .next ((s.countUe tier).memUe a)
    | .refused a => .next ((s.packCheck { code := 0, cls := .degraded, die := die } a).memUe a)
    | .apply r v =>
      match s.freshenAll die (s.piecesOf (tileWrites r t.tile)) with
      | none => .next (s.updateFull die)
      | some s1 =>
        let s2 := s1.setVtable (trStage r) (trVariant r) v
        let matrix := decide (4 ≤ trRule r)
        let s3 := if matrix then s2.applyFold die r t else s2.applyMenu die r t
        .next ((s3.dealTile die t true matrix).setVote (gradNonFinite r t))

/-! UFETCH (R184). -/

/-- Why a UFETCH is refused, or the tensor and die that it names. -/
def State.ufetchTarget (s : State) (c : Nat) (b : List Byte) : Except (Nat × Nat) (Nat × TensorRec) :=
  let named : Except (Nat × Nat) Nat :=
    if wb b 2 15 1 = 1 then
      let d := wb b 2 12 3
      if s.part.dies ≤ d then .error (tokAbsent, detailField 2 12)
      else if !s.dieUp d then .error (tokDieAbsent, d)
      else .ok d
    else match s.stageOf c with
      | some e => .ok e.homeDie
      | none => .error (tokNoObject, detailField 2 0)
  match named with
  | .error e => .error e
  | .ok d =>
    match s.tensor d (wb b 2 0 12) with
    | none => .error (tokNoObject, detailField 2 0)
    | some r => if trTiles r < wd b 3 + wd b 4 then .error (tokRange, detailField 3 0) else .ok (d, r)

/-- The pages of a UFETCH's range: the state of each tile. -/
def State.ufetchPieces (s : State) (r : TensorRec) (first n : Nat) : List Piece :=
  s.piecesOf ((List.range n).flatMap (fun j => tileState r (first + j)))

/-- Pages held in the stacks until the next step boundary. -/
def State.holdPages (s : State) (ps : List Piece) : State :=
  ps.foldl (fun t p => match t.page p.key with
    | some pg => t.setPage p.key (some { pg with held := true })
    | none => t) s

/-- UFETCH (R184): the state pages of the range are held, and promoted where they lie in Backwater; the descriptor
completes when they are resident. -/
def execUfetch (core : Nat) (s : State) : Res :=
  match (s.core core).updQ.waiting with
  | [] => .next s
  | d :: _ =>
    let b := d.bytes
    match s.ufetchTarget core b with
    | .error e => .next (s.failDesc core 6 d e.1 e.2)
    | .ok (die, r) =>
      if trRule r = 0 then .next (s.okDesc core 6 d)
      else
        let ps := s.ufetchPieces r (wd b 3) (wd b 4)
        let s1 := s.holdPages ps
        if ps.any (s.pieceWaits (.update die)) then .next (s1.demandPages (.update die) ps) else .next (s1.okDesc core 6 d)

end Sys2Proof.Machine
end

