-- ==== Sys2Proof/Machine/Vector.lean ====
section
/-! DEFINITION. The vector engine: sources, masks, destinations, summary registers, the finished-tile queue as a source,
and function tables (R114 to R130). -/

namespace Sys2Proof.Machine

/-! Fields of a vector descriptor (R148). -/

/-- VL of a vector descriptor. -/
def vVl (b : List Byte) : Nat := wb b 10 0 13

/-- A source: words 2 and 3, 4 and 5, or 6 and 7. -/
structure VSrc where
  addr   : Nat
  kind   : Nat
  form   : TileFmt
  value  : Nat
  word   : Nat
deriving DecidableEq, Repr

/-- Source `i` of a vector descriptor, 0 A, 1 B, 2 C. -/
def vSrc (b : List Byte) (i : Nat) : VSrc :=
  let w := 2 + 2 * i
  { addr := wb b w 0 24, kind := wb b w 24 3,
    form := ⟨wb b w 27 4, wb b w 31 1 = 1, wb b 8 (3 * i) 2, wb b 8 (3 * i + 2) 1⟩, value := wd b (w + 1), word := w }

/-- The element is masked (R119). -/
def vMasked (k : CoreState) (b : List Byte) (i : Nat) : Bool :=
  let m := wb b 10 13 3
  m ≠ 0 && !bitOf (mget 0 k.masks m) i

/-- Mask mode ZERO. -/
def vZero (b : List Byte) : Bool := wb b 10 16 1 = 1

/-- A failing field of a source (R68, R75, R116, R148, R397). -/
def vSrcBad (vl : Nat) (x : VSrc) : Option (Nat × Nat) :=
  let mem := x.kind = 1 ∨ x.kind = 2
  if x.kind = 0 then some (x.word, 24)
  else if mem ∧ !elemFormat x.form.format then some (x.word, 27)
  else if mem ∧ !x.form.ok then some (x.word, 31)
  else if x.kind = 2 ∧ x.form.scaled then some (x.word, 31)
  else if (mem ∨ x.kind = 7) ∧ (streamExp x.value).isNone then some (x.word + 1, 0)
  else if x.kind = 1 ∧ sramSize < x.addr + x.form.raw then some (x.word, 0)
  else if x.kind = 2 ∧ sramSize < x.addr + runBytes (fmtD x.form.format).bits vl then some (x.word, 0)
  else none

/-- The tile form under which an FTQ source reads an entry (R126). -/
def ftqForm (x : VSrc) (e : Ftq) : TileFmt := ⟨e.format, x.form.scaled, x.form.size, x.form.dir⟩

/-- A failing field of an FTQ source against the entry it binds to: block scales on FP32 (R397), or an extent past core
SRAM (R148). -/
def ftqBad (ftq : Option Ftq) (x : VSrc) : Option (Nat × Nat) :=
  match ftq with
  | some e =>
    if x.kind = 7 ∧ (!(ftqForm x e).ok ∨ sramSize < e.addr + (ftqForm x e).raw) then some (x.word, 31) else none
  | none => none

/-- The values of a source for elements 0 to VL − 1, as FP32 bits, each with whether widening saturated it (R116). -/
def vLoad (k : CoreState) (ftq : Option Ftq) (vl : Nat) (x : VSrc) : Array (Nat × Bool) :=
  let r := x.addr % 32
  let reg := fun j => (mget 0 k.vregs (256 * r + j)).toNat
  match x.kind with
  | 1 => (loadTile x.form ((streamExp x.value).getD 0) (k.sramRead x.addr x.form.raw)).map widen
  | 2 =>
    let f := fmtD x.form.format
    (loadRun f ((streamExp x.value).getD 0) vl (k.sramRead x.addr (runBytes f.bits vl))).map widen
  | 3 => Array.ofFn (n := vl) (fun i => (reg (i.val % 256), false))
  | 4 => Array.ofFn (n := vl) (fun i => (reg (i.val % 64), false))
  | 5 => Array.ofFn (n := vl) (fun i => (reg (i.val / 64), false))
  | 6 => Array.replicate vl (x.value, false)
  | _ =>
    match ftq with
    | some e =>
      let t := ftqForm x e
      (loadTile t ((streamExp x.value).getD 0) (k.sramRead e.addr t.raw)).map widen
    | none => #[]

/-- The extents of core SRAM that a source reads. -/
def vReads (ftq : Option Ftq) (vl : Nat) (x : VSrc) : List (Nat × Nat) :=
  match x.kind with
  | 1 => [(x.addr, x.form.raw)]
  | 2 => [(x.addr, runBytes (fmtD x.form.format).bits vl)]
  | 7 => match ftq with
    | some e => [(e.addr, (ftqForm x e).raw)]
    | none => []
  | _ => []

/-- A source meets a poisoned line (R186). -/
def vPoison (k : CoreState) (ftq : Option Ftq) (vl : Nat) (x : VSrc) : Bool :=
  (vReads ftq vl x).any (fun e => k.poisoned e.1 e.2)

/-- A NaN made canonical (R118). -/
def canon (w : Nat) : Nat := if (f32 w).isNan then qnan else w

/-! Destinations. -/

/-- What a descriptor writes to element `i`: nothing, or a value with whether it is a masked element's zero. -/
inductive VOut where
  | keep
  | zero
  | val (w : Nat)
deriving DecidableEq, Repr

/-- The write of each element 0 to VL − 1 (R119). -/
def vOuts (k : CoreState) (b : List Byte) (res : Nat → Nat) : Array VOut :=
  Array.ofFn (n := vVl b) (fun i =>
    if vMasked k b i.val then (if vZero b then .zero else .keep) else .val (res i.val))

/-- A failing field of a value destination (R114, R116, R148). -/
def vDstBad (k : CoreState) (b : List Byte) : Option (Nat × Nat) :=
  let kind := wb b 9 24 3
  let l := k.latch (wb b 10 23 8)
  let dst := wb b 9 0 24
  if kind = 3 then (if 256 < vVl b then some (10, 0) else none)
  else if kind = 1 then
    (if !l.ok then some (10, 23) else if sramSize < dst + l.tile.raw then some (9, 0) else none)
  else if kind = 2 then
    (if !l.ok ∨ l.scaled then some (10, 23)
     else if sramSize < dst + runBytes (fmtD l.format).bits (vVl b) then some (9, 0) else none)
  else some (9, 24)

/-- A vector register written (R116, R119). -/
def CoreState.writeVreg (k : CoreState) (r : Nat) (outs : Array VOut) : CoreState :=
  { k with vregs := (outs.toList.zipIdx).foldl (fun m p =>
      match p.1 with
      | .keep => m
      | .zero => mset 0 m (256 * r + p.2) 0
      | .val w => mset 0 m (256 * r + p.2) (BitVec.ofNat 32 w)) k.vregs }

/-- The store element of a write. -/
def VOut.elem (o : VOut) (draw : Option Nat) : StElem :=
  match o with
  | .val w => ⟨f32 w, draw, false⟩
  | _ => ⟨.fin false 0 0, draw, true⟩

/-- An FP32 lane value stored as one element (R86): into FP32 its bits are copied, without the stream scale and without a
rounding, but for −0, NaN and infinity; into any other format it is divided by the stream scale and rounded. -/
def storeLane (f : Fmt) (sexp : Int) (e : StElem) : Nat × StoreSum :=
  if f = fp32 then storePlain f 0 { e with draw := none } else storePlain f sexp e

/-- A run or an unscaled tile rewritten where elements are written: the elements' bits after it, and what they add up to. -/
def storeSparse (f : Fmt) (sexp : Int) (old : List Nat) (outs : List (VOut × Option Nat)) : List Nat × StoreSum :=
  let n := outs.length
  let rs := (outs.zip (old.take n)).map (fun p =>
    match p.1.1 with
    | .keep => (p.2, ({} : StoreSum))
    | o => storeLane f sexp (o.elem p.1.2))
  (rs.map Prod.fst ++ old.drop n, rs.foldl (fun t r => t.join r.2) {})

/-- A block of a block-scaled tile rewritten (R119): kept elements take part in the maximum, keep their bits when the
scale does not change, and are otherwise re-encoded by round-to-nearest-even. -/
def storeBlockKeep (f : Fmt) (sexp : Int) (oldScale : Nat) (olds : List Nat) (outs : List (VOut × Option Nat)) :
    Nat × List Nat × StoreSum :=
  if outs.all (fun o => o.1 = .keep) then (oldScale, olds, {})
  else
    let es := (outs.zip olds).map (fun p =>
      match p.1.1 with
      | .keep =>
        let x := match blockExp oldScale with
          | none => Num.nan
          | some k => (decodeElem f p.2).scale (k + sexp)
        (true, p.2, ({ x := x, draw := none, quiet := true } : StElem))
      | o => (false, p.2, o.elem p.1.2))
    let r := storeBlock f sexp (es.map (fun e => e.2.2))
    if r.1 = oldScale ∧ r.1 ≠ 0xFF then
      (r.1, (es.zip r.2.1).map (fun p => if p.1.1 then p.1.2.1 else p.2), r.2.2)
    else r

/-- A tile rewritten where elements are written; elements beyond VL keep as masked ones do. -/
def storeTileSparse (t : TileFmt) (sexp : Int) (old : List Byte) (outs : Array (VOut × Option Nat)) : List Byte × StoreSum :=
  let f := fmtD t.format
  let oldEl := unpackElems f.bits 4096 (old.take t.elemBytes)
  if t.scaled then
    let oldArr := oldEl.toArray
    let oldSc := ((old.drop t.elemBytes).take t.scaleBytes).toArray
    let bl := (List.range t.scaleBytes).map (fun b =>
      let ix := t.blockElems b
      (ix, storeBlockKeep f sexp (oldSc.getD b 0).toNat (ix.map (fun i => oldArr.getD i 0))
        (ix.map (fun i => outs.getD i (.keep, none)))))
    let arr := bl.foldl (fun (a : Array Nat) b =>
      (b.1.zip b.2.2.1).foldl (fun (a : Array Nat) p => a.setIfInBounds p.1 p.2) a) (Array.replicate 4096 0)
    (packElems f.bits arr.toList ++ bl.map (fun b => BitVec.ofNat 8 b.2.1), bl.foldl (fun s b => s.join b.2.2.2) {})
  else
    let r := storeSparse f sexp oldEl outs.toList
    (packElems f.bits r.1, r.2)

/-- A value destination written, with the draws taken in element order (R92, R116), into FP32 too (assumption 186): the state and
what was stored. -/
def State.vStore (s : State) (c : Nat) (b : List Byte) (outs : Array VOut) : State × StoreSum :=
  let k := s.core c
  let dst := wb b 9 0 24
  if wb b 9 24 3 = 3 then (s.setCore c (k.writeVreg (dst % 32) outs), {})
  else
    let l := k.latch (wb b 10 23 8)
    let f := fmtD l.format
    let dr := s.draw c 8 ((outs.toList.zipIdx).map (fun p => (p.2 % 256, l.sr && p.1 ≠ .keep)))
    let od := (outs.toList.zip dr.1)
    let r :=
      if wb b 9 24 3 = 1 then
        storeTileSparse l.tile l.sexp (k.sramRead dst l.tile.raw) od.toArray
      else
        let n := runBytes f.bits (vVl b)
        let r := storeSparse f l.sexp (unpackElems f.bits (n * 8 / f.bits) (k.sramRead dst n)) od
        (packElems f.bits r.1, r.2)
    ((dr.2.onCore c (fun k => k.sramWrite dst r.1)).foldStore c l.entry r.2, r.2)

/-! Running a descriptor. -/

/-- The finished-tile entry that a descriptor binds to, when a source is FTQ (R126). -/
def vUsesFtq (srcs : List VSrc) : Bool := srcs.any (fun x => x.kind = 7)

/-- What completes a vector descriptor: STORE_SAT and FTQ flags in the named summary register, NF_STEP, the release, the
beats and the retirement (R121, R124, R126). -/
def State.vFinish (s : State) (c : Nat) (d : Desc) (ftq : Option Ftq) (stored : StoreSum) (upd : Summary → Summary) : State :=
  let b := d.bytes
  let fl := fun (v : Summary) =>
    let v1 := v.flag 6 (stored.sats ≠ 0)
    match ftq with
    | some e => ((v1.flag 3 e.nan).flag 4 e.inf).flag 5 e.sat
    | none => v1
  let s1 := if wb b 10 20 1 = 1 then
      s.onSummary c (wb b 10 17 3) (fun v => fl (upd (if wb b 10 21 1 = 1 then Summary.clear else v)))
    else s
  let s2 := match ftq with
    | some e =>
      let t := if e.nan ∨ e.inf then s1.setNf c else s1
      if wb b 10 22 1 = 1 then t.onCore c (fun k => { k with ftq := k.ftq.drop 1 }) else t
    | none => s1
  (s2.addObj 0xB108 c 64 ((vVl b + 255) / 256)).okDesc c 1 d

/-- The oldest vector descriptor, when its opcode is `op`. -/
def CoreState.vecHead (k : CoreState) (op : Nat) : Option Desc :=
  match k.vecQ.waiting with
  | d :: _ => if wb d.bytes 0 0 8 = op then some d else none
  | [] => none

/-- The sources checked, loaded and handed on, or the descriptor refused; it waits while it needs a finished tile and the
queue holds none (R114, R116, R126, R186). `named` gives the sources, which an operation that `reads` them loads; `extra` is
the operation's own check. -/
def State.vRunOn (s : State) (c op : Nat) (named : List Byte → List VSrc) (reads : Bool)
    (extra : CoreState → List Byte → Option (Nat × Nat))
    (go : CoreState → Desc → Option Ftq → List (Array (Nat × Bool)) → State → State) : Res :=
  let k := s.core c
  match k.vecHead op with
  | none => .next s
  | some d =>
    let b := d.bytes
    let srcs := named b
    let bad := if 4096 < vVl b then some (10, 0) else
      match srcs.findSome? (vSrcBad (vVl b)) with
      | some f => some f
      | none => extra k b
    match bad with
    | some f => .next (s.failDesc c 1 d tokRange (detailField f.1 f.2))
    | none =>
      let ftq := if vUsesFtq srcs then k.ftq.head? else none
      if vUsesFtq srcs ∧ ftq = none then .next s
      else match srcs.findSome? (ftqBad ftq) with
      | some f => .next (s.failDesc c 1 d tokRange (detailField f.1 f.2))
      | none =>
        let s1 := if reads then s.readWindow c (srcs.flatMap (vReads ftq (vVl b))) else s
        if reads && srcs.any (vPoison k ftq (vVl b)) then .next (s1.failDesc c 1 d tokUncorrectable 0)
        else
          let loaded := if reads then srcs.map (vLoad k ftq (vVl b)) else []
          let sats := loaded.foldl (fun n a => ((List.range (vVl b)).filter (fun i =>
            !vMasked k b i && (a.getD i (0, false)).2)).length + n) 0
          .next (go k d ftq loaded (s1.addObj 0x5012 c 64 sats))

/-- An operation that reads its first `nsrc` sources. -/
def State.vRun (s : State) (c op nsrc : Nat) (extra : CoreState → List Byte → Option (Nat × Nat))
    (go : CoreState → Desc → Option Ftq → List (Array (Nat × Bool)) → State → State) : Res :=
  s.vRunOn c op (fun b => (List.range nsrc).map (vSrc b)) true extra go

/-- Element `i` of loaded source `j`. -/
def vAt (loaded : List (Array (Nat × Bool))) (j i : Nat) : Nat := ((loaded.getD j #[]).getD i (0, false)).1

/-- An operation that writes a value for each element. -/
def vArith (op nsrc : Nat) (f : List Byte → Nat → Nat → Nat → Nat) (c : Nat) (s : State) : Res :=
  s.vRun c op nsrc vDstBad (fun k d ftq ld t =>
    let b := d.bytes
    let r := t.vStore c b (vOuts k b (fun i => f b (vAt ld 0 i) (vAt ld 1 i) (vAt ld 2 i)))
    r.1.vFinish c d ftq r.2 id)

/-- VEC_ADD (R118). -/
def execVecAdd (core : Nat) (s : State) : Res := vArith 0x01 2 (fun _ a b _ => fadd a b) core s

/-- VEC_SUB (R118). -/
def execVecSub (core : Nat) (s : State) : Res := vArith 0x02 2 (fun _ a b _ => fsub a b) core s

/-- VEC_MUL (R118). -/
def execVecMul (core : Nat) (s : State) : Res := vArith 0x03 2 (fun _ a b _ => fmul a b) core s

/-- VEC_FMA (R118). -/
def execVecFma (core : Nat) (s : State) : Res := vArith 0x04 3 (fun _ a b c => ffma a b c) core s

/-- VEC_MAX (R88). -/
def execVecMax (core : Nat) (s : State) : Res := vArith 0x05 2 (fun _ a b _ => fmaxB a b) core s

/-- VEC_MIN (R88). -/
def execVecMin (core : Nat) (s : State) : Res := vArith 0x06 2 (fun _ a b _ => fminB a b) core s

/-- VEC_ABS (R118). -/
def execVecAbs (core : Nat) (s : State) : Res := vArith 0x07 1 (fun _ a _ _ => fabsB a) core s

/-- VEC_NEG (R118). -/
def execVecNeg (core : Nat) (s : State) : Res := vArith 0x08 1 (fun _ a _ _ => fnegB a) core s

/-- SCL_N lies in −255 to 255 (R148). -/
def sclBad (k : CoreState) (b : List Byte) : Option (Nat × Nat) :=
  if wb b 11 0 9 = 256 then some (11, 0) else vDstBad k b

/-- VEC_SCL: a × 2^n (R118). -/
def execVecScl (core : Nat) (s : State) : Res :=
  s.vRun core 0x09 1 sclBad (fun k d ftq ld t =>
    let b := d.bytes
    let r := t.vStore core b (vOuts k b (fun i => fscl (vAt ld 0 i) (sx 9 (wb b 11 0 9))))
    r.1.vFinish core d ftq r.2 id)

/-- VEC_RCP (R118). -/
def execVecRcp (core : Nat) (s : State) : Res := vArith 0x0A 1 (fun _ a _ _ => frcp a) core s

/-- VEC_RSQ (R118). -/
def execVecRsq (core : Nat) (s : State) : Res := vArith 0x0B 1 (fun _ a _ _ => frsq a) core s

/-- VEC_MOV (R116, R118). -/
def execVecMov (core : Nat) (s : State) : Res := vArith 0x30 1 (fun _ a _ _ => canon a) core s

/-- SEL_MASK names m1 to m7 (R119). -/
def selBad (k : CoreState) (b : List Byte) : Option (Nat × Nat) :=
  if wb b 11 12 3 = 0 then some (11, 12) else vDstBad k b

/-- VEC_SEL: m[i] ? a : b (R118). -/
def execVecSel (core : Nat) (s : State) : Res :=
  s.vRun core 0x18 2 selBad (fun k d ftq ld t =>
    let b := d.bytes
    let m := mget 0 k.masks (wb b 11 12 3)
    let r := t.vStore core b (vOuts k b (fun i => canon (if bitOf m i then vAt ld 0 i else vAt ld 1 i)))
    r.1.vFinish core d ftq r.2 id)

/-! Function tables (R128 to R130). -/

/-- The table image in a slot; empty for none. -/
def CoreState.slot (k : CoreState) (n : Nat) : List Byte := mget [] k.slots n

/-- One half of a table: the byte offset of its coefficients and the words of its tails. -/
structure Half where
  coef  : Nat
  left  : Nat
  right : Nat

/-- The forward half. -/
def halfForward : Half := ⟨64, 4, 6⟩

/-- The derivative half. -/
def halfDerivative : Half := ⟨3136, 8, 10⟩

/-- min(floor(t), 255) of a value that is not negative (R130). -/
def segmentOf : Num → Nat
  | .fin false m e => Nat.min (if 0 ≤ e then m * 2 ^ e.toNat else m / 2 ^ (-e).toNat) 255
  | .inf false => 255
  | _ => 0

/-- The table procedure (R130). -/
def tableEval (img : List Byte) (h : Half) (x : Nat) : Nat :=
  if (f32 x).isNan then qnan
  else
    let lo := wd img 1
    let hi := wd img 2
    if fltB x lo ∨ !fltB x hi then
      let w := if fltB x lo then h.left else h.right
      let a := wd img w
      let b := wd img (w + 1)
      if (f32 a).isZero then b else ffma a x b
    else
      let t := numMul (f32 (fsub x lo)) (f32 (wd img 3))
      let i := segmentOf t
      let u := numAdd t (.fin true i 0)
      let c := fun j => fld img (h.coef + 12 * i + 4 * j) 4
      ffmaN u (ffmaN u (c 2) (c 1)) (c 0)

/-- The named slot holds a table (R129). -/
def fnBad (k : CoreState) (b : List Byte) : Option (Nat × Nat) :=
  if k.slot (wb b 11 9 3) = [] then some (11, 9) else vDstBad k b

/-- VEC_FN: the forward table (R130). -/
def execVecFn (core : Nat) (s : State) : Res :=
  s.vRun core 0x19 1 fnBad (fun k d ftq ld t =>
    let b := d.bytes
    let img := k.slot (wb b 11 9 3)
    let r := t.vStore core b (vOuts k b (fun i => tableEval img halfForward (vAt ld 0 i)))
    r.1.vFinish core d ftq r.2 id)

/-- VEC_FNB: g times the derivative table at x, x from source A and g from source B (R130). -/
def execVecFnb (core : Nat) (s : State) : Res :=
  s.vRun core 0x1A 2 fnBad (fun k d ftq ld t =>
    let b := d.bytes
    let img := k.slot (wb b 11 9 3)
    let r := t.vStore core b (vOuts k b (fun i => fmul (vAt ld 1 i) (tableEval img halfDerivative (vAt ld 0 i))))
    r.1.vFinish core d ftq r.2 id)

/-! Compares and mask logic (R88, R120). -/

/-- The destination is a mask register, m0 to m7. -/
def maskDstBad (_ : CoreState) (b : List Byte) : Option (Nat × Nat) :=
  if wb b 9 24 3 ≠ 4 then some (9, 24) else if 8 ≤ wb b 9 0 5 then some (9, 0) else none

/-- A mask register written: bits 0 to VL − 1 as given, the rest clear (R120). -/
def CoreState.writeMask (k : CoreState) (b : List Byte) (bit : Nat → Bool) : CoreState :=
  let m := wb b 9 0 5
  { k with masks := mset 0 k.masks m ((List.range (vVl b)).foldl (fun a i => if bit i then a + 2 ^ i else a) 0) }

/-- A compare: each predicate is false on a NaN, which a named summary register counts (R88, R120). -/
def vCompare (op : Nat) (p : Num → Num → Bool) (c : Nat) (s : State) : Res :=
  s.vRun c op 2 maskDstBad (fun k d ftq ld t =>
    let b := d.bytes
    let old := mget 0 k.masks (wb b 9 0 5)
    let nanAt := fun i => (f32 (vAt ld 0 i)).isNan || (f32 (vAt ld 1 i)).isNan
    let bit := fun i =>
      if vMasked k b i then (if vZero b then false else bitOf old i)
      else !nanAt i && p (f32 (vAt ld 0 i)) (f32 (vAt ld 1 i))
    let nans := ((List.range (vVl b)).filter (fun i => !vMasked k b i && nanAt i)).length
    (t.onCore c (fun k => k.writeMask b bit)).vFinish c d ftq {} (fun v => (v.addNf nans).flag 0 (nans ≠ 0)))

/-- CMP_EQ (R88, R120). -/
def execCmpEq (core : Nat) (s : State) : Res := vCompare 0x10 numEq core s
/-- CMP_NE (R88, R120). -/
def execCmpNe (core : Nat) (s : State) : Res := vCompare 0x11 (fun a b => !numEq a b) core s
/-- CMP_LT (R88, R120). -/
def execCmpLt (core : Nat) (s : State) : Res := vCompare 0x12 numLt core s
/-- CMP_LE (R88, R120). -/
def execCmpLe (core : Nat) (s : State) : Res := vCompare 0x13 (fun a b => !numLt b a) core s
/-- CMP_GT (R88, R120). -/
def execCmpGt (core : Nat) (s : State) : Res := vCompare 0x14 (fun a b => numLt b a) core s
/-- CMP_GE (R88, R120). -/
def execCmpGe (core : Nat) (s : State) : Res := vCompare 0x15 (fun a b => !numLt a b) core s

/-- A mask-logic source names a mask register (R148). -/
def maskSrcBad (b : List Byte) (i : Nat) : Option (Nat × Nat) :=
  let x := vSrc b i
  if x.kind ≠ 3 ∧ x.kind ≠ 4 ∧ x.kind ≠ 5 then some (x.word, 24)
  else if 8 ≤ x.addr % 32 then some (x.word, 0) else none

/-- Mask logic over bits 0 to VL − 1 (R120). -/
def vMaskOp (op nsrc : Nat) (f : Bool → Bool → Bool) (c : Nat) (s : State) : Res :=
  s.vRun c op 0 (fun k b =>
      match (List.range nsrc).findSome? (maskSrcBad b) with
      | some x => some x
      | none => maskDstBad k b)
    (fun k d ftq _ t =>
      let b := d.bytes
      let m := fun i => mget 0 k.masks ((vSrc b i).addr % 32)
      (t.onCore c (fun k => k.writeMask b (fun i => f (bitOf (m 0) i) (bitOf (m 1) i)))).vFinish c d ftq {} id)

/-- MAND (R120). -/
def execMand (core : Nat) (s : State) : Res := vMaskOp 0x20 2 (fun a b => a && b) core s
/-- MOR (R120). -/
def execMor (core : Nat) (s : State) : Res := vMaskOp 0x21 2 (fun a b => a || b) core s
/-- MXOR (R120). -/
def execMxor (core : Nat) (s : State) : Res := vMaskOp 0x22 2 (fun a b => a != b) core s
/-- MNOT (R120). -/
def execMnot (core : Nat) (s : State) : Res := vMaskOp 0x23 1 (fun a _ => !a) core s
/-- MFIRST: bits 0 to VL − 1 set (R120, R148). -/
def execMfirst (core : Nat) (s : State) : Res := vMaskOp 0x24 0 (fun _ _ => true) core s

/-! Reductions (R122, R123). -/

/-- The sum of elements in the fixed order of R122: 256 lanes, each its elements in rising index, then the tree. -/
def laneTree (xs : Array (Option Nat)) : Nat :=
  let n := xs.size
  let p := (List.range 256).map (fun l =>
    (List.range ((n + 255 - l) / 256)).foldl (fun a j =>
      match xs.getD (256 * j + l) none with
      | some w => fadd a w
      | none => a) 0)
  (treeSum 8 p).headD 0
where
  /-- Adjacent pairs added. -/
  pairs : List Nat → List Nat
    | a :: b :: t => fadd a b :: pairs t
    | l => l
  /-- The tree of `n` levels. -/
  treeSum : Nat → List Nat → List Nat
    | 0, l => l
    | n + 1, l => treeSum n (pairs l)

/-- A reduction writes no destination, but its D_KIND is a field of the descriptor (R147, R148). -/
def noDstBad (_ : CoreState) (b : List Byte) : Option (Nat × Nat) := if 4 < wb b 9 24 3 then some (9, 24) else none

/-- A reduction over the unmasked elements. -/
def vReduce (op : Nat) (f : Array (Option Nat) → Summary → Summary) (c : Nat) (s : State) : Res :=
  s.vRun c op 1 noDstBad (fun k d ftq ld t =>
    let b := d.bytes
    let xs := Array.ofFn (n := vVl b) (fun i => if vMasked k b i.val then none else some (vAt ld 0 i.val))
    t.vFinish c d ftq {} (f xs))

/-- The largest of the finite elements under a transformation, none when there is none. -/
def maxFinite (g : Nat → Nat) (xs : Array (Option Nat)) : Option Nat :=
  xs.foldl (fun acc x =>
    match x with
    | some w => if finB w then (match acc with | none => some (posZero (g w)) | some m => some (fmaxB m (g w))) else acc
    | none => acc) none

/-- Every reduced element inspected (R122). -/
def seeAll (xs : Array (Option Nat)) (v : Summary) : Summary :=
  xs.foldl (fun v x => match x with | some w => v.seeElem w | none => v) v

/-- RED_MAX (R122). -/
def execRedMax (core : Nat) (s : State) : Res := vReduce 0x28 (fun xs v => (seeAll xs v).mergeMax (maxFinite id xs)) core s

/-- RED_AMAX (R122). -/
def execRedAmax (core : Nat) (s : State) : Res :=
  vReduce 0x29 (fun xs v => (seeAll xs v).mergeMax (maxFinite fabsB xs)) core s

/-- RED_SUM (R122): finite elements in the fixed order, then one addition to SUM. -/
def execRedSum (core : Nat) (s : State) : Res :=
  vReduce 0x2A (fun xs v =>
    let v1 := seeAll xs v
    { v1 with sum := BitVec.ofNat 32 (fadd v1.sum.toNat
        (laneTree (xs.map (fun x => match x with | some w => if finB w then some w else none | none => none)))) }) core s

/-- RED_CNT (R122): the unmasked elements counted into NF_COUNT, none of them inspected. It needs no source; where it names
one, the source's fields are judged and a finished tile is bound to, but no element is read. -/
def execRedCnt (core : Nat) (s : State) : Res :=
  s.vRunOn core 0x2B (fun b => if wb b 2 24 3 = 0 then [] else [vSrc b 0]) false noDstBad (fun k d ftq _ t =>
    let b := d.bytes
    let n := ((List.range (vVl b)).filter (fun i => !vMasked k b i)).length
    t.vFinish core d ftq {} (fun v => v.addNf n))

end Sys2Proof.Machine
end

