-- ==== Sys2Proof/Machine/Sequencer.lean ====
section
/-! DEFINITION. The matrix-rule sequencer (R175 to R178): matrices over FP32 tiles, the two programs, and the start and end
of a program. -/

namespace Sys2Proof.Machine

/-- A matrix of FP32 words, by rows, and whether an element was NaN or infinite before its store (R178). -/
structure Mat where
  rows : Nat
  cols : Nat
  a    : Array Nat
  nf   : Bool
deriving DecidableEq, Repr

/-- An element; beyond the matrix, padding. -/
def Mat.el (x : Mat) (i j : Nat) : Nat := if i < x.rows ∧ j < x.cols then x.a.getD (i * x.cols + j) 0 else 0

/-- The transpose, which an operand's stored orientation gives without a copy (R396). -/
def Mat.tr (x : Mat) : Mat :=
  { x with rows := x.cols, cols := x.rows, a := Array.ofFn (n := x.cols * x.rows) (fun p => x.el (p.val % x.rows) (p.val / x.rows)) }

/-- The words of a matrix as they stand in memory. -/
def Mat.ofWords (rows cols : Nat) (f : Nat → Nat → Nat) : Mat :=
  let a := Array.ofFn (n := rows * cols) (fun p => f (p.val / cols) (p.val % cols))
  ⟨rows, cols, a, a.any (fun w => !finB w)⟩

/-- What a program's descriptors add up to on its home core: saturations of the load path and of the stores, beats, and
whether a norm was non-finite. -/
structure Tally where
  loads : Nat := 0
  sats  : Nat := 0
  beats : Nat := 0
  norm  : Bool := false
deriving DecidableEq, Repr

/-- A computation of the sequencer, with its tally. -/
abbrev Seq := StateM Tally

/-- A matrix stored through an FP32 tensor output (R83 to R85): its saturations are counted, and what it was before the store
decides whether it is non-finite (R178). -/
def Mat.store (rows cols : Nat) (f : Nat → Nat → Num) : Seq Mat := do
  let xs := Array.ofFn (n := rows * cols) (fun p => f (p.val / cols) (p.val % cols))
  let os := xs.map (fun x => storeElem fp32 x none)
  modify (fun t => { t with sats := os.foldl (fun n o => n + b01 o.sat) t.sats })
  return ⟨rows, cols, os.map (fun o => o.bits), xs.any (fun x => !x.isFin)⟩

/-- One element-wise operation of the vector engine, stored. -/
def Mat.map (f : Nat → Nat) (x : Mat) : Seq Mat := Mat.store x.rows x.cols (fun i j => f32 (f (x.el i j)))

/-- An element-wise operation on two matrices of one shape. -/
def Mat.zip (f : Nat → Nat → Nat) (x y : Mat) : Seq Mat := Mat.store x.rows x.cols (fun i j => f32 (f (x.el i j) (y.el i j)))

/-- The identity scaled by a word. -/
def Mat.diag (n w : Nat) : Seq Mat := Mat.store n n (fun i j => if i = j then f32 w else .fin false 0 0)

/-- An FP32 operand narrowed to BF16 by the load path, or split under SPLIT3, with its saturations (R86, R95). -/
def operandOf (split : Bool) (w : Nat) : Num × Num × Nat :=
  if split then split3 (f32 w)
  else let o := storeElem bf16 (f32 w) none; (decodeElem bf16 o.bits, .fin false 0 0, b01 o.sat)

/-- The products of one k (R95, R97). -/
def productsOf (split : Bool) (x y : Num × Num × Nat) : List (Num × Num) :=
  if split then [(x.1, y.1), (x.1, y.2.1), (x.2.1, y.1)] else [(x.1, y.1)]

/-- Tiles of a matrix. -/
def Mat.tiles (x : Mat) : Nat := ((x.rows + 63) / 64) * ((x.cols + 63) / 64)

/-- A product of two matrices on the engines, with FP32 output tiles (R96, R97, R104, R177). One descriptor forms one output
tile, so that each operand element is loaded once for every output tile that needs it. -/
def Mat.mul (split : Bool) (x y : Mat) : Seq Mat := do
  let xo := x.a.map (operandOf split)
  let yo := y.a.map (operandOf split)
  let z : Num × Num × Nat := (.fin false 0 0, .fin false 0 0, 0)
  let count := fun (os : Array (Num × Num × Nat)) => os.foldl (fun n o => n + o.2.2) 0
  modify (fun t => { t with
    loads := t.loads + count xo * ((y.cols + 63) / 64) + count yo * ((x.rows + 63) / 64),
    beats := t.beats + ((x.rows + 63) / 64) * ((y.cols + 63) / 64) * groupBeats 1 split x.cols })
  Mat.store x.rows y.cols (fun i j =>
    ((List.range ((x.cols + 15) / 16)).foldl (fun acc g =>
      let ks := (List.range (if 16 * g + 16 ≤ x.cols then 16 else x.cols - 16 * g)).map (fun t => 16 * g + t)
      groupStep acc (ks.flatMap (fun k => productsOf split (xo.getD (i * x.cols + k) z) (yo.getD (k * y.cols + j) z)))) Acc.zero).num)

/-- The elements of tile `i`, padding included. -/
def Mat.tile (x : Mat) (i : Nat) : Array Nat :=
  let tc := (x.cols + 63) / 64
  Array.ofFn (n := 4096) (fun e => x.el (64 * (i / tc) + e.val / 64) (64 * (i % tc) + e.val % 64))

/-- A Frobenius norm (R122, R177); a square or a norm that is non-finite is noted (R178). -/
def Mat.frob (x : Mat) : Seq Nat := do
  let r := (List.range x.tiles).foldl (fun (acc : Nat × Bool) i =>
    let sq := (x.tile i).map (fun w => fmul w w)
    (fadd acc.1 (laneTree (sq.map (fun w => if finB w then some w else none))), acc.2 || sq.any (fun w => !finB w))) (0, false)
  modify (fun t => { t with norm := t.norm || r.2 || !finB r.1 })
  return fsqrt r.1

/-- A step repeated `n` times. -/
def repeatSeq {α : Type} : Nat → (α → Seq α) → α → Seq α
  | 0, _, x => pure x
  | n + 1, f, x => do repeatSeq n f (← f x)

/-! Matrices in tiered memory. -/

/-- A matrix read from dense FP32 tiles. -/
def State.matRead (s : State) (die base rows cols : Nat) : Mat × State :=
  let tc := (cols + 63) / 64
  let n := ((rows + 63) / 64) * tc
  let r := (List.range n).foldl (fun (acc : Array (Array Nat) × State) i =>
    let t := acc.2.wordsRead die (base + 16384 * i)
    (acc.1.push t.1, t.2)) (#[], s)
  (Mat.ofWords rows cols (fun i j => (r.1.getD (i / 64 * tc + j / 64) #[]).getD (64 * (i % 64) + j % 64) 0), r.2)

/-- A matrix written to dense FP32 tiles; its pages are fresh. -/
def State.matWrite (s : State) (die base : Nat) (x : Mat) : State :=
  (List.range x.tiles).foldl (fun t i => t.stateWrite die (base + 16384 * i) (storeWords (x.tile i)).1) s

/-! The programs (R177). -/

/-- What a program leaves: its output, new factors by their place (0 L, 1 R, 2 P_L, 3 P_R), REFRESH_DUE, and what its
descriptors add up to. -/
structure ProgOut where
  out     : Mat
  factors : List (Nat × Mat)
  refresh : Nat
  tally   : Tally
deriving DecidableEq, Repr

/-- A program has produced a non-finite element in O, in a factor, or a non-finite norm (R178). -/
def ProgOut.nf (p : ProgOut) : Bool := p.out.nf || p.tally.norm || p.factors.any (fun x => x.2.nf)

/-- Orthogonalised momentum. -/
def orthogonal (m : Mat) (split : Bool) (iters eps a b c mult : Nat) : ProgOut :=
  let tall := decide (m.cols < m.rows)
  let run : Seq Mat := do
    let x0 := if tall then m.tr else m
    let n ← x0.frob
    let x1 ← x0.map (fmul (frcp (fadd n eps)))
    let x ← repeatSeq iters (fun (x : Mat) => do
      let g ← x.mul split x.tr
      let p ← (← g.map (fmul b)).zip fadd (← (← g.mul split g).map (fmul c))
      (← x.map (fmul a)).zip fadd (← p.mul split x)) x1
    let o := if tall then x.tr else x
    o.map (fmul (fmul mult (fsqrt (fmaxB one32 (fdiv (ofNat32 m.rows) (ofNat32 m.cols))))))
  let r := run.run {}
  ⟨r.1, [], 0, r.2⟩

/-- 0.25, 2 and 5 as FP32 words. -/
def quarter32 : Nat := 0x3E800000
/-- 2. -/
def two32 : Nat := 0x40000000
/-- 5. -/
def five32 : Nat := 0x40A00000

/-- The coupled Newton iteration for a^(−1/4). -/
def invRoot (a0 : Mat) (eps iters : Nat) : Seq Mat := do
  let n := a0.rows
  let a ← a0.zip fadd (← Mat.diag n eps)
  let z := fdiv five32 (fmul two32 (← a.frob))
  let x0 ← Mat.diag n (fsqrt (fsqrt z))
  let m0 ← a.map (fmul z)
  let r ← repeatSeq iters (fun (x : Mat × Mat) => do
    let t ← (← (← Mat.diag n five32).zip fsub x.2).map (fun w => fmul w quarter32)
    let x1 ← x.1.mul true t
    let t2 ← t.mul true t
    let m1 ← (← t2.mul true t2).mul true x.2
    return (x1, m1)) (x0, m0)
  return r.1

/-- A computation on a factor that is kept; a side that is not kept has none. -/
def onKept (f : Mat → Seq Mat) : Option Mat → Seq (Option Mat)
  | none => pure none
  | some x => do return some (← f x)

/-- Kronecker-factored. `fs` holds the kept factors L, R, P_L, P_R; a side that is not kept counts as the identity. -/
def kronecker (m : Mat) (fs : List (Nat × Mat)) (due refresh iters beta2 eps ridge : Nat) : ProgOut :=
  let get := fun i => (fs.find? (fun (x : Nat × Mat) => x.1 = i)).map Prod.snd
  let fresh := decide (due = 0)
  let keep := fun (i : Nat) (x : Option Mat) => match x with | some y => [(i, y)] | none => ([] : List (Nat × Mat))
  let run : Seq (Mat × List (Nat × Mat)) := do
    let l ← onKept (fun x => do (← x.map (fmul beta2)).zip fadd (← m.mul true m.tr)) (get 0)
    let r ← onKept (fun x => do (← x.map (fmul beta2)).zip fadd (← m.tr.mul true m)) (get 1)
    let pl ← if fresh then onKept (fun x => invRoot x ridge iters) l else pure (get 2)
    let pr ← if fresh then onKept (fun x => invRoot x ridge iters) r else pure (get 3)
    let d0 ← match pl with
      | some p => p.mul true m
      | none => pure m
    let d ← match pr with
      | some p => d0.mul true p
      | none => pure d0
    let k := fdiv (← m.frob) (fadd (← d.frob) eps)
    let out ← d.map (fun w => fmul w k)
    return (out, keep 0 l ++ keep 1 r ++ (if fresh then keep 2 pl ++ keep 3 pr else []))
  let x := run.run {}
  ⟨x.1.1, x.1.2, (if fresh then refresh else due) - 1, x.2⟩

/-! Start and end (R176 to R178). -/

/-- The base of a factor, by its place, in a record's kept factors. -/
def factorBase (r : TensorRec) (i : Nat) : Nat :=
  let l := if trRows r ≤ factorDimMax then squareBytes (trRows r) else 0
  let c := if trCols r ≤ factorDimMax then squareBytes (trCols r) else 0
  trBase r 14 + (if i = 0 then 0 else if i = 1 then l else if i = 2 then l + c else 2 * l + c)

/-- The places of the kept factors, with their sides. -/
def keptFactors (r : TensorRec) : List (Nat × Nat) :=
  (if trRows r ≤ factorDimMax then [(0, trRows r), (2, trRows r)] else [])
    ++ (if trCols r ≤ factorDimMax then [(1, trCols r), (3, trCols r)] else [])

/-- The kept factors read. -/
def State.factorsRead (s : State) (die : Nat) (r : TensorRec) : List (Nat × Mat) × State :=
  (keptFactors r).foldl (fun (acc : List (Nat × Mat) × State) x =>
    let m := acc.2.matRead die (factorBase r x.1) x.2 x.2
    (acc.1 ++ [(x.1, m.1)], m.2)) ([], s)

/-- *Sequencer scratch*: the bytes that a record's program uses. -/
def scratchBytes (r : TensorRec) : Nat :=
  let d1 := Nat.min (trRows r) (trCols r)
  let d2 := Nat.max (trRows r) (trCols r)
  let up := fun (a b : Nat) => ((a + 63) / 64) * ((b + 63) / 64) * 4096
  if trRule r = 4 then 4 * (2 * up d1 d2 + 2 * up d1 d1)
  else
    let f := Nat.max (if trRows r ≤ factorDimMax then trRows r else 0) (if trCols r ≤ factorDimMax then trCols r else 0)
    Nat.max (4 * (2 * up d1 d2 + up d1 d1 + up d2 d2)) (16 * up f f)

/-- HOME_CORE lies on the die, and is idle or waits in STEPEND with every SEND and RSEND retired (R176). -/
def CoreState.sequencerReady (k : CoreState) : Bool :=
  (k.run = .idle || (match k.waiting with | .stepend _ => k.run = .running | _ => false))
    && k.sendQ.waiting.isEmpty && k.sendQ.begun.isEmpty && k.drainHold.isEmpty && k.orderHold.isEmpty && k.ready.isNone

/-- Bytes that the spec gives no value. -/
def freeRun (n reading : Nat) : List Byte := (List.range n).map (Config.freeByte reading)

/-- The tensor's program is abandoned for the step (R178). -/
def State.sequencerFault (s : State) (die tensor : Nat) : State :=
  let u := s.unit die
  ((s.setUnit die { u with waiting := u.waiting.filter (fun t => t ≠ tensor), running := u.running.filter (fun t => t ≠ tensor) }).setVote
    true).event { code := 0x0303, cls := .degraded, die := die, d0 := tensor }

/-- SEQUENCER_PROGRAM_START (R176): the next program of its home core starts. The sequencer overwrites the core's window and
scratch: what it leaves there is free. Scratch beyond the capacity of R13 gives the program's descriptors an error token, which
ends it (R178). -/
def execSequencerProgramStart (die tensor : Nat) (s : State) : Res :=
  let u := s.unit die
  match s.tensor die tensor with
  | none => .next s
  | some r =>
    let c := trHome r
    let sameCore := fun (t : Nat) => match s.tensor die t with | some x => trHome x = c | none => false
    if u.waiting.find? sameCore = some tensor ∧ !u.running.any sameCore ∧ (s.core c).sequencerReady then
      let f := s.free
      let s1 := { s with free := f + 2 }.onCore c (fun k =>
        k.sramWrite (s.obj 0x4102 1) (freeRun (1024 * s.obj 0x4102 2) f))
      let base := s.obj 0x4103 die + c * s.obj 0x4104 die
      if s.tieredLimit < base + scratchBytes r then .next (s.sequencerFault die tensor)
      else match s1.writeTiered (.core c) base (freeRun (scratchBytes r) (f + 1)) with
      | none => .next ((s1.memFull (.core c)).sequencerFault die tensor)
      | some s2 => .next (s2.setUnit die { u with waiting := u.waiting.filter (fun t => t ≠ tensor), running := u.running ++ [tensor] })
    else .next s

/-- A program's result from the tensor's momentum and factors. -/
def State.program (s : State) (die : Nat) (r : TensorRec) (due : Nat) : ProgOut × State :=
  let o := fun i => s.obj (0x5100 + trSet r) i
  let m := s.matRead die (trBase r 8 + 64) (trRows r) (trCols r)
  if trRule r = 4 then (orthogonal m.1 (o 0x0C = 1) (o 7) (o 3) (o 8) (o 9) (o 0x0A) (o 0x0B), m.2)
  else
    let f := m.2.factorsRead die r
    (kronecker m.1 f.1 due (o 0x0D) (o 0x0E) (o 2) (o 3) (o 0x0F), f.2)

/-- The extents that a program reads and writes: its tiles' state and its factors. -/
def programExtents (r : TensorRec) : List (Nat × Nat) :=
  (List.range (trTiles r)).flatMap (tileState r) ++ (if trRule r = 5 then [(trBase r 14, auxBytes r)] else [])

/-- Residue mismatches that descriptors of a program met on its home core (R110 to R113): the descriptors in order, each with
its engine and the mismatching cells of its attempts. A fifth mismatch is a CELL_FAULT. The flag says that a descriptor ended
with an error token. -/
def State.programMismatches (s : State) (c : Nat) : List (Nat × List (List (Nat × Nat))) → State × Bool
  | [] => (s, (List.range 8).any (fun e => s.engineLost c e))
  | (e, cells) :: rest =>
    let s0 := s.retireDue c e
    if s0.engineLost c e then (s0, true)
    else
      let r := s0.attempts c e 5 cells
      match r.2 with
      | .done => r.1.programMismatches c rest
      | .lost => (r.1, true)
      | .failed cell =>
        ((r.1.event (Event.at { code := 0x0103, cls := .degraded, unit := e, d0 := cell.1 % 64 * 256 + cell.2 % 64 } c)).addScore c 512, true)

/-- What a program's descriptors leave in the counters of its home core (R26, R81, R86, R95). -/
def State.tallyProgram (s : State) (c : Nat) (t : Tally) : State :=
  ((s.addObj 0x5012 c 64 t.loads).addObj 0x5010 c 64 t.sats).addObj 0xA111 c 64 t.beats

/-- The mismatches that a program meets: those free ones that name engines and cells of the part (assumption 189). -/
def programFaults (reading : Nat) : List (Nat × List (List (Nat × Nat))) :=
  (Config.engineMismatches reading).filter (fun x => x.1 < 8 && x.2.all (fun g => g.all (fun c => c.1 < 64 && c.2 < 64)))

/-- SEQUENCER_PROGRAM_END (R177, R178): the program's factors are written, the header advances, and its output goes to the
lanes tile by tile. A program whose descriptor ended with an error token is abandoned. -/
def execSequencerProgramEnd (die tensor : Nat) (s0 : State) : Res :=
  match s0.tensor die tensor with
  | none => .next s0
  | some r =>
    if !(s0.unit die).running.contains tensor then .next s0
    else
      let f := s0.fresh
      let tried := f.2.programMismatches (trHome r) (programFaults f.1)
      let s := tried.1
      if tried.2 then .next (s.sequencerFault die tensor)
      else
        let ps := s.piecesOf (programExtents r)
        if ps.any (s.pieceWaits (.update die)) then .next (s.demandPages (.update die) ps)
        else if ps.any (fun p => p.tile.any (fun x => s.locked x.1)) then .next s
        else
          let s := s.readPieces ps
          match ps.find? s.piecePoisoned, ps.find? s.pieceDamaged with
          | some p, _ => .next (((s.countUe (s.tierOf p.key)).memUe p.addr).sequencerFault die tensor)
          | none, some p => .next ((s.packCheck { code := 0, cls := .degraded, die := die } p.addr).sequencerFault die tensor)
          | none, none => match s.freshenAll die ps with
            | none => .next (s.updateFull die)
            | some s1 =>
              let h := s1.stateRead die (trBase r 8) 64
              let p := h.2.program die r (wd h.1 3)
              let rules := p.2.rules (trSet r) s.job.step
              let s2 := p.1.factors.foldl (fun t x => t.matWrite die (factorBase r x.1) x.2) p.2
              let s3 := s2.advanceTensor die r rules s.job.step
              let h1 := s3.stateRead die (trBase r 8) 64
              let s4 := if trRule r = 5 then h1.2.stateWrite die (trBase r 8) (headerRefresh p.1.refresh h1.1) else h1.2
              let s5 := ((List.range (trTiles r)).foldl (fun t i => t.writeElems die r rules i (p.1.out.tile i)) s4).tallyProgram (trHome r) p.1.tally
              let v := s5.unit die
              .next ((({ s5 with free := s5.free + 1 }.setUnit die { v with running := v.running.filter (fun t => t ≠ tensor) }).addObj
                0x5034 die 64 (Config.freeNat s5.free)).setVote p.1.nf)

end Sys2Proof.Machine
end

