-- ==== Sys2Proof/Machine/Tributary.lean ====
section
/-! DEFINITION. Tributary (R215 to R228): collective and group records, RSEND and its holds, the chain and its results,
windows, ring and permute messages, deliveries, STEPEND and the step-end check. -/

namespace Sys2Proof.Machine

/-! Records (R217, R218, R227). -/

/-- A collective record. -/
structure CollRec where
  index  : Nat
  op     : Nat
  dest   : Nat
  group  : Nat
  tensor : Nat
  die    : Nat
  tiles  : Nat
  base   : Nat
  layout : Nat
deriving DecidableEq, Repr

/-- *Collective record*. -/
def collRecOf (b : List Byte) : CollRec :=
  ⟨wb b 0 0 12, wb b 0 12 3, wb b 0 15 1, wb b 0 16 8, wb b 1 0 12, wb b 1 12 3, wd b 2, fld b 16 6, wd b 6⟩

/-- The collective table. -/
def collRecs (table : List Byte) : List CollRec := (records 32 table).map collRecOf

/-- The record of a collective index. -/
def State.collRec (s : State) (x : Nat) : Option CollRec := (collRecs (s.blob 0x4032 0)).find? (fun r => r.index = x)

/-- Group records read from a table: the group, and its members in ring order (R218). `fuel` bounds the records. -/
def groupRecs : Nat → List Byte → List (Nat × List Nat)
  | 0, _ => []
  | fuel + 1, bs =>
    if bs.length < 4 then []
    else
      let n := wb bs 0 16 13
      let size := 4 + (2 * n + 3) / 4 * 4
      (wb bs 0 0 8, (List.range n).map (fun i => fld bs (4 + 2 * i) 2)) :: groupRecs fuel (bs.drop size)

/-- The groups of a REPLICA_GROUPS table. -/
def groupsOf (table : List Byte) : List (Nat × List Nat) := groupRecs table.length table

/-- A collective's ring, and this package's place in it. -/
def State.ring (s : State) (r : CollRec) : Option (List Nat × Nat) :=
  match (groupsOf (s.blob 0x4031 0)).find? (fun g => g.1 = r.group) with
  | none => none
  | some g => (g.2.findIdx? (fun p => p = s.position)).map (fun (k : Nat) => (g.2, k))

/-- A collective of which the package is a member. -/
structure Member where
  col  : CollRec
  ring : List Nat
  me   : Nat
deriving DecidableEq, Repr

/-- The package's membership of a collective. -/
def State.member (s : State) (x : Nat) : Option Member :=
  match s.collRec x with
  | none => none
  | some r => (s.ring r).map (fun (p : List Nat × Nat) => ⟨r, p.1, p.2⟩)

/-- Every collective of which the package is a member. -/
def State.members (s : State) : List Member :=
  (collRecs (s.blob 0x4032 0)).filterMap (fun r => (s.ring r).map (fun (p : List Nat × Nat) => Member.mk r p.1 p.2))

/-- Members of the ring. -/
def Member.n (m : Member) : Nat := m.ring.length

/-- The owner of tile `i` (R221). -/
def Member.owner (m : Member) (i : Nat) : Nat := i % m.n

/-- The ring place one hop from `k` in direction `dir`: 0 towards next, 1 towards previous. -/
def Member.hop (m : Member) (k dir : Nat) : Nat := if dir = 0 then (k + 1) % m.n else (k + m.n - 1) % m.n

/-- The direction of a tile: even tiles travel to next. -/
def dirOf (i : Nat) : Nat := i % 2

/-- The chain of a tile starts here. -/
def Member.first (m : Member) (i : Nat) : Bool := m.me = m.hop (m.owner i) (dirOf i)

/-- This package owns a tile. -/
def Member.owns (m : Member) (i : Nat) : Bool := m.me = m.owner i

/-- A result or gathered tile travels on from here: not at the last member, which is the one before the owner. -/
def Member.forwards (m : Member) (i : Nat) : Bool := m.col.op ≠ 2 && decide (1 < m.n) && m.hop m.me (dirOf i) ≠ m.owner i

/-- A result is due here: at every member, or at the owner alone under REDUCE_SCATTER. -/
def Member.due (m : Member) (i : Nat) : Bool := m.col.op ≠ 2 || m.owns i

/-- The collective's progress. -/
def State.coll (s : State) (x : Nat) : Coll := mget .start s.trib.colls x

/-- The collective's progress set. -/
def State.setColl (s : State) (x : Nat) (c : Coll) : State :=
  { s with trib := { s.trib with colls := mset .start s.trib.colls x c } }

/-! Windows (R224). -/

/-- The lowest tile of a direction at or above `i` that is not in a list; `fuel` bounds the search. -/
def nextFree (fin : List Nat) : Nat → Nat → Nat
  | 0, i => i
  | fuel + 1, i => if fin.contains i then nextFree fin fuel (i + 2) else i

/-- The lowest tile of a direction that a phase has not finished. -/
def lowestOpen (fin : List Nat) (dir : Nat) : Nat := nextFree fin fin.length dir

/-- The tiles of a window: the 4 lowest of its direction not yet finished. -/
def windowOf (fin : List Nat) (dir : Nat) : List Nat :=
  let a := lowestOpen fin dir
  let b := nextFree fin fin.length (a + 2)
  let c := nextFree fin fin.length (b + 2)
  [a, b, c, nextFree fin fin.length (c + 2)]

/-- The base that this package announces for a direction: the lower of its two phases' (assumption 12). -/
def Coll.base (c : Coll) (m : Member) (dir : Nat) : Nat :=
  let r := lowestOpen c.resFin dir
  if m.col.op = 3 then r else if m.col.op = 2 then lowestOpen c.chainFin dir else Nat.min (lowestOpen c.chainFin dir) r

/-- A tile lies in the window that the neighbour in a direction last announced. -/
def Coll.open' (c : Coll) (dir i : Nat) : Bool :=
  let b := mget 0 c.peer dir
  b ≤ i && i ≤ b + 6

/-- A Tributary header and payload (R223), with the CRC of R40. -/
def tribMessage (s : State) (coll phase : Nat) (nf : Bool) (tile dir form count sc : Nat) (payload : List Byte) : List Byte :=
  let head := wordsLE [coll + phase * 2 ^ 12 + b01 nf * 2 ^ 15 + s.position * 2 ^ 16 + s.job.attempt % 16 * 2 ^ 28,
    tile % 2 ^ 32, s.job.step % 2 ^ 32, s.obj 0x4035 1, form + (count - 1) * 2 ^ 8 + dir * 2 ^ 10, sc, payload.length]
  head ++ leBytes 4 (crc32 (head ++ payload)) ++ payload

/-- A message sent on a port and counted. -/
def State.tribSend (s : State) (port : Nat) (m : List Byte) : State := (s.emitRing port m).addObj 0xB111 port 64 m.length

/-- A window base that has advanced is announced to the neighbour that sends in that direction (WINDOW_ANNOUNCE). The message travels
against the window's tiles, and its DIR names the direction in which it travels (R225 check 2, assumption 180). -/
def State.announceWindow (s : State) (m : Member) (dir : Nat) : State :=
  let c := s.coll m.col.index
  let b := c.base m dir
  if b = mget 0 c.told dir ∨ m.n ≤ 1 then s
  else
    let s1 := s.setColl m.col.index { c with told := mset 0 c.told dir b }
    match s.portTo (m.ring.getD (m.hop m.me (1 - dir)) 0) with
    | none => s1
    | some p => s1.tribSend p (tribMessage s m.col.index 4 false b (1 - dir) 0 1 0x3F800000 [])

/-! The chain and its results (R221). -/

/-- Elementwise FP32 sum of two tiles. -/
def addTiles (a b : List Byte) : List Byte :=
  packElems 32 (((unpackElems 32 4096 a).zip (unpackElems 32 4096 b)).map (fun p => fadd p.1 p.2))

/-- The owner writes −0 as +0. -/
def plusZero (a : List Byte) : List Byte := packElems 32 ((unpackElems 32 4096 a).map posZero)

/-- The stride of a gathered tile's form, from its format bits. -/
def formOf (f : Nat) : TileFmt := ⟨bits f 0 4, bitOf f 7, bits f 4 2, bits f 6 1⟩

/-- A result slot's need fulfilled: 1 delivered, 2 sent on. A tile with nothing left to do is finished; the owner's chain slot is
finished once the result has been sent on, or, where it goes nowhere, delivered (R224). -/
def Coll.settle (c : Coll) (m : Member) (i bit : Nat) : Coll :=
  let left := mget 0 c.resDue i - (if bitOf (mget 0 c.resDue i) (bit - 1) then bit else 0)
  let c1 := { c with resDue := mset 0 c.resDue i left }
  let c2 := if m.owns i ∧ m.col.op ≠ 3 ∧ (left = 0 ∨ bit = 2) then { c1 with chainFin := sIns c1.chainFin i } else c1
  if left = 0 then { c2 with resFin := sIns c2.resFin i, resOut := mset none c2.resOut i none } else c2

/-- A result delivered: to the update unit's queue for DEST 0, else written as a whole tile at DEST_BASE (R221). -/
def State.deliverResult (s : State) (m : Member) (i : Nat) (t : TribTile) : State :=
  if m.col.dest = 0 then
    { s.kolfinPut hubEnd m.col.die 3 t.data with trib := { s.trib with deliver := s.trib.deliver ++
      [(m.col.die, ⟨m.col.index, m.col.tensor, i, s.job.step, t.nf, t.data⟩)] } }
  else
    let stride := if m.col.op = 3 then (formOf t.form).stride else 16384
    let s1 := match s.writeTiered .hub (m.col.base + i * stride) (padTo stride t.data) with
      | some x => x
      | none => s.memFull .hub
    s1.setColl m.col.index ((s1.coll m.col.index).settle m i 1)

/-- A result held: it is due for delivery, for sending on, or for both. -/
def State.holdResult (s : State) (m : Member) (i : Nat) (t : TribTile) : State :=
  let c := s.coll m.col.index
  let need := b01 (m.due i) + 2 * b01 (m.forwards i)
  let c1 := { c with resDue := mset 0 c.resDue i need, resOut := if m.forwards i then mset none c.resOut i (some t) else c.resOut }
  let s1 := s.setColl m.col.index c1
  if m.due i then s1.deliverResult m i t
  else s1.setColl m.col.index (c1.settle m i 1)

/-- Tile `i` moved as far as its contribution and its chain tile allow. -/
def State.advanceTile (s : State) (m : Member) (i : Nat) : State :=
  let x := m.col.index
  let c := s.coll x
  match mget none c.own i with
  | none => s
  | some t =>
    if m.col.op = 3 then
      let s1 := s.setColl x { c with own := mset none c.own i none }
      if m.owns i then s1.holdResult m i t else s1
    else
      let acc : Option TribTile :=
        if m.n ≤ 1 || m.first i then some t
        else (mget none c.chainIn i).map (fun (a : TribTile) => { a with data := addTiles a.data t.data, nf := a.nf || t.nf })
      match acc with
      | none => s
      | some a =>
        let c1 := { c with own := mset none c.own i none, chainIn := mset none c.chainIn i none }
        if m.n ≤ 1 || m.owns i then (s.setColl x c1).holdResult m i { a with data := plusZero a.data }
        else s.setColl x { c1 with chainOut := mset none c1.chainOut i (some a) }

/-- A tile moved, and the windows announced that its finish advances. -/
def State.moveTile (s : State) (m : Member) (i : Nat) : State := (s.advanceTile m i).announceWindow m (dirOf i)

/-! RSEND (R57, R149, R219). -/

/-- The tile form and stream scale exponent of a send descriptor. -/
def rsendForm (b : List Byte) : TileFmt := sendForm b

/-- The first tile that an RSEND contributes. -/
def State.rsendFirst (s : State) (m : Member) (b : List Byte) : Nat :=
  match s.tensor m.col.die m.col.tensor with
  | some r => wb b 4 0 16 * trTC r + wb b 4 16 16
  | none => wb b 4 16 16

/-- The raw tiles of an RSEND's source: at their stride, or unpacked from a packed sequence (R148, R197). None where a
compressed tile is refused (R196). -/
def rsendTiles (k : CoreState) (b : List Byte) : Option (List (List Byte)) :=
  let t := rsendForm b
  let n := wb b 8 0 16
  let src := wb b 3 0 24
  if wb b 7 17 1 = 1 then
    let bs := k.sramRead src (wb b 7 0 17)
    (packedWalk bs n 0).1.mapM (fun o => unpackTile t (bs.drop o))
  else some ((List.range n).map (fun i => k.sramRead (src + i * t.stride) t.raw))

/-- The bytes of an RSEND's source. -/
def rsendLength (b : List Byte) : Nat := if wb b 7 17 1 = 1 then wb b 7 0 17 else wb b 8 0 16 * (rsendForm b).stride

/-- Why an RSEND is refused (R75, R147, R148, R219, R397), beside tiles already contributed. -/
def State.rsendRefuse (s : State) (b : List Byte) : Option (Nat × Nat) :=
  let t := rsendForm b
  let n := wb b 8 0 16
  match s.member (wb b 2 12 9) with
  | none => some (tokNoObject, detailField 2 12)
  | some m =>
    let reducible := [0, 1, 2, 3, 4].contains t.format
    if !elemFormat t.format || (m.col.op ≠ 3 && !reducible) then some (tokRange, detailField 5 12)
    else if !t.ok then some (tokRange, detailField 5 19)
    else if (streamExp (wd b 6)).isNone then some (tokRange, detailField 6 0)
    else if n = 0 then some (tokRange, detailField 8 0)
    else if m.col.tiles < s.rsendFirst m b + n then some (tokRange, detailField 4 0)
    else if sramSize < wb b 3 0 24 + rsendLength b then some (tokRange, detailField 3 0)
    else none

/-- A source tile as Tributary takes it: widened to FP32, or for a gather in its own form (R219), with the saturations. -/
def contribution (gather : Bool) (t : TileFmt) (sc : Nat) (nf : Bool) (raw : List Byte) : TribTile × Nat :=
  if gather then
    (⟨raw, nf, t.format + t.size * 2 ^ 4 + t.dir * 2 ^ 6 + b01 t.scaled * 2 ^ 7, sc⟩, 0)
  else
    let w := widenAll (loadTile t ((streamExp sc).getD 0) raw)
    (⟨packElems 32 w.1.toList, nf, 0, 0x3F800000⟩, w.2)

/-- An RSEND taken out of the holds. -/
def CoreState.unhold (k : CoreState) (n : Nat) : CoreState :=
  { k with drainHold := k.drainHold.filter (fun d => d.num ≠ n), orderHold := k.orderHold.filter (fun d => d.num ≠ n) }

/-- An RSEND leaves: its tiles are taken and it retires (R219); a poisoned source and a refused compressed tile end it. -/
def State.contribute (s : State) (c : Nat) (d : Desc) (m : Member) : State :=
  let b := d.bytes
  let k := s.core c
  let s0 := (s.onCore c (fun k => k.unhold d.num)).readWindow c [(wb b 3 0 24, rsendLength b)]
  let first := s.rsendFirst m b
  let src := wb b 3 0 24
  if k.poisoned src (rsendLength b) then s0.failDesc c 4 d tokUncorrectable 0
  else match rsendTiles k b with
    | none => (s0.failDesc c 4 d tokUncorrectable 0).event (Event.at { code := 0x0405, cls := .degraded, d0 := src } c)
    | some raws =>
      let nf := s.obj 0x5018 c = 1
      let ts := raws.map (contribution (m.col.op = 3) (rsendForm b) (wd b 6) nf)
      let x := m.col.index
      let s1 := ((s0.okDesc c 4 d).kolfinPut (c / 16) hubEnd 3 (raws.flatMap (fun r => r))).addObj 0x5012 c 64 (ts.foldl (fun n t => n + t.2) 0)
      let s2 := (ts.zipIdx).foldl (fun t p =>
        let cl := t.coll x
        t.setColl x { cl with own := mset none cl.own (first + p.2) (some p.1.1), next := first + p.2 + 1 }) s1
      (ts.zipIdx).foldl (fun t p => t.moveTile m (first + p.2)) s2

/-- RSENDs that wait for lower tiles of a collective and whose turn has come, released one after another (R219). -/
def State.releaseOrdered (x : Nat) : Nat → State → State
  | 0, s => s
  | fuel + 1, s =>
    match s.member x with
    | none => s
    | some m =>
      let waiting := s.cores.flatMap (fun e => e.2.orderHold.map (fun d => (e.1, d)))
      match waiting.find? (fun p => wb p.2.bytes 2 12 9 = x && s.rsendFirst m p.2.bytes ≤ (s.coll x).next) with
      | none => s
      | some p =>
        if s.rsendFirst m p.2.bytes < (s.coll x).next then
          releaseOrdered x fuel ((s.onCore p.1 (fun k => k.unhold p.2.num)).failDesc p.1 4 p.2 tokRange (detailField 4 0))
        else releaseOrdered x fuel (s.contribute p.1 p.2 m)

/-- RSENDs in order waits, on every core. -/
def State.orderWaits (s : State) : Nat := s.cores.foldl (fun n e => n + e.2.orderHold.length) 0

/-- An RSEND whose drain point is met: it leaves, is refused for a tile already contributed, or waits for lower tiles and is
counted (R219). It has left the queue and the drain hold. -/
def State.leave (s : State) (c : Nat) (d : Desc) : State :=
  let x := wb d.bytes 2 12 9
  match s.member x with
  | none => s
  | some m =>
    let first := s.rsendFirst m d.bytes
    if first < (s.coll x).next then s.failDesc c 4 d tokRange (detailField 4 0)
    else if first = (s.coll x).next then
      let s1 := s.contribute c d m
      s1.releaseOrdered x (s1.orderWaits + 1)
    else (s.onCore c (fun k => { k with orderHold := k.orderHold ++ [d] })).addObj 0xB110 2 64 1

/-- The layer's run count equals the number that its drain point declares (R57). -/
def CoreState.drained (k : CoreState) (layer : Nat) : Bool := (k.layer layer).ran = (k.layer layer).declared

/-- RSEND (R219): a reduction send reaches the head of the send queue. It is refused, goes into the drain hold, or leaves. -/
def execRsend (core : Nat) (s : State) : Res :=
  let k := s.core core
  match k.ready, k.sendQ.waiting with
  | none, d :: _ =>
    if wb d.bytes 0 0 8 ≠ 2 then .next s
    else match s.rsendRefuse d.bytes with
      | some r => .next (s.failDesc core 4 d r.1 r.2)
      | none =>
        let s1 := s.onCore core (fun k => k.begin 4 d.num)
        if k.drained (wb d.bytes 2 0 12) then .next (s1.leave core d)
        else .next (s1.onCore core (fun k => { k with drainHold := k.drainHold ++ [d] }))
  | _, _ => .next s

/-- RSEND_DRAIN_RELEASE (R57): the oldest held RSEND whose layer has reached its drain point leaves. -/
def execRsendDrainRelease (core : Nat) (s : State) : Res :=
  let k := s.core core
  match k.drainHold.find? (fun d => k.drained (wb d.bytes 2 0 12)) with
  | none => .next s
  | some d => .next ((s.onCore core (fun k => { k with drainHold := k.drainHold.filter (fun x => x.num ≠ d.num) })).leave core d)

/-! Ring messages (R223 to R225). -/

/-- Tiles of one direction, from the lowest ready one, that one message can carry: consecutive, inside the neighbour's
window, with one non-finite bit and one form, four at most. -/
def carried (c : Coll) (dir : Nat) (ready : SMap (Option TribTile)) : List (Nat × TribTile) :=
  let rs := ready.filterMap (fun e => if dirOf e.1 = dir then e.2.map (fun (t : TribTile) => (e.1, t)) else none)
  match rs.filter (fun p => c.open' dir p.1) with
  | [] => []
  | p :: rest => run 3 p rest
where
  /-- The run that goes on from one tile. -/
  run : Nat → Nat × TribTile → List (Nat × TribTile) → List (Nat × TribTile)
    | 0, p, _ => [p]
    | _, p, [] => [p]
    | fuel + 1, p, q :: rest =>
      if q.1 = p.1 + 2 ∧ q.2.nf = p.2.nf ∧ q.2.form = p.2.form ∧ q.2.sc = p.2.sc then p :: run fuel q rest else [p]

/-- A ring message of some tiles sent; how many of the tiles that could travel together do so is free. -/
def State.sendRing (s : State) (m : Member) (phase dir : Nat) (ts : List (Nat × TribTile)) (port : Nat) : State :=
  let n := 1 + Config.freeNat s.free % ts.length
  let mine := ts.take n
  match mine with
  | [] => s
  | (i, t) :: _ =>
    let s1 := { s with free := s.free + 1 }.tribSend port
      (tribMessage s m.col.index phase t.nf i dir t.form mine.length t.sc (mine.flatMap (fun (p : Nat × TribTile) => p.2.data)))
    let s2 := mine.foldl (fun u p =>
      let c := u.coll m.col.index
      u.setColl m.col.index (if phase = 0 then
        { c with chainOut := mset none c.chainOut p.1 none, chainFin := sIns c.chainFin p.1 }
      else c.settle m p.1 2)) s1
    s2.announceWindow m dir

/-! The layout phase (R227, R228). -/

/-- A permute-plan entry. -/
structure Permute where
  entry : Nat
  src   : Nat
  dst   : Nat
  from' : Nat
  onto  : Nat
  units : Nat
deriving DecidableEq, Repr

/-- *Permute-plan entry*. -/
def permuteOf (b : List Byte) : Permute := ⟨wb b 0 0 12, wb b 1 0 12, wb b 1 16 12, fld b 8 6, fld b 16 6, wd b 6⟩

/-- The plan of the layout change in hand. -/
def State.plan (s : State) : List Permute := (records 32 (s.blob 0x4033 0)).map permuteOf

/-- Bytes of one 64 KiB unit written to fresh pages of a destination range (R228). -/
def State.permuteWrite (s : State) (a : Nat) (bs : List Byte) : State :=
  let die := (s.tensorDie a).getD 0
  match s.freshenAll die (s.access a bs.length) with
  | none => s.memFull .hub
  | some t => (t.writeTiered .hub a bs).getD t

/-- Every entry that this package sends has been sent, and every unit that it receives has been written. -/
def State.permuted (s : State) : Bool :=
  s.plan.all (fun e => (List.range e.units).all (fun u =>
    (e.src ≠ s.position || s.trib.sent.contains (e.entry, u)) && (e.dst ≠ s.position || s.trib.written.contains (e.entry, u))))

/-- PERMUTE_DONE (R394) written to the group master once the package has done its part (R228). -/
def State.permuteReport (s : State) : State :=
  if s.trib.layout && !s.trib.reported && s.permuted then
    { s with trib := { s.trib with reported := true } }.command s.master 0x4040 3
      (wordsLE [s.obj 0x4034 1, s.job.attempt % 16 + s.position * 2 ^ 16])
  else s

/-- The next unit of an entry that this package sends, if any. -/
def State.nextUnit (s : State) (e : Permute) : Option Nat :=
  if e.src = s.position then (List.range e.units).find? (fun u => !s.trib.sent.contains (e.entry, u)) else none

/-- One unit of a permute: a local copy, or a PHASE 3 message on the BKG channel, counted at its port (R223, R228, R229, R235). -/
def State.permuteUnit (s : State) (e : Permute) (u : Nat) : State :=
  let r := s.readTiered .hub (e.from' + 65536 * u) 65536
  let s1 := { r.2 with trib := { r.2.trib with sent := r.2.trib.sent ++ [(e.entry, u)] } }
  if e.dst = s.position then
    (({ s1 with trib := { s1.trib with written := s1.trib.written ++ [(e.entry, u)] } }).permuteWrite (e.onto + 65536 * u) r.1).permuteReport
  else
    let msg := tribMessage s e.entry 3 false u 0 0 1 0x3F800000 r.1
    let sent := s1.emitBkg e.dst 5 msg
    (match s.route e.dst with
      | some p => sent.addObj 0xB111 p 64 msg.length
      | none => sent).permuteReport

/-- A ring send has waited for a window: WINDOW_WAIT_US measures from now on (R235). -/
def State.noteWindowWait (s : State) : State := s.setObj 0xB110 3 1

/-- TRIBUTARY_MESSAGE_SEND (R224): the next message of a collective's phase and direction leaves once its tiles lie inside
the neighbour's window. Phase 3 names a permute-plan entry, and moves its next unit in ascending entry order. -/
def execTributaryMessageSend (collective phase dir : Nat) (s : State) : Res :=
  if phase = 3 then
    if s.trib.layout then
      match s.plan.find? (fun e => (s.nextUnit e).isSome) with
      | none => .next s
      | some e => if e.entry = collective then .next (s.permuteUnit e ((s.nextUnit e).getD 0)) else .next s
    else .next s
  else match s.member collective with
    | none => .next s
    | some m =>
      let c := s.coll collective
      let resPhase := if m.col.op = 3 then 2 else 1
      let ready := if phase = 0 then c.chainOut else if phase = resPhase then c.resOut else []
      let ts := carried c dir ready
      let waits := decide (dir < 2) && ready.any (fun e => decide (dirOf e.1 = dir) && e.2.isSome)
      match ts, s.portTo (m.ring.getD (m.hop m.me dir) 0) with
      | [], _ => .next (if waits then s.noteWindowWait else s)
      | _, none => .next s
      | _, some p => if dir < 2 ∧ s.job.left = false then .next (s.sendRing m phase dir ts p) else .next s

/-- Why an arriving message is refused, or that it is late (R225). -/
inductive TribCheck where
  | crc
  | route
  | late
  | permute (e : Permute)
  | window (m : Member)
  | tiles (m : Member)
deriving DecidableEq, Repr

/-- The tiles of a message. -/
def messageTiles (h : List Byte) : List Nat := (List.range (wb h 4 8 2 + 1)).map (fun j => wd h 1 + 2 * j)

/-- A tile is one that this package receives from the sender of its direction in a phase (R225). -/
def Member.receives (m : Member) (phase dir i : Nat) : Bool :=
  i < m.col.tiles && dirOf i = dir && (if phase = 0 then !m.first i else !m.owns i)

/-- The payload length that a ring message of some tiles must have. -/
def ringLength (phase form n : Nat) : Nat := n * (if phase = 2 then (formOf form).raw else 16384)

/-- The direction of the window that a PHASE 4 message announces: the one in which this package sends tiles to the message's sender.
Check 2 of R225 takes DIR as the direction in which the message itself travels, and the window's tiles travel against it
(assumption 180). -/
def windowDir (dir : Nat) : Nat := 1 - dir

/-- The checks of R225, in order. -/
def State.tribCheck (s : State) (m : List Byte) : TribCheck :=
  let h := m.take 32
  let payload := m.drop 32
  let coll := wb h 0 0 12
  let phase := wb h 0 12 3
  let src := wb h 0 16 12
  let dir := wb h 4 10 1
  let late := decide (wd h 3 ≠ s.obj 0x4035 1 ∨ wd h 2 ≠ s.job.step % 2 ^ 32 ∨ wb h 0 28 4 ≠ s.job.attempt % 16)
  if m.length < 32 ∨ wb h 6 0 17 ≠ payload.length ∨ crc32 (m.take 28 ++ payload) ≠ wd h 7 then .crc
  else if phase = 3 then
    match s.plan.find? (fun e => e.entry = coll && e.src = src && e.dst = s.position) with
    | none => .route
    | some e => if late then .late else .permute e
  else match s.member coll with
    | none => .route
    | some r =>
      let allowed := if r.col.op = 1 then [0, 1, 4] else if r.col.op = 2 then [0, 4] else [2, 4]
      let sender := fun (d : Nat) => decide (r.ring.getD (r.hop r.me d) 0xFFFF = src)
      if r.n ≤ 1 || !allowed.contains phase || !sender (1 - dir) then .route
      else if phase ≠ 4 && (messageTiles h).any (fun i => !r.receives phase dir i) then .route
      else if late then .late
      else if phase = 4 then .window r
      else .tiles r

/-- An arriving tile fits its window and its slot is empty (R224). The owner's chain slot holds its tile until the result is settled. -/
def Coll.fits (c : Coll) (phase i : Nat) : Bool :=
  let fin := if phase = 0 then c.chainFin else c.resFin
  (windowOf fin (dirOf i)).contains i && mget 0 c.resDue i = 0
    && (phase ≠ 0 || (mget none c.chainIn i = none && mget none c.chainOut i = none))

/-- A package fault of Tributary. -/
def State.tribFault (s : State) (code d0 d1 : Nat) : State := s.event { code := code, cls := .fault, d0 := d0, d1 := d1 }

/-- TRIBUTARY_MESSAGE_RECEIVE (R225): the message is checked, and its tiles are added, forwarded, delivered or written. -/
def execTributaryMessageReceive (port : Nat) (message : List Byte) (s : State) : Res :=
  let h := message.take 32
  let payload := message.drop 32
  let coll := wb h 0 0 12
  let phase := wb h 0 12 3
  if s.job.left then .next s
  else match s.tribCheck message with
  | .crc => .next (s.tribFault 0x0605 port 0)
  | .route => .next (s.tribFault 0x0606 coll 0)
  | .late => .next ((s.addObj 0xB110 1 64 1).event { code := 0x0607, cls := .note, d0 := coll })
  | .permute e =>
    let u := wd h 1
    .next ((({ s with trib := { s.trib with written := s.trib.written ++ [(e.entry, u)] } }).permuteWrite (e.onto + 65536 * u)
      payload).permuteReport)
  | .window m =>
    let c := s.coll coll
    let dir := windowDir (wb h 4 10 1)
    .next (s.setColl coll { c with peer := mset 0 c.peer dir (Nat.max (mget 0 c.peer dir) (wd h 1)) })
  | .tiles m =>
    let tiles := messageTiles h
    let size := payload.length / tiles.length
    match tiles.find? (fun i => !(s.coll coll).fits phase i) with
    | some i => .next (s.tribFault 0x0604 coll i)
    | none =>
      .next ((tiles.zipIdx).foldl (fun t p =>
        let tile : TribTile := ⟨(payload.drop (size * p.2)).take size, wb h 0 15 1 = 1, wb h 4 0 8, wd h 5⟩
        let c := t.coll coll
        if phase = 0 then (t.setColl coll { c with chainIn := mset none c.chainIn p.1 (some tile) }).moveTile m p.1
        else (t.holdResult m p.1 tile).announceWindow m (dirOf p.1)) s)

/-! Deliveries (R168, R222). -/

/-- Tiles that a DEST 0 collective delivers here in a step. -/
def Member.deliveries (m : Member) : Nat :=
  if m.col.op = 2 then ((List.range m.col.tiles).filter m.owns).length else m.col.tiles

/-- An update unit at the start of a step: nothing applied, announced or waiting. -/
def UpdUnit.newStep (u : UpdUnit) : UpdUnit :=
  { u with applied := [], headed := [], due := [], dealt := [], waiting := [], running := [] }

/-- Tributary starts a step afresh and announces its deliveries to each update unit (DELIVERY_ANNOUNCE, R222). -/
def State.announceDeliveries (s : State) : State :=
  let s0 := { s with
    trib := { s.trib with colls := [], deliver := [] },
    upd := s.upd.map (fun (e : Nat × UpdUnit) => (e.1, e.2.newStep)) }
  s0.members.foldl (fun t m =>
    if m.col.dest = 0 ∧ m.col.op ≠ 3 then
      let u := t.unit m.col.die
      t.setUnit m.col.die { u with due := mset 0 u.due m.col.tensor (mget 0 u.due m.col.tensor + m.deliveries) }
    else t) s0

/-- UPDATE_TILE_ARRIVE (R168): the oldest tile that waits for a die's update unit enters its arrival buffer, where there is a
free place. -/
def execUpdateTileArrive (die : Nat) (s : State) : Res :=
  match s.trib.deliver.findIdx? (fun p => p.1 = die) with
  | none => .next s
  | some i =>
    match s.trib.deliver[i]? with
    | none => .next s
    | some p =>
      let u := s.unit die
      if arrivalTiles ≤ u.buffer.length || !s.dieUp die then .next s
      else
        let s1 := { s with trib := { s.trib with deliver := s.trib.deliver.eraseIdx i } }
        let s2 := (s1.setUnit die { u with buffer := u.buffer ++ [p.2] }).peakObj 0x5035 die (u.buffer.length + 1)
        match s.member p.2.coll with
        | none => .next s2
        | some m => .next ((s2.setColl p.2.coll ((s2.coll p.2.coll).settle m p.2.tile 1)).announceWindow m (dirOf p.2.tile))

/-! STEPEND and the step end (R146, R155, R220). -/

/-- Every core that runs a stage program waits in STEPEND (R220). DEDUCED (log 137): a core whose program has halted or faulted
before its STEPEND has not reached the step end. -/
def State.stepEnd (s : State) : Bool :=
  s.cores.all (fun e => match e.2.run, e.2.waiting with
    | .idle, _ => true
    | _, .stepend _ => true
    | _, _ => false)

/-- Tiles of RSENDs of a collective that are issued and have not been taken. -/
def State.issuedTiles (s : State) (x : Nat) : Nat :=
  s.cores.foldl (fun n e =>
    (e.2.sendQ.waiting ++ e.2.drainHold ++ e.2.orderHold).foldl (fun n d =>
      if wb d.bytes 0 0 8 = 2 ∧ wb d.bytes 2 12 9 = x then n + wb d.bytes 8 0 16 else n) n) 0

/-- At step end a collective that will not receive all its tiles is a package fault (COLL_INCOMPLETE_CHECK, R220). -/
def State.collIncomplete (s : State) : State :=
  s.members.foldl (fun t m =>
    if (s.coll m.col.index).next + s.issuedTiles m.col.index < m.col.tiles then
      t.event { code := 0x0603, cls := .fault, d0 := m.col.index }
    else t) s

/-- STEPEND (R146): legal only after a PICK that returned KIND 3. It waits until the item's descriptors but its sends have
retired, and then for the step boundary. -/
def execStepend (core : Nat) (rd : Reg) (s : State) : Res :=
  if s.runs core then
    let k := s.core core
    if !k.doneSpan then .next (s.programFault core causeStructure)
    else if !k.itemRetired then .next s
    else if k.itemHolds then .next (s.programFault core causeStructure)
    else
      let s1 := ((s.endItem core).closeIntervals core 0).onCore core (fun k => { k with waiting := .stepend rd, doneSpan := false })
      if s1.job.st = 1 ∧ s1.stepEnd then .next s1.collIncomplete else .next s1
  else .next s

end Sys2Proof.Machine
end

