-- ==== Sys2Proof/Machine/Jobs.lean ====
section
/-! DEFINITION. What the job's machinery shares: the positions of the cascade tree and what they send each other (R230 to
R240, R263), starting and restarting (R43, R47, R90, R161), committed values that wait (R235), and core substitution (R304
to R308). -/

namespace Sys2Proof.Machine

/-! Positions of the cascade tree (R230, R231). -/

/-- Positions of a BLOB of two-byte positions. -/
def positionsOf (b : List Byte) : List Nat := (records 2 b).map leNat

/-- The members of this package's group, spares included; a package with no job description is alone (R294). -/
def State.groupMembers (s : State) : List Nat :=
  let l := positionsOf (s.blob 0x4030 6)
  if l = [] then [s.position] else l

/-- SPARES. -/
def State.spares (s : State) : List Nat := positionsOf (s.blob 0x4030 8)

/-- The non-spare positions of the group. -/
def State.nonSpares (s : State) : List Nat := s.groupMembers.filter (fun p => !s.spares.contains p)

/-- The child masters of the root: CHILD_MASTERS, as deputies have taken them over. -/
def State.childMasters (s : State) : List Nat :=
  if s.isRoot then (s.cas.kids.getD (positionsOf (s.blob 0x4030 7))).filter (fun p => p ≠ s.position) else []

/-- The parent of this package's group master. -/
def State.parent (s : State) : Nat := s.cas.parent.getD (s.obj 0x4030 5)

/-- Where this package's own reports go: to its group master. -/
def State.upward (s : State) : Nat := if s.isMaster && !s.isRoot then s.parent else s.master

/-- The package is a spare that holds no position. -/
def State.isSpare (s : State) : Bool := s.obj 0x4030 9 = 1

/-- A report comes from below: at a master, from a package of its group or a child master (R231, R263). -/
def fromBelow (s : State) (r : NapReq) : Bool := match r.source with
  | some q => s.isMaster && (q = s.position || s.groupMembers.contains q || s.childMasters.contains q)
  | none => false

/-- The position whose commands a package obeys: the root its own, a child master its parent, any other its master. -/
def State.above (s : State) : Nat := if s.isRoot then s.position else if s.isMaster then s.parent else s.master

/-- A command comes from above (R231). -/
def fromAbove (s : State) (r : NapReq) : Bool := r.source = some s.above

/-- A command of one cascade or recovery object: its sender, its layout (R394, R395), then its action. A command of a lower
MASTER_EPOCH is discarded (R231, assumption 63), and a package that has left its job ignores the job's commands (R309). -/
def State.cascade (s : State) (sub : Nat) (r : NapReq) (who : State → NapReq → Bool) (ok : List Byte → Bool)
    (act : State → Nat → List Byte → State) : Res :=
  s.serveCommand 0x4040 sub r (commandReply r blobLimit who (fun t q v =>
    if !ok v then .no t stRange 0
    else if t.job.left ∨ q.epoch < t.obj 0x4035 3 then .ok t
    else .ok (act t (q.source.getD t.position) v)))

/-- A value of at least `n` bytes. -/
def atLeast (n : Nat) (v : List Byte) : Bool := decide (n ≤ v.length)

/-! Commands down the tree (R231, R237, R239). -/

/-- The positions below a master, its deputy first, its child masters last and the root itself at the end. -/
def State.below (s : State) (all : Bool) : List Nat :=
  let l := ((if all then s.groupMembers else s.nonSpares).filter (fun p => p ≠ s.position))
  let d := s.obj 0x4030 4
  (if l.contains d then d :: l.filter (fun p => p ≠ d) else l) ++ s.childMasters ++ (if s.isRoot then [s.position] else [])

/-- A command written to every position below, the deputy first. -/
def State.down (s : State) (all : Bool) (sub : Nat) (v : List Byte) : State :=
  if s.isMaster then (s.below all).foldl (fun (t : State) (p : Nat) => t.command p 0x4040 sub v) s else s

/-- A command written to the deputy, and to the others once the deputy has answered (R237). -/
def State.downAfter (s : State) (all : Bool) (sub : Nat) (v : List Byte) : State :=
  if !s.isMaster then s
  else match s.below all with
    | [] => s
    | p :: rest =>
      if p = s.obj 0x4030 4 ∧ p ≠ s.position then
        let seq := mget 0 s.nap.outSeq p
        let s1 := s.command p 0x4040 sub v
        { s1 with cas := { s1.cas with
          awaiting := s1.cas.awaiting ++ [⟨p, seq, rest.map (fun (q : Nat) => (q, 0x4040, sub, v))⟩] } }
      else (p :: rest).foldl (fun (t : State) (q : Nat) => t.command q 0x4040 sub v) s

/-- A GROUP_COMMIT has not been answered by every package below (R295). -/
def State.commitOpen (s : State) : Bool :=
  !s.cas.unanswered.isEmpty
    || s.cas.awaiting.any (fun (a : Awaiting) => a.rest.any (fun (x : Nat × Nat × Nat × List Byte) => x.2.2.1 = 0x17))

/-- A child master whose packages have all answered a GROUP_COMMIT answers it to the root (R295, assumption 182). -/
def State.answerCommit (s : State) : State := match s.cas.commitReq, s.commitOpen with
  | some x, false => finish x.1 { Reply.ok { s with cas := { s.cas with commitReq := none } } with keep := x.2 } [] true
  | _, _ => s

/-- A position has answered a command of SEQ `seq`: what waited for it goes out (R237, R295). -/
def State.answered (s : State) (p seq : Nat) : State :=
  let mine := s.cas.awaiting.filter (fun (a : Awaiting) => a.deputy = p && a.seq = seq)
  let s1 := { s with cas := { s.cas with
    awaiting := s.cas.awaiting.filter (fun (a : Awaiting) => !(a.deputy = p && a.seq = seq)),
    unanswered := s.cas.unanswered.filter (fun (u : Nat × Nat) => u ≠ (p, seq)) } }
  (mine.foldl (fun (t : State) (a : Awaiting) =>
    a.rest.foldl (fun (t : State) (x : Nat × Nat × Nat × List Byte) =>
      let seq := mget 0 t.nap.outSeq x.1
      let t1 := t.command x.1 x.2.1 x.2.2.1 x.2.2.2
      if x.2.2.1 = 0x17 ∧ x.1 ≠ t.position then
        { t1 with cas := { t1.cas with unanswered := t1.cas.unanswered ++ [(x.1, seq)] } } else t1) t) s1).answerCommit

/-- A step number as two words. -/
def stepWords (n : Nat) : List Nat := [n % 2 ^ 32, n / 2 ^ 32 % 2 ^ 32]

/-- The step that words 0 and 1 of a value hold. -/
def stepOf (v : List Byte) : Nat := fld v 0 8

/-! Starting and restarting (R43, R47, R90, R161, R225). -/

/-- Every Riffle generator seeded for a step (R90): a lane's state follows from the seed until its next draw. -/
def State.reseed (s : State) (step : Nat) : State :=
  { s with
    job := { s.job with seedStep := step, seedPos := s.position },
    cores := s.cores.map (fun (c : Nat × CoreState) => (c.1, { c.2 with riffle := [] })),
    upd := s.upd.map (fun (u : Nat × UpdUnit) => (u.1, { u.2 with riffle := [] })) }

/-- Every stream re-created with the job micro-batch counter in force (R43, R47). -/
def State.recreateStreams (s : State) : State :=
  { s with streams := s.streams.map (fun (e : Nat × Option Stream) =>
      (e.1, e.2.map (fun (v : Stream) => Stream.fresh v.record s.job.mbBase))) }

/-- The micro-batches in flight and what the step has done so far forgotten. -/
def State.forgetStep (s : State) : State :=
  { s with
    stageMbs := [], stageDone := [],
    trib := { s.trib with colls := [], deliver := [], sent := [], written := [], layout := false, reported := false },
    upd := s.upd.map (fun (u : Nat × UpdUnit) => (u.1, { u.2.newStep with buffer := [], missed := false, blocked := false })),
    job := { s.job with vote := false, voted := false, verdict := none, haltAfter := false },
    cas := { s.cas with votes := [], permDone := [] },
    mem := { s.mem with planDone := [], locks := [] } }

/-- Every core that holds an image and whose die is in service starts at ENTRY with s1 holding a step (R240). -/
def State.startCores (s : State) (step : Nat) : State :=
  { s with cores := s.cores.map (fun (c : Nat × CoreState) => (c.1, if s.dieUp (c.1 / 16) then c.2.start step else c.2)) }

/-- CORE_STATE of every core that waits in STEPEND set: 2 while a halt holds it there (R182, R250). -/
def State.haltCores (s : State) : State :=
  { s with cores := s.cores.map (fun (c : Nat × CoreState) => (c.1, match c.2.waiting with
      | .stepend _ => { c.2 with run := .halted }
      | _ => c.2)) }

/-- CORE_STATE of every core of a die in service set to 2, once a job has halted after a boundary (R182). -/
def State.haltAll (s : State) : State :=
  ((List.range 128).filter (fun c => s.part.hasCore c && s.dieUp (c / 16))).foldl (fun (t : State) (c : Nat) =>
    t.onCore c (fun k => { k with run := .halted })) s

/-- Every core halted where it stands. -/
def State.stopCores (s : State) : State :=
  { s with cores := s.cores.map (fun (c : Nat × CoreState) => (c.1, if c.2.run = .running then { c.2 with run := .halted } else c.2)) }

/-- The job halted on this package, with a HALT event. -/
def State.haltJob (s : State) (code d0 : Nat) : State :=
  ((s.record { code := code, cls := .halt, d0 := d0 }).stopCores).setJobState 2

/-- PENDING version slots returned to FREE (R180, R240). -/
def freePending (t : List VSlot) : List VSlot := t.map (fun v => if v.st = .pending then .free else v)

/-- Holders dropped: only the CURRENT slot stays. -/
def dropHolders (t : List VSlot) : List VSlot :=
  t.map (fun v => if v.st = .current then { v with holders := 0 } else .free)

/-! Committed values that wait (R235, R93). -/

/-- A staged value's entry in a list that rises by key. -/
def stPut : List (Nat × StVal) → Nat → StVal → List (Nat × StVal)
  | [], k, v => [(k, v)]
  | e :: l, k, v => if e.1 = k then (k, v) :: l else if k < e.1 then (k, v) :: e :: l else e :: stPut l k v

/-- The entry of a key. -/
def stGet (l : List (Nat × StVal)) (k : Nat) : Option StVal := (l.find? (fun e => e.1 = k)).map (fun (e : Nat × StVal) => e.2)

/-- A value put in force. -/
def State.force (s : State) (k : Nat) : StVal → State
  | .scalar v => s.setObj (k / 256) (k % 256) v
  | .blob b => s.setBlob (k / 256) (k % 256) b

/-- A list of values put in force. -/
def State.laid (s : State) (l : List (Nat × StVal)) : State := l.foldl (fun (t : State) (e : Nat × StVal) => t.force e.1 e.2) s

/-- The value of an object as it is in force. -/
def State.inForce (s : State) (k : Nat) : StVal :=
  match objRow (k / 256) (k % 256) with
  | some r => if r.ty = .blob then .blob (s.blob (k / 256) (k % 256)) else .scalar (s.obj (k / 256) (k % 256))
  | none => .scalar 0

/-- The committed value of an object: the one that waits, or the one in force. -/
def State.committedAt (s : State) (k : Nat) : StVal := (stGet s.next k).getD (s.inForce k)

/-- Objects whose committed value acts at job start or at TAKEOVER (*Job description objects*). -/
def atJobStart (k : Nat) : Bool :=
  (objKey 0x4030 1 ≤ k && k ≤ objKey 0x4030 9) || k / 256 = 0x7020 || k / 256 = 0x7021

/-- Objects whose committed value acts at a layout change or at job start. -/
def atLayout (k : Nat) : Bool := k / 256 = 0x4031 || k / 256 = 0x4032

/-- The waiting values that satisfy `p` put in force; a LINK_MAP among them is held against the ports' peers by `recheckPeers`. -/
def State.adopt (s : State) (p : Nat → Bool) : State :=
  { s.laid (s.next.filter (fun (e : Nat × StVal) => p e.1)) with next := s.next.filter (fun (e : Nat × StVal) => !p e.1) }

/-- A port's authenticated peer is the one that LINK_MAP names, or LINK_MAP names none (R215). -/
def State.peerFits (s : State) (n : Nat) : Bool :=
  !bitOf (s.obj 0x7020 n) 15 || (bitOf (s.obj 0x7022 n) 15 && bits (s.obj 0x7020 n) 0 15 = bits (s.obj 0x7022 n) 0 15)

/-- Peers held against a LINK_MAP that has come into force (R215): an authenticated port whose peer differs is reported down with a
PEER_MISMATCH event, and retried at its next training. -/
def State.recheckPeers (s : State) : State :=
  (List.range s.part.ports).foldl (fun (t : State) (n : Nat) =>
    let q := t.obj 0x7022 n
    if bitOf q 15 && !bitOf q 16 && !t.peerFits n then
      ((t.setObj 0x7022 n (q + 2 ^ 16)).portDown n 4).record { code := 0x0601, cls := .degraded, d0 := n, d1 := bits q 0 15 }
    else t) s

/-- Every port that LINK_MAP uses has passed R215. -/
def State.peersPass (s : State) : Bool :=
  (List.range s.part.ports).all (fun n => !bitOf (s.obj 0x7020 n) 15 || (s.peerFits n && !bitOf (s.obj 0x7022 n) 16))

/-- A committed value stored: in force, or waiting while a job runs or rolls back. -/
def State.commitValue (s : State) (k : Nat) (v : StVal) : State :=
  if (atJobStart k || atLayout k) && (s.job.st = 1 || s.job.st = 3) then
    { (if s.committedAt k = v then s else s.bumpBlob k) with next := stPut s.next k v }
  else
    let t : State := { s.force k v with next := s.next.filter (fun (e : Nat × StVal) => e.1 ≠ k) }
    if k / 256 = 0x7020 then t.recheckPeers else t

/-- The value of a BUDDY_ACK by which a holder tells that it has lost a line of the copy and keeps no image of it (R320). R320 names no
message for it; DESIGN CHOICE (assumption 200). -/
def imageLost : Nat := 0xFFFFFFFFFFFFFFFF

/-! Core substitution (R304 to R308). -/

/-- SPARE_CORE of a die (R307): what manufacture left, until a substitution. -/
def State.spareCore (s : State) (die : Nat) : Nat :=
  let v := s.obj 0x8011 die
  if v = 0 ∧ Config.spareConsumed die then 2 else v

/-- A quarantined core's coordinate moved to the die's spare core, or the core lost (R306, R307). -/
def State.substitute (s : State) (c : Nat) : State :=
  let d := c / 16
  if s.obj 0x8012 c ≠ 1 ∨ !s.dieUp d ∨ s.job.left then s
  else if s.spareCore d ≠ 0 then
    let s1 := if s.nv.subst.contains c then s.setObj 0x8011 d 3 else s
    s1.event (Event.at { code := 0x010A, cls := .fault, selfLost := true } c)
  else
    let k := s.core c
    let engines := k.engines.map (fun (e : Nat × Engine) => (e.1, { e.2 with faults := [] }))
    let repair := s.nv.repair.filter (fun (e : Nat × Nat) => !(decide (d * 256 + 8 * (c % 16) ≤ e.1) && decide (e.1 < d * 256 + 8 * (c % 16) + 8)))
    let lost := (k.flips.filter (fun w => 2 ≤ flipCount w.2)).map (fun w => w.1 / 8)
    let s1 := { s.setCore c { k with engines := engines, score := 0, poison := lost.foldl sIns k.poison, flips := [] } with
      nv := { s.nv with repair := repair, subst := sIns s.nv.subst c } }
    ((s1.setObj 0x8012 c 2).setObj 0x8011 d 1).event (Event.at { code := 0x0109, cls := .note } c)

/-- Cores whose substitution is due, in rising order: on one die the lower takes the spare (R308). -/
def State.dueCores (s : State) : List Nat := (List.range 128).filter (fun c => s.obj 0x8012 c = 1 && s.dieUp (c / 16))

/-- Every substitution that is due carried out. -/
def State.substituteAll (s : State) : State := s.dueCores.foldl (fun (t : State) (c : Nat) => t.substitute c) s

/-- CORE_SUBSTITUTION (R304, R305): while no job runs at once, else once every core waits in STEPEND. -/
def execCoreSubstitution (core : Nat) (s : State) : Res :=
  if !s.part.hasCore core then .next s
  else if s.job.st = 0 ∨ s.job.st = 3 ∨ s.stepEnd then .next (s.substitute core)
  else .next s

end Sys2Proof.Machine
end

