-- ==== Sys2Proof/Machine/Drain.lean ====
section
/-! DEFINITION. What leaves the package as a copy of its state: the configuration record (R243, R255), buddy drains (R243 to
R247, R376), and the Freshet, the cut and its shards (R248 to R258). -/

namespace Sys2Proof.Machine

/-! The configuration record (R243, R255). -/

/-- The keys of a row's objects. -/
def ObjRow.keys (r : ObjRow) : List Nat :=
  (List.range (r.iHi - r.iLo + 1)).flatMap (fun di =>
    ((List.range (r.sHi - r.sLo + 1)).filter (fun ds => r.hasSub (r.iLo + di) (r.sLo + ds))).map
      (fun ds => objKey (r.iLo + di) (r.sLo + ds)))

/-- An index lies in the areas 0x3000 to 0x8000 and 0xA000. -/
def recordArea (i : Nat) : Bool := (0x3000 ≤ i && i ≤ 0x8FFF) || (0xA000 ≤ i && i ≤ 0xAFFF)

/-- The RW-staged objects that a configuration record holds on a part. -/
def recordKeys (p : Part) : List Nat :=
  (objMap.filter (fun r => r.acs = .staged && recordArea r.iLo)).flatMap (fun r =>
    r.keys.filter (fun k => r.present p (k / 256) (k % 256)))

/-- The bytes of a value of the object at a key. -/
def valueBytes (k : Nat) : StVal → List Byte
  | .scalar v => match objRow (k / 256) (k % 256) with
    | some r => leBytes r.ty.size v
    | none => []
  | .blob b => b

/-- An entry of the configuration record. -/
def recordEntry (k : Nat) (v : StVal) : List Byte :=
  let b := valueBytes k v
  leBytes 2 (k / 256) ++ leBytes 1 (k % 256) ++ [0] ++ leBytes 4 b.length ++ b ++ pad4 b.length

/-- A target record of a load set: a core's bit, or none for a description (R159). -/
def targetRecord (core : Option Nat) : List Byte :=
  match core with
  | some c => leBytes 16 (2 ^ c) ++ List.replicate 16 0
  | none => List.replicate 16 0 ++ leBytes 4 1 ++ List.replicate 12 0

/-- The load set in force: an item for each core that holds an image, then the description. -/
def State.loadSet (s : State) : List Byte :=
  let cs := s.cores.filter (fun (c : Nat × CoreState) => c.2.image ≠ [])
  wordsLE [cs.length + b01 (s.desc ≠ []), 0, 0, 0]
    ++ cs.flatMap (fun (c : Nat × CoreState) => targetRecord (some c.1) ++ c.2.image)
    ++ (if s.desc = [] then [] else targetRecord none ++ s.desc)

/-- The value of an object in a configuration record: its committed value, and while a job runs the job seed that the job holds
(R90, R93, assumption 174). -/
def State.recordValue (s : State) (k : Nat) : StVal :=
  if k = objKey 0x5001 1 ∧ s.job.st ≠ 0 then .scalar s.job.seed else s.committedAt k

/-- The configuration record: every committed RW-staged object of its areas, then the load set in force. -/
def State.configRecord (s : State) : List Byte :=
  (recordKeys s.part).flatMap (fun k => recordEntry k (s.recordValue k)) ++ s.loadSet

/-- The configuration record as the boundary of a step left it: what commits at later boundaries have replaced stands again
(R250). -/
def State.configAtStep (s : State) (step : Nat) : List Byte :=
  let later := s.weir.shadows.filter (fun (x : Shadow) => step < x.step)
  (recordKeys s.part).flatMap (fun k => recordEntry k
    ((later.findSome? (fun (x : Shadow) => stGet x.before k)).getD (s.recordValue k))) ++ s.loadSet

/-- The entries at the head of a configuration record, and what follows them: an entry begins with an index of its areas, the
load set with its item count. `fuel` bounds the entries. -/
def recordParse : Nat → List Byte → List (Nat × List Byte) × List Byte
  | 0, bs => ([], bs)
  | fuel + 1, bs =>
    let i := fld bs 0 2
    let n := fld bs 4 4
    if bs.length < 8 || !recordArea i then ([], bs)
    else
      let r := recordParse fuel (bs.drop (8 + n + (pad4 n).length))
      ((objKey i (fld bs 2 1), (bs.drop 8).take n) :: r.1, r.2)

/-- The value that a key's bytes spell. -/
def valueOf (k : Nat) (b : List Byte) : StVal :=
  match objRow (k / 256) (k % 256) with
  | some r => if r.ty = .blob then .blob b else .scalar (leNat b)
  | none => .blob b

/-! Pages as they travel (R190, R244, R376). -/

/-- The mapped pages of every region that a tensor record names, in rising order. -/
def State.stateKeys (s : State) : List Nat :=
  (s.dies.flatMap (fun d => (s.tensorTable d).flatMap trRegions)).foldl (fun (l : List Nat) (g : Nat × Nat) =>
    (s.keysIn g.1 g.2).foldl sIns l) []

/-- A page's stored bytes: its compressed tiles, or its plain bytes. -/
def State.storedPage (s : State) (key : Nat) (cells : List Host.Cell) : List Byte :=
  if key % 2 = 0 then rdBytes cells (key / 2) 65536
  else match s.regionAt (key / 2) with
    | some r => (List.range (s.keyTiles key)).flatMap (fun i => packTile r.form (rdBytes cells (key / 2 + i * r.form.stride) r.form.raw))
    | none => []

/-- A page has been written after a step: its current contents are not those of that step's boundary. -/
def State.writtenAfter (s : State) (key step : Nat) : Bool :=
  match s.page key with
  | some p => newer 32 p.written (step % 2 ^ 32)
  | none => true

/-- The retained page that holds what a page held at the boundary of a step: none while its current contents are those, or where
none was retained. Of several the newest counts. -/
def State.sourceAt (s : State) (key step : Nat) : Option (Nat × Retained) :=
  if !s.writtenAfter key step then none
  else (s.mem.retained.filterMap (fun e => e.2.map (fun (r : Retained) => (e.1, r)))).foldl (fun (o : Option (Nat × Retained)) x =>
    if x.2.key ≠ key ∨ newer 32 x.2.page.written (step % 2 ^ 32) then o
    else match o with
      | some y => if newer 32 x.2.page.written y.2.page.written then some x else o
      | none => some x) none

/-- The cells of a page at the boundary of a step: a fresh page of a later step that superseded none held nothing then. -/
def State.cellsAtStep (s : State) (key step : Nat) : List Host.Cell :=
  match s.sourceAt key step, s.page key with
  | some x, _ => x.2.cells
  | none, some p => if p.fresh && p.old.isNone && s.writtenAfter key step then [] else s.pageCells key
  | none, none => []

/-- A page's stored bytes at the boundary of a step. -/
def State.pageAtStep (s : State) (key step : Nat) : List Byte := s.storedPage key (s.cellsAtStep key step)

/-- Tiered memory as the boundary of a step left it. -/
def State.memoryAtStep (s : State) (step : Nat) : List Host.Cell :=
  let keys := (s.mem.pages.map (fun e => e.1) ++ s.mem.retained.filterMap (fun e => e.2.map (fun (r : Retained) => r.key))).eraseDups
  (keys.filter (fun k => s.writtenAfter k step)).foldl (fun m k =>
    (s.cellsAtStep k step).foldl (fun (n : List Host.Cell) (c : Host.Cell) => wrByte n c.1 c.2)
      (m.filter (fun (c : Host.Cell) => c.1 < k / 2 || s.keyStop k ≤ c.1))) s.mem.cells

/-! What HD reads for its drains (R209, R210). -/

/-- A piece of a page as a step's boundary left it, read through the code: whether a line of it is lost. A lost line is counted
and raises MEM_UE, or PACK_CHECK where it resolved wrongly in a tile page. -/
def State.judgePiece (s : State) (step : Nat) (p : Piece) : Bool × State :=
  let l := s.pieceLines p
  let hit := fun (x : List Nat) => x.any (fun n => l.1 ≤ n && n < l.1 + l.2)
  let judge := fun (pg : Page) (t : State) =>
    if hit pg.poison then (true, (t.countUe pg.frame.tier).memUe p.addr)
    else if hit pg.damaged then (true, t.packCheck { code := 0, cls := .degraded, die := 8 } p.addr)
    else (false, t)
  match s.sourceAt p.key step with
  | some x =>
    let y := s.readKept x.1 x.2
    judge y.1.page y.2
  | none =>
    let t := s.readPieces [p]
    match t.page p.key with
    | some pg => judge pg t
    | none => (false, t)

/-- Pieces judged in turn. -/
def State.judgePieces (s : State) (step : Nat) (ps : List Piece) : Bool × State :=
  ps.foldl (fun (x : Bool × State) p => let r := x.2.judgePiece step p; (x.1 || r.1, r.2)) (false, s)

/-- A whole page judged. -/
def State.judgePage (s : State) (step key : Nat) : Bool × State :=
  s.judgePieces step (s.access (key / 2) (s.keyStop key - key / 2))

/-- A page record of the BKG channel (R376). KIND 2 marks the end of an image: its bytes are the configuration record, or
nothing where that has not changed. -/
def pageRecord (step address kind count : Nat) (bytes : List Byte) : List Byte :=
  let h := leBytes 8 step ++ leBytes 8 address ++ leBytes 1 kind ++ [0] ++ leBytes 2 count ++ leBytes 4 bytes.length ++ leBytes 4 0
  h ++ leBytes 4 (crc32 (h ++ bytes)) ++ bytes

/-- The holder of this package's buddy copy: 0xFFFF for none. -/
def State.holder (s : State) : Nat := s.obj 0x4030 0x0A

/-- BUDDY_LAG reads 0xFFFF_FFFF while the package has no complete image. -/
def noImage : Nat := 0xFFFFFFFF

/-- Whether the package has a complete image (R245). -/
def State.hasImage (s : State) : Bool := s.obj 0x8006 4 ≠ noImage

/-- A full drain of the whole copy at a step (R243): until it is acknowledged the package has no complete image. -/
def State.fullDrain (s : State) (step : Nat) : State :=
  let c := s.configRecord
  { s with buddy := { s.buddy with
    queue := if s.holder = 0xFFFF then [] else [(step, s.stateKeys, c)],
    config := c } }.setObj 0x8006 4 noImage

/-- The drain of a boundary (R244): the pages that the step wrote, and the configuration record if it has changed since the
last drain. -/
def State.boundaryDrain (s : State) (step : Nat) : State :=
  if s.holder = 0xFFFF ∨ s.buddy.queue.any (fun (e : Nat × List Nat × List Byte) => e.1 = step) then s
  else
    let ks := s.stateKeys.filter (fun k => match s.page k with
      | some p => p.written = step % 2 ^ 32
      | none => false)
    let c := s.configRecord
    { s with buddy := { s.buddy with queue := s.buddy.queue ++ [(step, ks, if c = s.buddy.config then [] else c)], config := c } }

/-- The last step that the package has applied: the step before the one that runs, or the committed step while it has no
job. -/
def State.applied (s : State) : Nat := if s.job.st = 0 then s.job.committed else s.job.step - 1

/-! DMA reads (R370, R371). -/

/-- A failed DMA read in the DMA_ERROR register: its cause, and a count that saturates. -/
def State.dmaError (s : State) (d : DmaRead) : State :=
  match d with
  | .failed cause => s.setPf0 0x40 (cause % 256 + Nat.min 0xFFFFFF (s.pf0Reg 0x40 / 256 + 1) * 256)
  | .data _ => s

/-- The bytes that a DMA read gave; none when it failed. -/
def dmaBytes (d : DmaRead) : Option (List Byte) :=
  match d with
  | .failed _ => none
  | .data b => some b

/-! Freshets and cuts (R248 to R258). -/

/-- The package's state machine of a Freshet stands in FRESHET_STATE. -/
def State.freshetState (s : State) : Nat := s.obj 0x8001 3

/-- FRESHET_STATE set; a change raises vector 4 (R373). -/
def State.setFreshet (s : State) (v : Nat) : State :=
  if s.freshetState = v then s else (s.setObj 0x8001 3 v).interrupt 4

/-- The target slot of a cut (R257). -/
def State.targetSlot (s : State) : Nat := if s.obj 0x8004 5 = 0 then 1 else 0

/-- CKPT_TENSOR_MAP's entry for a tensor: LOGICAL_ID, ROW0 and COL0 (R259). -/
def State.mapEntry (s : State) (die tensor : Nat) : Nat × Nat × Nat :=
  match (records 16 (s.blob 0x8003 0)).find? (fun b => wb b 0 0 12 = tensor && wb b 0 12 3 = die) with
  | some b => (wd b 1, wd b 2, wd b 3)
  | none => (0, 0, 0)

/-- A run of tiles of one kind of a tensor (R252): its kind, base, form and tiles. -/
structure TileRun where
  kind  : Nat
  base  : Nat
  form  : TileFmt
  tiles : Nat
deriving DecidableEq, Repr

/-- Dense FP32 tiles. -/
def fp32Form : TileFmt := ⟨0, false, 0, 0⟩

/-- Dense INT8 tiles, as residuals are stored (R162). -/
def int8Form : TileFmt := ⟨8, false, 0, 0⟩

/-- Tiles of a dense square. -/
def squareTiles (n : Nat) : Nat := ((n + 63) / 64) * ((n + 63) / 64)

/-- The kinds of tiles that a tensor record's checkpoint holds, in order: the working tiles of a MASTERED tensor are left out
(R252). -/
def tileRuns (r : TensorRec) : List TileRun :=
  let n := trTiles r
  (if trKeep r = 0 then [⟨2, trBase r 6, fp32Form, n⟩] else [⟨1, trBase r 4, trForm r, n⟩])
    ++ (if trRule r = 0 then [] else [⟨3, trBase r 8 + 64, fp32Form, n⟩])
    ++ (if trRule r = 2 then [⟨4, trBase r 10, fp32Form, n⟩] else [])
    ++ (if trKeep r = 2 then [⟨5, trBase r 12, int8Form, n⟩] else [])
    ++ (if trRule r = 5 then
      [0, 1, 2, 3].flatMap (fun i => ((keptFactors r).filter (fun (x : Nat × Nat) => x.1 = i)).map (fun (x : Nat × Nat) =>
        TileRun.mk (6 + i) (factorBase r i) fp32Form (squareTiles x.2)))
      else [])

/-- The most bytes that a shard carries. -/
def shardBytes : Nat := 67108864

/-- Packed tiles cut into shards of at most 4,096 tiles and 64 MiB (R252): the first tile and the tiles of each. -/
def cutShards (first : Nat) (tiles : List (List Byte)) : List (Nat × List (List Byte)) :=
  let go := tiles.foldl (fun (acc : List (Nat × List (List Byte)) × Nat × List (List Byte) × Nat) (t : List Byte) =>
    if acc.2.2.1 ≠ [] ∧ (4096 ≤ acc.2.2.1.length ∨ shardBytes < acc.2.2.2 + t.length) then
      (acc.1 ++ [(acc.2.1, acc.2.2.1)], acc.2.1 + acc.2.2.1.length, [t], t.length)
    else (acc.1, acc.2.1, acc.2.2.1 ++ [t], acc.2.2.2 + t.length)) ([], first, [], 0)
  if go.2.2.1 = [] then go.1 else go.1 ++ [(go.2.1, go.2.2.1)]

/-- What the header of a shard says beside its index and payload. -/
structure ShardHead where
  kind    : Nat
  die     : Nat
  tensor  : Nat
  logical : Nat
  row0    : Nat
  col0    : Nat
  rows    : Nat
  cols    : Nat
  first   : Nat
  count   : Nat
  form    : TileFmt
  keep    : Nat
  rule    : Nat
  applied : Nat
deriving DecidableEq, Repr

/-- *Shard header* (R255). -/
def shardHeader (step layout position index : Nat) (h : ShardHead) (payload : List Byte) : List Byte :=
  wordsLE [0x4E395348, 1 + h.kind * 2 ^ 16, step % 2 ^ 32, step / 2 ^ 32 % 2 ^ 32, layout,
    position + h.die * 2 ^ 12 + h.tensor * 2 ^ 15, index, h.logical, h.row0, h.col0, h.rows, h.cols, h.first, h.count,
    h.form.format + h.form.size * 2 ^ 4 + h.form.dir * 2 ^ 6 + b01 h.form.scaled * 2 ^ 7 + h.keep * 2 ^ 8 + h.rule * 2 ^ 10,
    payload.length, h.applied, 0, 0, 0] ++ sha3 payload ++ List.replicate 16 0

/-- The shards of one tensor record: header fields, payload and what the payload was read from. -/
def State.tensorShards (s : State) (die : Nat) (r : TensorRec) : List (ShardHead × List Byte × List (Nat × Nat)) :=
  let id := s.mapEntry die (wb r 0 0 12)
  let head := rdBytes s.mem.cells (trBase r 8) 64
  let base : ShardHead := ⟨0, die, wb r 0 0 12, id.1, id.2.1, id.2.2, trRows r, trCols r, 0, 0, fp32Form, trKeep r, trRule r,
    if trRule r = 0 then 0 else wd head 0⟩
  let runs := (tileRuns r).flatMap (fun (u : TileRun) =>
    let tiles := (List.range u.tiles).map (fun i => packTile u.form (rdBytes s.mem.cells (u.base + i * u.form.stride) u.form.raw))
    (cutShards 0 tiles).map (fun (c : Nat × List (List Byte)) =>
      ({ base with kind := u.kind, first := c.1, count := c.2.length, form := u.form }, c.2.flatMap (fun (b : List Byte) => b),
        [(u.base + c.1 * u.form.stride, c.2.length * u.form.stride)])))
  runs ++ (if trRule r = 0 then [] else [({ base with kind := 10 }, head, [(trBase r 8, 64)])])

/-- A tensor record put in a list that rises by TENSOR. -/
def recIns (x : TensorRec) : List TensorRec → List TensorRec
  | [] => [x]
  | y :: l => if wb x 0 0 12 < wb y 0 0 12 then x :: y :: l else y :: recIns x l

/-- The shards of a cut (R252): the configuration record, then the state by die, TENSOR, kind and tile, each on a 4 KiB
boundary from 0x80_0000 (R256). -/
def State.cutAll (s : State) (step : Nat) : List Shard :=
  let config : ShardHead × List Byte × List (Nat × Nat) :=
    (⟨11, 0, 0, 0, 0, 0, 0, 0, 0, 0, fp32Form, 0, 0, 0⟩, s.configAtStep step, [])
  let then' : State := { s with mem := { s.mem with cells := s.memoryAtStep step } }
  let all := config :: s.dies.flatMap (fun d =>
    ((s.tensorTable d).foldl (fun (l : List TensorRec) (r : TensorRec) => recIns r l) []).flatMap (then'.tensorShards d))
  (all.zipIdx.foldl (fun (acc : List Shard × Nat) (x : (ShardHead × List Byte × List (Nat × Nat)) × Nat) =>
    (acc.1 ++ [⟨shardHeader step (s.obj 0x4035 1) s.position x.2 x.1.1 x.1.2.1, x.1.2.1, acc.2, x.1.2.2, [], [], []⟩],
      (acc.2 + 128 + x.1.2.1.length + 4095) / 4096 * 4096)) ([], 0x800000)).1

/-- The bytes of a shard. -/
def Shard.bytes (h : Shard) : List Byte := h.header ++ h.payload

/-- Whether a cut names a destination: 0 the host, 1 the buddy. -/
def Cut.goes (c : Cut) (dest : Nat) : Bool := dest < 2 && bitOf c.dests dest

/-- The destinations of a cut. -/
def Cut.destList (c : Cut) : List Nat := [0, 1].filter c.goes

/-- A shard is verified at every destination. -/
def Shard.done (h : Shard) (c : Cut) : Bool := c.destList.all (fun d => h.verified.contains d)

/-- CKPT_BYTES_LEFT: shard bytes not yet verified. -/
def State.countLeft (s : State) : State :=
  match s.ckpt.cut with
  | some c => s.setObj 0x8004 2 (c.shards.foldl (fun n h => if h.done c then n else n + h.bytes.length) 0)
  | none => s.setObj 0x8004 2 0

/-- Bytes written to an offset of a cut's slot at a destination. -/
def State.slotWrite (s : State) (c : Cut) (dest offset : Nat) (bytes : List Byte) : State :=
  if dest = 0 then s.emit (.hostWrite (c.hostAt + offset) bytes) else s.emitBkg s.holder 4 bytes

/-- The cut's snapshot-held pages freed, but those that a shard not yet done still needs (R254). -/
def State.freeSnaps (s : State) (open' : List (Nat × Nat)) : State :=
  s.mem.retained.foldl (fun (t : State) (e : Nat × Option Retained) => match e.2 with
    | some r =>
      if r.snap && !open'.any (fun x => x.1 < t.keyStop r.key && r.key / 2 < x.1 + x.2) then
        -- a page that is still the shadow of an uncommitted step stays for a rollback
        (if t.mem.pages.any (fun p => match p.2 with
            | some q => q.fresh && q.old = some e.1
            | none => false) then t.setKept e.1 (some { r with snap := false }) else t.freeKept e.1)
      else t
    | none => t) s

/-- The cut ends: its snapshot-held pages are freed and FRESHET_STATE is set. -/
def State.endCut (s : State) (state : Nat) : State :=
  (({ s with ckpt := { s.ckpt with cut := none } }.freeSnaps []).setFreshet state).setObj 0x8004 2 0

/-- A destination's slot is too small or full (CKPT_DEST_FULL, R253, R256): the cut reports failure. -/
def State.destFull (s : State) (dest : Nat) : State :=
  (s.record { code := 0x0703, cls := .degraded, d0 := dest }).failCut

/-- What is superseded already and belongs to a cut is snapshot-held from now on (R205, R249). -/
def State.holdSnaps (s : State) (step : Nat) : State :=
  { s with mem := { s.mem with retained := s.mem.retained.map (fun e => (e.1, e.2.map (fun (r : Retained) =>
      if (s.sourceAt r.key step).any (fun x => x.1 = e.1) then { r with snap := true } else r))) } }

/-- The package takes the cut of a step (R250): CKPT_STEP and FRESHET_STATE are set, the slot is invalidated at every
destination, and with the halt flag the cores stay in STEPEND. -/
def State.takeCut (s : State) (step : Nat) (halt : Bool) (slot : Nat) : State :=
  let seq := s.ckpt.seq + 1
  let c : Cut := ⟨step, slot, s.obj 0x8002 1, s.obj 0x8002 (2 + 2 * slot), s.obj 0x8002 (3 + 2 * slot), s.obj 0x4035 1, s.cutAll step,
    decide (step ≤ s.job.committed), [], false⟩
  let s1 : State := { s.holdSnaps step with ckpt := { s.ckpt with due := none, halt := halt || s.ckpt.halt, cut := some c, seq := seq } }
  let s2 := ((s1.setObj 0x8004 1 step).setFreshet 2).countLeft
  let s3 := c.destList.foldl (fun (t : State) (d : Nat) => t.slotWrite c d 0 (List.replicate 128 0)) s2
  let need := match c.shards.getLast? with
    | some h => h.offset + h.bytes.length
    | none => 0x800000
  let s4 := if c.goes 0 && c.hostSize < need || 65536 < c.shards.length then s3.destFull 0 else s3
  if s1.ckpt.halt ∧ s.job.st = 1 then { s4.haltCores with ckpt := { s4.ckpt with held := true } }.setJobState 2 else s4

/-- The cut that is due is taken once its step's boundary has passed: the package has applied it and no more (R250). While no job
runs, the committed step's cut is taken at once (R249). -/
def State.takeDue (s : State) : State :=
  match s.ckpt.due with
  | some d => if (d.1 = s.applied ∨ (s.job.st ≠ 1 ∧ d.1 = s.job.committed)) ∧ s.job.st ≠ 3 ∧ s.trib.layout = false ∧ !s.isSpare then s.takeCut d.1 d.2.1 d.2.2 else s
  | none => s

/-- CUT_AT (R395). -/
def cutAtValue (step : Nat) (halt : Bool) (slot : Nat) : List Byte :=
  wordsLE (stepWords step ++ [b01 halt + slot * 2 ^ 8])

/-- The root fixes the cut step (R249): the step whose verdict it has not written, or COMMITTED_STEP when no job runs or the
job is halted. During a rollback or a layout change it waits (*Failures during a cut or restore*). -/
def State.fixCut (s : State) (halt : Bool) : State :=
  if !s.isRoot then s
  else if s.job.st = 3 ∨ s.trib.layout then
    { s with ckpt := { s.ckpt with noticed := some (halt || s.ckpt.noticed.getD false) } }
  else
    let c := if s.job.st = 1 then (if s.job.step ≤ s.cas.decided then s.job.step + 1 else s.job.step) else s.job.committed
    { s with ckpt := { s.ckpt with noticed := none } }.down false 0x0F (cutAtValue c halt s.targetSlot)

/-- A Freshet whose notice waited goes on (R249). -/
def State.fixNoticed (s : State) : State :=
  match s.ckpt.noticed with
  | some h => s.fixCut h
  | none => s

/-- The root's CUT_AT written once more, for a halt flag that has risen since (R248). -/
def State.rewriteCut (s : State) : State :=
  match s.ckpt.due with
  | some d => s.down false 0x0F (cutAtValue d.1 d.2.1 d.2.2)
  | none => match s.ckpt.noticed with
    | some h => { s with ckpt := { s.ckpt with noticed := some (h || s.ckpt.halt) } }
    | none => s

/-- A Freshet reaches the package (R248): acknowledged, or joined to the one in progress. The root fixes the cut. -/
def State.freshetArrive (s : State) (halt : Bool) (source : Nat) : State :=
  if 1 ≤ s.freshetState ∧ s.freshetState ≤ 3 then
    let s1 := s.addObj 0x8001 4 32 1
    let s2 := { s1 with ckpt := { s1.ckpt with
      halt := s1.ckpt.halt || halt,
      due := s1.ckpt.due.map (fun (d : Nat × Bool × Nat) => (d.1, d.2.1 || halt, d.2.2)) } }
    if s2.isRoot && halt then s2.rewriteCut else s2
  else
    let s1 := (s.record { code := 0x0701, cls := .note, d0 := source }).setFreshet 1
    ({ s1 with ckpt := { s1.ckpt with halt := halt }, cas := { s1.cas with aborts := 0 } }).fixCut halt

/-- FRESHET_NOTICE written to the master by a package at which a Freshet arrived by pin or command (R248). -/
def State.freshetNotice (s : State) (halt : Bool) : State :=
  if s.isRoot then s else s.command s.upward 0x4040 0x0E (wordsLE [s.position + b01 halt * 2 ^ 16])

/-! Manifests (R258). -/

/-- The non-spare positions of the job (*Manifest header*). -/
def State.jobPositions (s : State) : Nat :=
  if s.blob 0x4030 7 = [] then s.nonSpares.length else Config.jobPositions (s.blob 0x4030 7)

/-- *Manifest shard entry*. -/
def manifestEntry (h : Shard) : List Byte :=
  wordsLE [wd h.header 6, wb h.header 1 16 8 + wb h.header 5 12 3 * 2 ^ 8 + wb h.header 5 15 12 * 2 ^ 11, wd h.header 7, wd h.header 12,
    wd h.header 13, wd h.header 15, h.offset % 2 ^ 32, h.offset / 2 ^ 32] ++ (h.header.drop 80).take 32

/-- The signed manifest of a cut (R258). -/
def State.manifest (s : State) (c : Cut) : List Byte :=
  let body := wordsLE ([0x4E394D46, 1 + c.slot * 2 ^ 16] ++ stepWords c.step ++ [c.layout, s.position + s.jobPositions * 2 ^ 16,
      c.shards.length, s.ckpt.seq])
    ++ sha3 s.manifestKey ++ wordsLE [128 + 64 * c.shards.length, 2420] ++ List.replicate 56 0 ++ c.shards.flatMap manifestEntry
  body ++ padTo 2420 (Config.mldsaSign 1 (s.keyGen 1) body)

end Sys2Proof.Machine
end

