-- ==== Sys2Proof/Machine/Boot.lean ====
section
/-! DEFINITION. Images and the flash (R349 to R354), the measurement log and attestation (R356, R357), and the manifest signing
key (R358, R359). -/

namespace Sys2Proof.Machine

/-! Banks and images (R349, R350). -/

/-- A bank record whose MAGIC and CRC check (R349). -/
def bankOk (r : List Byte) : Bool := r.length = 64 && wd r 0 = 0x4E39424B && wd r 15 = crc32 (r.take 60)

/-- IMAGE_COUNT. -/
def bankCount (r : List Byte) : Nat := wb r 2 0 8

/-- The bytes that an image takes, by its header (R350). -/
def imageSize (b : List Byte) : Nat := 3860 + wd b 4

/-- Offsets of a bank's images from its base: 12 in the record, the others back to back on 4 KiB boundaries (R349). -/
def imageOffsets (r bank : List Byte) : List Nat :=
  (List.range (bankCount r)).foldl (fun (l : List Nat) (i : Nat) =>
    if i < 12 then l ++ [wd r (3 + i)]
    else match l.getLast? with
      | some o => l ++ [(o + imageSize (bank.drop o) + 4095) / 4096 * 4096]
      | none => l) []

/-- The images of a bank. -/
def bankImages (r bank : List Byte) : List (List Byte) :=
  (imageOffsets r bank).map (fun o => (bank.drop o).take (imageSize (bank.drop o)))

/-- The bytes that a bank's images reach to. -/
def bankEnd (r bank : List Byte) : Nat :=
  (imageOffsets r bank).foldl (fun (n : Nat) (o : Nat) => Nat.max n (o + imageSize (bank.drop o))) 0

/-- IMAGE_TYPE. -/
def imgType (b : List Byte) : Nat := wb b 1 16 8

/-- PART_CODE of the part. -/
def State.partCode (s : State) : Nat := s.obj 0x1000 2

/-- Every check of R351. -/
def State.imageOk (s : State) (b : List Byte) : Bool :=
  let key := (b.drop 128).take 1312
  let id := (b.drop 56).take 32
  let body := b.drop 3860
  wd b 0 = 0x4E39494D && wb b 1 0 16 = 1 && 1 ≤ imgType b && imgType b ≤ 6 && wb b 5 16 16 = 0
    && ((b.drop 88).take 40).all (fun x => x = 0)
    && Config.romDigests.contains id && sha3 key = id
    && Config.mldsaVerify key (b.take 128) ((b.drop 1440).take 2420)
    && body.length = wd b 4 && wd b 4 ≤ 6291456 && sha3 body = (b.drop 24).take 32
    && (wb b 5 0 16 = 0 || wb b 5 0 16 = s.partCode) && s.obj 0x1012 (imgType b) ≤ wd b 3

/-! The measurement log (R356). -/

/-- An image's entry. -/
def imageEntry (bank : Nat) (b : List Byte) : List Byte :=
  wordsLE [imgType b, wd b 2, wd b 3, bank] ++ sha3 (b.take 3860) ++ List.replicate 16 0

/-- An entry appended to the measurement log. -/
def State.measure (s : State) (e : List Byte) : State := s.setBlob 0x1011 0 (s.blob 0x1011 0 ++ e)

/-- The closing entry. -/
def State.closingEntry (s : State) : List Byte :=
  wordsLE [0xFF, s.obField 16 0 8, s.alarmLevel, s.sec.count % 2 ^ 32] ++ sha3 s.ob ++ List.replicate 16 0

/-! The boot sequence (R351 to R353). -/

/-- What the boot ROM makes of a bank: the images of types 2, 1, 4, 5 and 6 that it accepts, in that order, or the type that
fails. -/
def State.checkBank (s : State) (bank : Nat) : Except Nat (List (List Byte)) :=
  let r := mget [] s.sec.records bank
  let l := bankImages r (mget [] s.sec.banks bank)
  [2, 1, 4, 5, 6].foldl (fun (acc : Except Nat (List (List Byte))) (t : Nat) => match acc with
    | .error e => .error e
    | .ok got =>
      let mine := l.filter (fun b => imgType b = t)
      if mine ≠ [] && mine.all s.imageOk then .ok (got ++ mine) else .error t) (.ok [])

/-- The valid banks in the order in which they are tried (*Boot sequence*). -/
def State.bankOrder (s : State) : List Nat :=
  let ok := fun (n : Nat) => bankOk (mget [] s.sec.records n)
  let seq := fun (n : Nat) => wd (mget [] s.sec.records n) 1
  (if seq 0 < seq 1 then [1, 0] else [0, 1]).filter ok

/-- The bank that boots with its accepted images, and what was rejected before: bank and type. -/
def State.tryBanks (s : State) : List Nat → Option (Nat × List (List Byte)) × List (Nat × Nat)
  | [] => (none, [])
  | n :: rest => match s.checkBank n with
    | .ok l => (some (n, l), [])
    | .error t =>
      let r := s.tryBanks rest
      (r.1, (n, t) :: r.2)

/-- The minimum security versions raised to those of the accepted images (R352). -/
def State.raiseMinimums (s : State) (l : List (List Byte)) : State :=
  l.foldl (fun (t : State) (b : List Byte) => t.peakObj 0x1012 (imgType b) (wd b 3)) s

/-- BOOT_BANK: 0xFF in recovery. -/
def State.bootBank (s : State) : Nat := s.obj 0x1012 0x10

/-- The boot bank's image of a compute die's microcode, if it passes (*Boot sequence* step 6). -/
def State.microcode (s : State) : Option (List Byte) :=
  ((bankImages (mget [] s.sec.records s.bootBank) (mget [] s.sec.banks s.bootBank)).find? (fun b => imgType b = 3)).bind
    (fun b => if s.imageOk b then some b else none)

/-! Updates of the flash (R353, R354, R370, R371). -/

/-- A bank image in the load window, a bank record followed by its images: the status of its checks. -/
def State.windowStatus (s : State) (bs : List Byte) : Nat :=
  let r := bs.take 64
  let body := bs.drop 64
  if bs.length < 64 then 4
  else if !bankOk r || bankCount r = 0 || 16 < bankCount r then 7
  else if body.length < bankEnd r body then 4
  else if 7340032 < bankEnd r body || !(bankImages r body).all s.imageOk then 7
  else 0

/-- A bank image written to a bank, its record last, with its SET_SEQ. -/
def State.writeBank (s : State) (bank seq : Nat) (bs : List Byte) : State :=
  let r := leBytes 4 (wd bs 0) ++ leBytes 4 (seq % 2 ^ 32) ++ (bs.drop 8).take 52
  let body := bs.drop 64
  { s with sec := { s.sec with
    banks := mset [] s.sec.banks bank (body.take (bankEnd (bs.take 64) body)),
    records := mset [] s.sec.records bank (r ++ leBytes 4 (crc32 r)) } }

/-- IMAGE_UPDATE's action (R354). `window` is what the DMA read of the load window gave from the bank image's first byte on. -/
def imageUpdateAct (window : DmaRead) (s : State) (_ : NapReq) (v : List Byte) : Reply :=
  if s.job.st ≠ 0 then .no s stBusy 0
  else
    let s1 := (s.dmaError window).interrupt 5
    match dmaBytes window with
    | none => .no s1 stInvalid 0
    | some all =>
      let bs := all.take (s.pf0Reg 0x10 - leNat v)
      let st := s.windowStatus bs
      if st ≠ 0 then .no s1 st 0
      else
        let now := if s.bootBank = 1 then 1 else 0
        .ok (s1.writeBank (1 - now) (wd (mget [] s.sec.records now) 1 + 1) bs)

/-- IMAGE_UPDATE (R354). -/
def execImageUpdate (r : NapReq) (window : DmaRead) (s : State) : Res :=
  s.serveCommand 0x9003 2 r (commandReply r blobLimit byOwner (imageUpdateAct window))

/-! Attestation and the manifest key (R357 to R359). -/

/-- The quote over a nonce (R357). -/
def State.quote (s : State) (nonce : List Byte) : List Byte :=
  let log := s.blob 0x1011 0
  let body := nonce ++ leBytes 8 s.eventSeq ++ sha3 log ++ log
  body ++ padTo 2420 (Config.mldsaSign 0 (s.keyGen 0) body)

/-- ATTEST_NONCE (R357): any session. -/
def execAttestNonce (r : NapReq) (s : State) : Res :=
  s.serveCommand 0x9021 1 r (commandReply r blobLimit byAny (fun t _ v =>
    if v.length ≠ 32 then .no t stRange 0
    else if !t.hasKey 0 then .no t stInvalid 0
    else .ok (t.setBlob 0x9021 2 (t.quote v))))

/-- A new manifest signing key in slot 1. -/
def State.newManifestKey (s : State) : State := { s with sec := s.sec.create 1 }

/-- The event of a new manifest signing key. -/
def State.manifestKeyNew (s : State) : State := s.record { code := 0x0A06, cls := .note, die := 8, d0 := s.keyGen 1 }

/-- The manifest-key certificate (R359): public key, generation and SERIAL, signed by the identity key. -/
def State.manifestCert (s : State) : List Byte :=
  if s.hasKey 1 ∧ s.hasKey 0 then
    let body := s.manifestKey ++ leBytes 4 (s.keyGen 1) ++ Config.serial
    body ++ padTo 2420 (Config.mldsaSign 0 (s.keyGen 0) body)
  else []

/-- MANIFEST_KEY_ROTATE (R359). -/
def execManifestKeyRotate (r : NapReq) (s : State) : Res :=
  s.serveCommand 0x9003 1 r (commandReply r blobLimit byOwner (writeOne (fun t =>
    if t.job.st ≠ 0 ∨ t.ckpt.cut.isSome then .no t stBusy 0 else .ok t.newManifestKey.manifestKeyNew)))

end Sys2Proof.Machine
end

