-- ==== Sys2Proof/Machine/Holder.lean ====
section
/-! DEFINITION. The holder of buddy copies (R244, R247, R376): page records, the copies held for other positions, and the images that
they become. -/

namespace Sys2Proof.Machine

/-! Page records (R376). -/

/-- The bytes that a page record carries: the configuration record in the one that ends an image. -/
def pageBody (p : PageRecord) : List Byte := if p.lastPage then p.config else p.bytes

/-- KIND of a page record. -/
def pageKind (p : PageRecord) : Nat := if p.lastPage then 2 else b01 p.tilePage

/-- A page record whose CRC holds (R40, R244). -/
def pageGood (p : PageRecord) : Bool :=
  let h := leBytes 8 p.step ++ leBytes 8 p.address ++ leBytes 1 (pageKind p) ++ [0] ++ leBytes 2 p.tileCount ++ leBytes 4 (pageBody p).length
    ++ leBytes 4 0
  crc32 (h ++ (pageBody p)) = p.crc.toNat

/-- A page in a record's order: by rising address. -/
def pageIns (x : BuddyPage) : List BuddyPage → List BuddyPage
  | [] => [x]
  | y :: l =>
    if x.address = y.address && x.tile = y.tile then x :: l
    else if x.address < y.address then x :: y :: l
    else y :: pageIns x l

/-- The sectors of a run of bytes. -/
def sectorsOf (n : Nat) : Nat := Nat.max 1 ((n + 4095) / 4096)

/-! The holder (R244). -/

/-- The copy held for a position. -/
def State.copyOf (s : State) (source : Nat) : Copy :=
  (s.buddy.copies.find? (fun (c : Copy) => c.source = source)).getD ⟨source, [], none, false, [], none⟩

/-- The copy held for a position, replaced. -/
def State.setCopy (s : State) (c : Copy) : State :=
  { s with buddy := { s.buddy with copies := (s.buddy.copies.filter (fun (x : Copy) => x.source ≠ c.source)) ++ [c] } }

/-- The pages of the step that arrives. -/
def Copy.comingAt (c : Copy) (step : Nat) : List BuddyPage := match c.coming with
  | some (n, l) => if n = step then l else []
  | none => []

/-- The arrived pages become the image of a step, over those that it did not change; the configuration record is the one that
came, or the one before. -/
def Copy.finish (c : Copy) (step : Nat) (config : List Byte) : Copy :=
  let before : List BuddyPage × List Byte := match c.images with
    | i :: _ => i.2
    | [] => ([], [])
  let pages := (c.comingAt step).foldl (fun (l : List BuddyPage) (p : BuddyPage) => pageIns p l) before.1
  let image := (step, pages, if config = [] then before.2 else config)
  { c with
    images := image :: c.images.filter (fun (i : Nat × List BuddyPage × List Byte) => i.1 ≠ step),
    coming := none,
    broken := false,
    asked := [],
    ending := none }

/-- The address and KIND by which a record is asked for again. -/
def pageAsk (p : PageRecord) : Nat × Nat := (p.address, pageKind p)

/-- Images that STEP_COMMIT(s) frees: those older than the newest image of s or before (R244). -/
def Copy.settle (c : Copy) (step : Nat) : Copy :=
  let new := c.images.filter (fun (i : Nat × List BuddyPage × List Byte) => step < i.1)
  let old := c.images.filter (fun (i : Nat × List BuddyPage × List Byte) => !(step < i.1))
  { c with images := new ++ old.take 1 }

/-- A record whose CRC fails is asked for again (R244). -/
def State.askPage (s : State) (source : Nat) (c : Copy) (page : PageRecord) : State :=
  (s.setCopy { c with asked := c.asked.filter (fun x => x ≠ pageAsk page) ++ [pageAsk page] }).emit
    (.resend source page.step page.address (pageKind page))

/-- Image `step` complete (R244): BUDDY_ACK is written. -/
def State.endImage (s : State) (source step : Nat) (c : Copy) (config : List Byte) : State :=
  let c1 := c.finish step config
  let s1 := s.setCopy (if step ≤ s.job.committed then c1.settle s.job.committed else c1)
  s1.command source 0x4040 0x13 (leBytes 8 step)

/-- A good record taken by the holder; none while no Backwater frame is free for its page. The record that ends the image of a step
completes it once every record asked for again has come. After a lost line (R320) only a full drain, which carries the
configuration record, makes an image again. -/
def State.takePage (s : State) (source : Nat) (page : PageRecord) : Option State :=
  let c := s.copyOf source
  let asked := c.asked.filter (fun x => x ≠ pageAsk page)
  if page.lastPage ∧ c.broken ∧ page.config = [] then some (s.setCopy { c with coming := none, asked := [], ending := none })
  else if page.lastPage then
    some (if asked = [] then s.endImage source page.step c page.config
      else s.setCopy { c with asked := asked, ending := some page.config })
  else match s.allocIn tierBw (sectorsOf page.bytes.length) 0 with
    | none => none
    | some (f, s1) =>
      let c1 := { c with
        asked := asked,
        coming := some (page.step, pageIns ⟨page.address, page.tilePage, page.tileCount, page.bytes, f⟩ (c.comingAt page.step)) }
      some (match asked, c.ending with
        | [], some config => s1.endImage source page.step c1 config
        | _, _ => s1.setCopy c1)

/-- A record arrives behind those that wait for a frame; the first that must wait raises BUDDY_FULL (R244). -/
def State.holdPage (s : State) (source : Nat) (page : PageRecord) : State :=
  let s1 := { s with buddy := { s.buddy with held := s.buddy.held ++ [(source, page)] } }
  if s.buddy.held.any (fun x => x.1 = source) then s1
  else s1.record { code := 0x0704, cls := .degraded, d0 := source }

/-- The records that wait, tried again in their order as far as frames go; those of a sender stay in order behind its first that
must wait. -/
def State.retryHeld (s : State) : State :=
  s.buddy.held.foldl (fun (t : State) (x : Nat × PageRecord) =>
    let keep := { t with buddy := { t.buddy with held := t.buddy.held ++ [x] } }
    if t.buddy.held.any (fun y => y.1 = x.1) then keep
    else (t.takePage x.1 x.2).getD keep) { s with buddy := { s.buddy with held := [] } }

/-- Nothing waits for a frame. -/
theorem State.retryHeld_none (s : State) (h : s.buddy.held = []) : s.retryHeld = s := by
  unfold State.retryHeld
  rw [h]
  cases s
  simp only [List.foldl_nil] at h ⊢
  rw [← h]

end Sys2Proof.Machine
end

