-- ==== Sys2Proof/Machine/Freshet.lean ====
section
/-! DEFINITION. The Freshet, the cut, its drain and its outcome (R248 to R258, R263, R395). -/

namespace Sys2Proof.Machine

/-! The Freshet (R248, R249). -/

/-- FRESHET_N_ASSERT (R248, R386): a low of 10 µs qualifies, once for each time that the pin was high for 10 µs before. -/
def execFreshetNAssert (lowNs : Nat) (s : State) : Res :=
  if s.serving ∧ s.power.freshetArmed ∧ 10000 ≤ lowNs then
    let halt := decide (s.obj 0x8001 2 = 1)
    .next (({ s with power := { s.power with freshetArmed := false } }.freshetNotice halt).freshetArrive halt 0)
  else .next s

/-- FRESHET_N_RELEASE (R386): 10 µs high arms the pin again. -/
def execFreshetNRelease (highNs : Nat) (s : State) : Res :=
  .next (if 10000 ≤ highNs then { s with power := { s.power with freshetArmed := true } } else s)

/-- FRESHET (R248): the owner's write; bit [0] is the halt flag. -/
def execFreshet (r : NapReq) (s : State) : Res :=
  s.serveCommand 0x8001 1 r (commandReply r blobLimit byOwner (fun t _ v =>
    let halt := bitOf (leNat v) 0
    .ok ((t.freshetNotice halt).freshetArrive halt 1)))

/-- FRESHET_NOTICE (R248, R249, R395): a master acknowledges and passes it on unchanged; the root fixes the cut. -/
def execFreshetNotice (r : NapReq) (s : State) : Res :=
  s.cascade 0x0E r fromBelow (atLeast 4) (fun t _ v =>
    let t1 := if t.isRoot then t else t.command t.upward 0x4040 0x0E v
    t1.freshetArrive (wb v 0 16 1 = 1) 2)

/-- A CUT_AT reaches the package (R248): with it the Freshet arrives, or it joins the one in progress, which is counted and whose
halt flag it is ORed into. The root's own CUT_AT brings nothing new. -/
def State.cutArrives (s : State) (halt own : Bool) : State :=
  if 1 ≤ s.freshetState ∧ s.freshetState ≤ 3 then
    let s1 := if own then s else s.addObj 0x8001 4 32 1
    { s1 with ckpt := { s1.ckpt with halt := s1.ckpt.halt || halt } }
  else
    let s1 := ({ s with cas := { s.cas with aborts := 0 } }.record { code := 0x0701, cls := .note, d0 := 2 }).setFreshet 1
    { s1 with ckpt := { s1.ckpt with halt := halt } }

/-- CUT_AT (R250): a master passes it on; the cut is taken at once where the boundary of c has passed, else at that
boundary. -/
def execCutAt (r : NapReq) (s : State) : Res :=
  s.cascade 0x0F r fromAbove (atLeast 12) (fun t p v =>
    let halt := wb v 2 0 1 = 1
    let t1 := if t.isMaster && !t.isRoot then t.down false 0x0F v else t
    let t2 := t1.cutArrives halt (p = t1.position)
    let t3 := { t2 with ckpt := { t2.ckpt with cutSlot := some (stepOf v, wb v 2 8 1) } }
    if t3.isSpare ∨ t3.ckpt.cut.isSome then t3
    else { t3 with ckpt := { t3.ckpt with due := some (stepOf v, t3.ckpt.halt, wb v 2 8 1) } }.takeDue)

/-- JOB_RESUME (R250, R263): the root writes RESTART(c + 1) for a job that a Freshet has halted. -/
def execJobResume (r : NapReq) (s : State) : Res :=
  s.serveCommand 0x8001 5 r (commandReply r blobLimit byOwner (fun t _ _ =>
    if !t.isRoot then .no t stRange 0
    else if t.job.st = 2 ∧ t.ckpt.held then
      .ok (t.down false 0x0D (wordsLE (stepWords (t.applied + 1) ++ [t.job.attempt % 16])))
    else .ok t))

/-- CKPT_ABORT (R253): the owner fails the open cut. -/
def execCkptAbort (r : NapReq) (s : State) : Res :=
  s.serveCommand 0x8001 6 r (commandReply r blobLimit byOwner (fun t _ _ => .ok t.failCut))

/-! Shards (R253, R254). -/

/-- A shard of the open cut replaced. -/
def State.setShard (s : State) (c : Cut) (i : Nat) (h : Shard) : State :=
  { s with ckpt := { s.ckpt with cut := some { c with shards := lset c.shards i h } } }

/-- SHARD_WRITE_COMPLETE (R254): a shard's last byte is written to a destination; its read-back starts. A shard with a lost line is
not delivered (R210). -/
def execShardWriteComplete (dest shard : Nat) (s : State) : Res :=
  match s.ckpt.cut with
  | none => .next s
  | some c => match c.shards[shard]? with
    | none => .next s
    | some h =>
      if c.done ∨ !c.goes dest ∨ h.written.contains dest ∨ h.verified.contains dest then .next s
      else
        let x := s.judgePieces c.step (h.extents.flatMap (fun (e : Nat × Nat) => s.access e.1 e.2))
        if x.1 then .next x.2
        else
        let s1 := (x.2.setShard c shard { h with written := sIns h.written dest }).slotWrite c dest h.offset h.bytes
        let s2 := if dest = 0 then s1.emit (.hostRead (c.hostAt + h.offset) h.bytes.length) else s1
        .next (if s2.freshetState = 2 then s2.setFreshet 3 else s2)

/-- A shard read back is the shard: its header bytes, and the hash of its payload (R254). -/
def Shard.matches (h : Shard) (b : List Byte) : Bool :=
  b.take 128 = h.header && sha3 (b.drop 128) = (h.header.drop 80).take 32 && b.length = h.bytes.length

/-- A holder has nothing to read back: it had no frame for what was written (R253, assumption 175). -/
def nothingKept (dest : Nat) (r : DmaRead) : Bool := dest = 1 && (dmaBytes r).isNone

/-- SHARD_READBACK_COMPLETE (R254): a shard is verified, or written again; the third failure fails the cut. Pages whose
shards are verified at every destination are freed. A holder without a frame fails its destination (R253). -/
def execShardReadbackComplete (dest shard : Nat) (readBack : DmaRead) (s : State) : Res :=
  match s.ckpt.cut with
  | none => .next s
  | some c => match c.shards[shard]? with
    | none => .next s
    | some h =>
      if c.done ∨ !h.written.contains dest then .next s
      else if nothingKept dest readBack then .next (s.destFull 1)
      else
        let t := if dest = 0 then s.dmaError readBack else s
        let h1 := { h with written := sDel h.written dest }
        let good := match dmaBytes readBack with
          | some b => h.matches b
          | none => false
        if good then
          let h2 := { h1 with verified := sIns h1.verified dest }
          let c2 := { c with shards := lset c.shards shard h2 }
          let left := c2.shards.flatMap (fun (x : Shard) => if x.done c2 then [] else x.extents)
          .next (({ t with ckpt := { t.ckpt with cut := some c2 } }.freeSnaps left).countLeft)
        else
          let n := mget 0 h.fails dest + 1
          let t1 := t.setShard c shard { h1 with fails := mset 0 h.fails dest n }
          if n < 3 then .next (t1.addObj 0x8004 3 32 1)
          else .next ((t1.record { code := 0x0702, cls := .degraded, d0 := shard }).failCut)

/-! Manifests and the outcome (R258). -/

/-- MANIFEST_WRITE (R258): once every shard is verified at the destination and the step is committed, the manifest is written
and read back; with the last destination's, CKPT_DONE is written. A read-back that differs fails the cut. -/
def execManifestWrite (dest : Nat) (readBack : DmaRead) (s : State) : Res :=
  match s.ckpt.cut with
  | none => .next s
  | some c =>
    if c.done ∨ !c.goes dest ∨ !c.sure ∨ c.manifests.contains dest ∨ !c.shards.all (fun h => h.verified.contains dest) then .next s
    else if !s.hasKey 1 then .next s.failCut
    else
      let m := s.manifest c
      let t := (s.slotWrite c dest 0 m).dmaError readBack
      if dmaBytes readBack ≠ some m then .next t.failCut
      else
        let c1 := { c with manifests := sIns c.manifests dest }
        let all := c1.destList.all (fun d => c1.manifests.contains d)
        let t1 := { t with ckpt := { t.ckpt with cut := some { c1 with done := all } } }
        .next (if all then t1.cutResult c.step 0 else t1)

/-- CKPT_COMMIT, CKPT_ABORT_JOB and RESTORE_COMMIT values (R395). -/
def stepFlagValue (step flag : Nat) : List Byte := wordsLE (stepWords step ++ [flag])

/-- CKPT_DONE (R258): a master passes it on unchanged; the root counts the results of every position, and writes CKPT_COMMIT
or, on the first failure, CKPT_ABORT_JOB. -/
def execCkptDone (r : NapReq) (s : State) : Res :=
  s.cascade 0x10 r fromBelow (atLeast 12) (fun t _ v =>
    if !t.isRoot then t.command t.upward 0x4040 0x10 v
    else if stepOf v ≠ t.obj 0x8004 1 ∨ t.ckpt.cut.isNone then t
    else if t.cas.ckptDone.any (fun (x : Nat × Nat) => x.2 ≠ 0) then t
    else if wb v 2 24 8 ≠ 0 then
      { t with cas := { t.cas with ckptDone := [(wb v 2 0 12, wb v 2 24 8)] } }.down false 0x12 (stepFlagValue (stepOf v) 0)
    else
      let l := (t.cas.ckptDone.filter (fun (x : Nat × Nat) => x.1 ≠ wb v 2 0 12)) ++ [(wb v 2 0 12, 0)]
      let t1 := { t with cas := { t.cas with ckptDone := l } }
      if t1.jobPositions ≤ l.length then
        { t1 with cas := { t1.cas with ckptDone := [] } }.down false 0x11
          (stepFlagValue (stepOf v) (t1.ckpt.cut.elim 0 (fun (c : Cut) => c.slot)))
      else t1)

/-- CKPT_COMMIT (R258): JOB_CKPT_STEP and JOB_CKPT_SLOT are kept, and the Freshet ends committed. -/
def execCkptCommit (r : NapReq) (s : State) : Res :=
  s.cascade 0x11 r fromAbove (atLeast 12) (fun t _ v =>
    let t1 := if t.isMaster && !t.isRoot then t.down false 0x11 v else t
    let t2 := (t1.setObj 0x8004 4 (stepOf v)).setObj 0x8004 5 (wb v 2 0 1)
    if t2.isSpare then t2.setFreshet 0 else t2.endCut 4)

/-- CKPT_ABORT_JOB (R258): the cut ends; the first abort of a Freshet has the cut taken again, the second ends it. -/
def execCkptAbortJob (r : NapReq) (s : State) : Res :=
  s.cascade 0x12 r fromAbove (atLeast 12) (fun t _ v =>
    let t1 := if t.isMaster && !t.isRoot then t.down false 0x12 v else t
    let n := t1.cas.aborts + 1
    let t2 := { (t1.endCut (if n < 2 then 1 else 5)) with cas := { t1.cas with aborts := n, ckptDone := [] } }
    if n < 2 then t2.fixCut t2.ckpt.halt else t2)

/-! The holder's side (R253, R256, R260). -/

/-- The position, slot and number under which a record of the BKG channel is kept: a manifest, an invalidation, or a shard.
-/
def keptNumber (shard : List Byte) : Nat := if wd shard 0 = 0x4E395348 then wd shard 6 + 1 else 0

/-- The slot of a writer's cut (R257): a manifest names it; a shard's step is that of a cut which this package's last CUT_AT, or
an open one, gave a slot; what names no step follows the newest of these. Both members' cuts have the same letter. -/
def State.slotFor (s : State) (shard : List Byte) : Nat :=
  let newest := (s.ckpt.cutSlot.map (fun (x : Nat × Nat) => x.2)).getD s.targetSlot
  if wd shard 0 = 0x4E394D46 then wb shard 1 16 1
  else if wd shard 0 = 0x4E395348 then
    match s.ckpt.cutSlot with
    | some x => if x.1 = fld shard 8 8 then x.2 else s.targetSlot
    | none => s.targetSlot
  else newest

/-- CKPT_SHARD_RECEIVE (R253): a shard, a manifest or an invalidation of a slot for another position. With no free frame the
destination fails with CKPT_DEST_FULL, and the writer learns of it. -/
def execCkptShardReceive (source : Nat) (shard : List Byte) (s : State) : Res :=
  let slot := s.slotFor shard
  let n := keptNumber shard
  let mine := fun (k : KeptShard) => k.position = source && k.slot = slot && (k.number = n || (n = 0 && wd shard 0 = 0))
  let s1 := { s with ckpt := { s.ckpt with kept := s.ckpt.kept.filter (fun (k : KeptShard) => !mine k) } }
  match s1.allocIn tierBw (sectorsOf shard.length) 0 with
  | none => .next ((s.record { code := 0x0703, cls := .degraded, d0 := 1 }).emit (.kept source false))
  | some (f, s2) => .next { s2 with ckpt := { s2.ckpt with kept := s2.ckpt.kept ++ [⟨source, slot, n, shard, f⟩] } }

/-- A kept shard put in order of its number. -/
def keptIns (x : KeptShard) : List KeptShard → List KeptShard
  | [] => [x]
  | y :: l => if x.number < y.number then x :: y :: l else y :: keptIns x l

/-- A slot as its shards and manifest lay it out (R256): the offset and bytes of each part. -/
def slotParts (l : List KeptShard) : List (Nat × List Byte) :=
  ((l.foldl (fun (a : List KeptShard) (k : KeptShard) => keptIns k a) []).foldl
    (fun (acc : List (Nat × List Byte) × Nat) (k : KeptShard) =>
      if k.number = 0 then (acc.1 ++ [(0, k.bytes)], acc.2)
      else (acc.1 ++ [(acc.2, k.bytes)], (acc.2 + k.bytes.length + 4095) / 4096 * 4096)) ([], 0x800000)).1

/-- CKPT_EXPORT (R260, R263): a slot that this package keeps is copied to the host. A slot that it does not keep, or one that
does not fit the size given, is OUT_OF_RANGE. -/
def execCkptExport (r : NapReq) (s : State) : Res :=
  s.serveCommand 0x8007 3 r (commandReply r blobLimit byOwner (fun t _ v =>
    let parts := slotParts (t.ckpt.kept.filter (fun (k : KeptShard) => k.position = fld v 0 2 && k.slot = fld v 2 1))
    if v.length ≠ 20 ∨ parts = [] ∨ parts.any (fun p => fld v 12 8 < p.1 + p.2.length) then .no t stRange 0
    else .ok (parts.foldl (fun (u : State) (p : Nat × List Byte) => u.emit (.hostWrite (fld v 4 8 + p.1) p.2)) t)))

end Sys2Proof.Machine
end

