-- ==== Sys2Proof/Machine/Validate.lean ====
section
/-! DEFINITION. What a staged value may hold, and the checks of VALIDATE on the would-be configuration (R290, R292, with
R38, R64, R164, R176, R185, R188, R202, R206, R217, R218, R226, R227, R230, R234, R259, R342, R360). -/

namespace Sys2Proof.Machine

/-! What a write may stage (R290). -/

/-- An FP32 word is finite. -/
def f32Fin (v : Nat) : Bool := finB v

/-- An FP32 word is finite and not negative. -/
def f32NonNeg (v : Nat) : Bool := finB v && ((f32 v).isZero || !(f32 v).sign)

/-- An FP32 word lies from 0 to below 1. -/
def f32Unit (v : Nat) : Bool := f32NonNeg v && fltB v one32

/-- An FP32 word is positive and normal. -/
def f32PosNormal (v : Nat) : Bool := finB v && !(f32 v).sign && decide (0x00800000 ≤ v % 2 ^ 31)

/-- A rule-set value lies in its own range (R185). -/
def ruleSetOk (sub v : Nat) : Bool :=
  if sub = 1 ∨ sub = 2 then f32Unit v
  else if sub = 3 ∨ sub = 0x0F then f32PosNormal v
  else if sub = 4 then f32NonNeg v
  else if sub = 5 then f32Fin v
  else if sub = 6 ∨ sub = 0x0C then v ≤ 1
  else if sub = 7 then 1 ≤ v && v ≤ 15
  else if 8 ≤ sub ∧ sub ≤ 0x0B then !(f32 v).isNan
  else if sub = 0x0D then 1 ≤ v
  else if sub = 0x0E then 1 ≤ v && v ≤ 31
  else if sub = 0x10 then 1 ≤ v && v ≤ 16
  else f32NonNeg (v / 2 ^ 32)

/-- A scalar value lies in the range of its object. -/
def scalarOk (i sub v : Nat) : Bool :=
  if i = 0x4001 then
    (if sub = 1 ∨ sub = 4 then v ≤ 1 else if sub = 5 then 1 ≤ v && v ≤ 4096 else 1 ≤ v && v ≤ 4095)
  else if i = 0x4102 then (if sub = 1 then v % 64 = 0 else 1024 ≤ v && v ≤ 8192)
  else if i = 0x4104 then v % 65536 = 0
  else if 0x5100 ≤ i ∧ i ≤ 0x513F then ruleSetOk sub v
  else if i = 0x6013 then (if sub = 1 then v ≤ 512 else if sub = 2 then 1 ≤ v && v ≤ 25 else true)
  else if i = 0x4030 then
    (if sub = 2 then v ≤ 63
     else if sub = 5 ∨ sub = 0x0A then v ≤ 4095 || v = 0xFFFF
     else if sub = 9 then v ≤ 1
     else if sub = 0x0B then true
     else v ≤ 4095)
  else if i = 0x8001 then v ≤ 1
  else if i = 0x8002 then
    (if sub = 1 then 1 ≤ v && v ≤ 3 else if sub = 6 then 1 ≤ v && v ≤ 256 else if sub = 7 then 1 ≤ v && v ≤ 50 else true)
  else if i = 0x8006 then (if sub = 1 then v ≤ 1 else 1 ≤ v && v ≤ 50)
  else if i = 0x8014 then 64 ≤ v && v ≤ 1000000
  else if i = 0xA001 then v ≤ 2
  else true

/-- The most bytes of a BLOB object and the bytes of its records; records of 0 bytes stand for REPLICA_GROUPS. -/
def blobShape (i sub : Nat) : Nat × Nat :=
  if i = 0x4001 then (4096, 1)
  else if i = 0x4100 then (64 * 4096, 64)
  else if i = 0x6010 then (4194304, 16)
  else if i = 0x6011 then (16 * 1024, 16)
  else if i = 0x6012 then (16 * 4096, 16)
  else if i = 0x4030 then (if sub = 6 then 4194304 else if sub = 7 then 2 * 63 else 2 * 64, 2)
  else if i = 0x4031 then (256 * 8196, 0)
  else if i = 0x4032 then (32 * 512, 32)
  else if i = 0x4033 then (32 * 4096, 32)
  else if i = 0x7021 then (4096, 4096)
  else if i = 0x8003 then (4194304, 16)
  else if i = 0x9010 ∨ (0x9040 ≤ i ∧ i ≤ 0x904F) then (1344, 1344)
  else (4194304, 1)

/-- A table of replica groups is a whole number of records, at most 256. `fuel` bounds the records. -/
def groupsWhole : Nat → Nat → List Byte → Bool
  | 0, _, bs => bs.isEmpty
  | fuel + 1, n, bs =>
    if bs.isEmpty then true
    else
      let size := 4 + (2 * wb bs 0 16 13 + 3) / 4 * 4
      decide (n < 256) && decide (4 ≤ bs.length) && decide (size ≤ bs.length) && groupsWhole fuel (n + 1) (bs.drop size)

/-- A completed BLOB value has a length within its limit and a whole number of records (R290). -/
def blobOk (i sub : Nat) (v : List Byte) : Bool :=
  let x := blobShape i sub
  decide (v.length ≤ x.1) && (if x.2 = 0 then groupsWhole v.length 0 v else decide (v.length % x.2 = 0))

/-! Failures. -/

/-- What VALIDATE reports of its first failure (R292). -/
structure Fail where
  status : Nat
  index  : Nat
  sub    : Nat
  record : Nat
deriving DecidableEq, Repr

/-- A check's failure, unless it holds. -/
def need (ok : Bool) (status index sub record : Nat) : Option Fail := if ok then none else some ⟨status, index, sub, record⟩

/-- The first failure of some checks, in order. -/
def firstOf (l : List (Option Fail)) : Option Fail := l.findSome? (fun x => x)

/-- The records of a table with their numbers and the records before each. -/
def withPrior {α : Type} (l : List α) : List (α × Nat × List α) := (l.zipIdx).map (fun (x : α × Nat) => (x.1, x.2, l.take x.2))

/-- Two extents meet. -/
def meets (a b : Nat × Nat) : Bool := decide (a.1 < b.1 + b.2) && decide (b.1 < a.1 + a.2)

/-- Some two extents of a list meet. -/
def selfMeets : List (Nat × Nat) → Bool
  | [] => false
  | x :: l => l.any (meets x) || selfMeets l

/-! Order 1: each staged object alone. -/

/-- A trusted entry's public key hashes to its key ID (R360); an empty entry is none. -/
def trustedOk (b : List Byte) : Bool := b.isEmpty || sha3 (b.drop 32) = b.take 32

/-- The first byte of a BLOB, if any, that fails a test. -/
def badByte (p : Nat → Bool) (b : List Byte) : Option Nat := b.findIdx? (fun x => !p x.toNat)

/-- One staged object against its own table and rule. `w` is the would-be configuration. -/
def State.checkAlone (w : State) (k : Nat) (v : StVal) : Option Fail :=
  let i := k / 256
  let sub := k % 256
  match v with
  | .scalar x =>
    if i = 0x7020 then need (!(bitOf x 15 && !bitOf (w.obField 3 0 6) sub)) stInvalid i sub 0
    else if i = 0x7009 then none
    else need (scalarOk i sub x) stRange i sub 0
  | .blob b =>
    if i = 0x4001 then (badByte (fun x => x < 64) b).map (fun (n : Nat) => Fail.mk stInvalid i sub n)
    else if i = 0x7021 then
      (badByte (fun x => x = 0xFF || x < w.part.ports) b).map (fun (n : Nat) =>
        Fail.mk (if (b.getD n 0).toNat < 6 then stAbsent else stInvalid) i sub n)
    else if i = 0x9010 ∨ (0x9040 ≤ i ∧ i ≤ 0x904F) then need (trustedOk b) stInvalid i sub 0
    else none

/-! Order 2: the schedule against the stage count (R38, R64). -/

/-- Stashed mode needs P ≤ 7 × U, and no loaded stage entry lies at or beyond the stage count. -/
def State.checkSchedule (w : State) : Option Fail :=
  firstOf [need (!(w.obj 0x4001 1 = 1 && decide (7 * w.obj 0x4001 3 < w.obj 0x4001 5))) stInvalid 0x4001 1 0,
    need (w.stages.all (fun e => match e.2 with
      | some x => decide (x.stage < w.obj 0x4001 5)
      | none => true)) stInvalid 0x4001 5 0]

/-! Order 3: tensor tables, rule sets, sequencer windows and scratch (R164, R176, R185). -/

/-- One tensor record against R164; `prior` are the records before it, and `others` the regions of the dies before. A matrix rule
on a part without the matrix sequencer names an absent unit, whatever else the record holds (R4). -/
def State.checkTensor (w : State) (die : Nat) (r : TensorRec) (n : Nat) (prior : List TensorRec) (others : List (Nat × Nat)) : Option Fail :=
  let keep := trKeep r
  let rule := trRule r
  let f := (trForm r).format
  let own := trRegions r
  let matrix := decide (4 ≤ rule)
  let bad := keep = 3 || 6 ≤ rule || (rule = 0 && keep ≠ 1) || (rule ≠ 0 && (f = 8 || f = 9)) || (rule ≠ 0 && keep = 0 && f = 0)
    || !(trForm r).ok || trRows r = 0 || trCols r = 0 || prior.any (fun x => wb x 0 0 12 = wb r 0 0 12)
    || selfMeets own || (others ++ prior.flatMap trRegions).any (fun a => own.any (meets a))
    || (matrix && (decide (w.obj 0x4104 die < scratchBytes r) || trHome r / 16 ≠ die || !w.part.hasCore (trHome r)))
  firstOf [need (!(matrix && !w.part.matrixRules)) stAbsent 0x4100 die n,
    need (!bad) stInvalid 0x4100 die n,
    need (own.all (fun g => decide (g.1 + g.2 ≤ w.tieredLimit))) stRange 0x4100 die n]

/-- A die's tensor table. -/
def State.checkTable (w : State) (die : Nat) : Option Fail :=
  let others := (w.dies.filter (fun d => d < die)).flatMap (fun d => (w.tensorTable d).flatMap trRegions)
  (withPrior (w.tensorTable die)).findSome? (fun x => w.checkTensor die x.1 x.2.1 x.2.2 others)

/-- The points in use of a rule set have rising steps. -/
def risingSteps : List (Nat × Nat) → Bool
  | [] => true
  | [_] => true
  | a :: b :: l => decide (a.1 < b.1) && risingSteps (b :: l)

/-- The rule sets' schedules. -/
def State.checkRules (w : State) : Option Fail :=
  (List.range 64).findSome? (fun n => need (risingSteps (w.ratePoints n)) stInvalid (0x5100 + n) 0x10 0)

/-- Sluice regions on a core: base and length of each side that the core receives. -/
def State.sluices (w : State) (c : Nat) : List (Nat × Nat) :=
  w.streams.flatMap (fun (e : Nat × Option Stream) => match e.2 with
    | some v =>
      let r := v.record
      (if r.downCore = c ∧ r.downPkg = w.position then [(r.fwdBase, 256 * r.slotUnits * r.fwdSlots)] else [])
        ++ (if r.upCore = c ∧ r.upPkg = w.position then [(r.bwdBase, 256 * r.slotUnits * r.bwdSlots)] else [])
    | none => [])

/-- The home cores of the matrix-rule tensors. -/
def State.homeCores (w : State) : List Nat :=
  w.dies.flatMap (fun d => ((w.tensorTable d).filter (fun r => decide (4 ≤ trRule r))).map trHome)

/-- The sequencer window of every home core (R176). -/
def State.window (w : State) : Nat × Nat := (w.obj 0x4102 1, 1024 * w.obj 0x4102 2)

/-- The sequencer windows lie in core SRAM and meet no Sluice region of a home core. -/
def State.checkWindows (w : State) : Option Fail :=
  firstOf [need (decide (w.window.1 + w.window.2 ≤ sramSize)) stInvalid 0x4102 1 0,
    need (w.homeCores.all (fun c => (w.sluices c).all (fun g => !meets g w.window))) stInvalid 0x4102 1 0]

/-! Order 4: tile regions, hints and step plan (R188, R202, R203). -/

/-- One tile region; `prior` are those before it. -/
def State.checkRegion (w : State) (r : Region) (n : Nat) (prior : List Region) : Option Fail :=
  let ext := (r.base, r.tiles * r.form.stride)
  firstOf [need (decide (n < 1024) && r.base % 64 = 0 && decide (1 ≤ r.tiles) && r.form.ok
      && !prior.any (fun x => meets ext (x.base, x.tiles * x.form.stride))) stInvalid 0x6010 0 n,
    need (decide (r.stop ≤ w.tieredLimit)) stRange 0x6010 0 n]

/-- A committed region that is changed or removed has no mapped page (R188). -/
def State.checkGone (s w : State) (r : Region) (n : Nat) : Option Fail :=
  need (w.regions.contains r || s.mem.pages.all (fun e => e.2 = none || e.1 % 2 = 0 || !(r.base ≤ e.1 / 2 && e.1 / 2 < r.stop)))
    stInvalid 0x6010 0 n

/-- The region records by ascending number: a staged one alone and against those before it, and the committed one that has its
place. -/
def State.checkRegions (s w : State) : Option Fail :=
  let l := w.regions
  (List.range (Nat.max l.length s.regions.length)).findSome? (fun n =>
    firstOf [(l.drop n).head?.bind (fun r => w.checkRegion r n (l.take n)), (s.regions.drop n).head?.bind (fun r => s.checkGone w r n)])

/-- The extent of a HINTS record. -/
def hintExtent (b : List Byte) : Nat × Nat := (fld b 0 6, 65536 * wd b 2)

/-- Sectors of the pages with a byte in some extents, each page once. -/
def State.extentSectors (w : State) (l : List (Nat × Nat)) : Nat :=
  let keys := l.foldl (fun (l : List Nat) (g : Nat × Nat) => (w.access g.1 g.2).foldl (fun (l : List Nat) (p : Piece) => sIns l p.key) l) []
  keys.foldl (fun (n : Nat) (k : Nat) => n + w.keySectors k) 0

/-- Sectors pinned to a die by a table. -/
def State.pinnedOn (w : State) (l : List (List Byte)) (die : Nat) : Nat :=
  w.extentSectors ((l.filter (fun (b : List Byte) => wb b 3 2 2 = 2 && wb b 3 4 3 = die)).map hintExtent)

/-- One HINTS record. -/
def State.checkHint (w : State) (b : List Byte) (n : Nat) (prior : List (List Byte)) : Option Fail :=
  let die := wb b 3 4 3
  let room := 2 * stackSectors - w.floorSectors - w.obj 0x6013 1 * 2 ^ 18 / w.part.dies
  firstOf [need (!(wb b 3 2 2 = 2 && w.part.dies ≤ die)) stAbsent 0x6011 0 n,
    need (!prior.any (fun x => meets (hintExtent x) (hintExtent b)) && wb b 3 2 2 ≠ 3
      && (wb b 3 2 2 ≠ 2 || decide (w.pinnedOn (prior ++ [b]) die ≤ room))) stInvalid 0x6011 0 n,
    need (decide ((hintExtent b).1 + (hintExtent b).2 ≤ w.tieredLimit)) stRange 0x6011 0 n]

/-- One step-plan entry: its die is present (R4). -/
def State.checkPlan (w : State) (b : List Byte) (n : Nat) : Option Fail :=
  need (decide (wb b 3 21 3 < w.part.dies)) stAbsent 0x6012 0 n

/-- Tile regions, hints and the step plan. -/
def State.checkMemory (s w : State) : Option Fail :=
  firstOf [s.checkRegions w,
    (withPrior (records 16 (w.blob 0x6011 0))).findSome? (fun x => w.checkHint x.1 x.2.1 x.2.2),
    ((records 16 (w.blob 0x6012 0)).zipIdx).findSome? (fun (x : List Byte × Nat) => w.checkPlan x.1 x.2)]

/-! Order 5: replica groups, collectives, layout generation and permute plan (R217, R218, R226, R227). -/

/-- The would-be LINK_MAP reaches a position. -/
def State.mapsTo (w : State) (position : Nat) : Bool :=
  (List.range w.part.ports).any (fun p => bitOf (w.obj 0x7020 p) 15 && bits (w.obj 0x7020 p) 0 12 = position)

/-- One replica group: a number of its own, 1 to 4,096 members, and links to both neighbours of this package. -/
def State.checkGroup (w : State) (g : Nat × List Nat) (n : Nat) (prior : List (Nat × List Nat)) : Option Fail :=
  let size := g.2.length
  let near := match g.2.findIdx? (fun p => p = w.position) with
    | some k => if size ≤ 1 then true else w.mapsTo (g.2.getD ((k + 1) % size) 0) && w.mapsTo (g.2.getD ((k + size - 1) % size) 0)
    | none => true
  need (!prior.any (fun x => x.1 = g.1) && decide (1 ≤ size) && decide (size ≤ 4096) && near) stInvalid 0x4031 0 n

/-- The layout generation that the commit puts in force. -/
def State.layoutAhead (s w : State) : Nat := if w.obj 0x4034 1 = s.obj 0x4034 1 then s.obj 0x4035 1 else w.obj 0x4034 1

/-- One collective record. -/
def State.checkColl (s w : State) (r : CollRec) (n : Nat) (prior : List CollRec) : Option Fail :=
  let t := w.tensor r.die r.tensor
  firstOf [need (decide (r.index ≤ 511) && !prior.any (fun x => x.index = r.index) && decide (1 ≤ r.op) && decide (r.op ≤ 3)
      && (w.ring r).isSome && !(r.op = 3 && r.dest = 0)) stInvalid 0x4032 0 n,
    need (decide (r.die < w.part.dies)) stAbsent 0x4032 0 n,
    need ((match t with
      | some x => r.tiles = trTiles x
      | none => false) && r.layout = s.layoutAhead w) stInvalid 0x4032 0 n,
    need (r.dest = 0 || r.op = 3 || decide (r.base + 16384 * r.tiles ≤ w.tieredLimit)) stRange 0x4032 0 n]

/-- LAYOUT_GEN_NEXT, where it is staged, is LAYOUT_GEN + 1, as 32-bit counts wrap (R29, R226). -/
def State.checkLayout (s : State) : Option Fail :=
  match stGet s.weir.bank (objKey 0x4034 1) with
  | some (.scalar v) => need (v = (s.obj 0x4035 1 + 1) % 2 ^ 32) stInvalid 0x4034 1 0
  | _ => none

/-- The destination extent of a permute entry. -/
def Permute.dstExtent (e : Permute) : Nat × Nat := (e.onto, 65536 * e.units)

/-- The source extent of a permute entry. -/
def Permute.srcExtent (e : Permute) : Nat × Nat := (e.from', 65536 * e.units)

/-- An extent is plain, or whole tiles of one region: the region and the place of its first byte in a tile. None for neither. -/
def State.extentKind (w : State) (g : Nat × Nat) : Option (Option Region) :=
  let rs := w.regions.filter (fun r => meets g (r.base, r.tiles * r.form.stride))
  match rs with
  | [] => some none
  | [r] =>
    if r.base ≤ g.1 ∧ g.1 + g.2 ≤ r.stop ∧ (g.1 - r.base) % r.form.stride = 0 ∧ g.2 % r.form.stride = 0 then some (some r) else none
  | _ => none

/-- One permute entry. A range of this package is plain or whole tiles of one region, and within the capacity of R13; where both
ranges are of this package their kinds are the same. -/
def State.checkPermute (s w : State) (e : Permute) (n : Nat) (prior all : List Permute) : Option Fail :=
  let same := match s.extentKind e.srcExtent, w.extentKind e.dstExtent with
    | some none, some none => true
    | some (some a), some (some b) => decide (a.form = b.form)
    | _, _ => false
  let sends := decide (e.src = w.position)
  let takes := decide (e.dst = w.position)
  let kinds := if sends && takes then same
    else (!sends || (s.extentKind e.srcExtent).isSome) && (!takes || (w.extentKind e.dstExtent).isSome)
  let within := fun (g : Nat × Nat) => decide (g.1 + g.2 ≤ w.tieredLimit)
  firstOf [need (!prior.any (fun x => x.dst = e.dst && meets x.dstExtent e.dstExtent)
      && !all.any (fun x => x.src = e.dst && meets x.srcExtent e.dstExtent) && e.from' % 65536 = 0 && e.onto % 65536 = 0
      && kinds) stInvalid 0x4033 0 n,
    need ((!sends || within e.srcExtent) && (!takes || within e.dstExtent)) stRange 0x4033 0 n]

/-- Order 5 in the order of its objects. -/
def State.checkTrib (s w : State) : Option Fail :=
  let plan := (records 32 (w.blob 0x4033 0)).map permuteOf
  firstOf [(withPrior (groupsOf (w.blob 0x4031 0))).findSome? (fun x => w.checkGroup x.1 x.2.1 x.2.2),
    (withPrior (collRecs (w.blob 0x4032 0))).findSome? (fun x => s.checkColl w x.1 x.2.1 x.2.2), s.checkLayout,
    if (stGet s.weir.bank (objKey 0x4033 0)).isSome then
      (withPrior plan).findSome? (fun x => s.checkPermute w x.1 x.2.1 x.2.2 plan)
    else none]

/-! Order 6: job description, cascade structure and buddy reserve (R230, R234). -/

/-- The job description of a package that has one. -/
def State.checkJob (w : State) : Option Fail :=
  let members := positionsOf (w.blob 0x4030 6)
  if members = [] then none
  else
    let sp := w.spares
    let seat := fun (p : Nat) => members.contains p && !sp.contains p
    firstOf [need (seat (w.obj 0x4030 3)) stInvalid 0x4030 3 0, need (seat (w.obj 0x4030 4)) stInvalid 0x4030 4 0,
      need (decide (members.length ≤ 64)) stInvalid 0x4030 6 0,
      need (decide ((positionsOf (w.blob 0x4030 7)).length ≤ 63)) stInvalid 0x4030 7 0,
      -- the root has children, a child master has a parent and none of its own: two levels
      need (w.obj 0x4030 5 = 0xFFFF || (positionsOf (w.blob 0x4030 7)).contains (w.obj 0x4030 3)
        || w.obj 0x4030 3 ≠ w.obj 0x4030 1) stInvalid 0x4030 5 0,
      -- the paths of the master's commands, which pass other packages' tables
      need (w.obj 0x4030 3 ≠ w.position || members.all (fun (p : Nat) => p = w.position
        || decide (Config.ctrlHops (w.blob 0x7021 0) p ≤ 16))) stInvalid 0x7021 0 0,
      -- the holder of the buddy copy is another non-spare member
      need (w.obj 0x4030 0x0A = 0xFFFF || (w.obj 0x4030 0x0A ≠ w.position && seat (w.obj 0x4030 0x0A))) stConflict 0x4030 0x0A 0]

/-! Order 7: the checkpoint tensor map (R259). -/

/-- Every tensor record has one entry, with slices that meet on tile boundaries. An entry that names no tensor record gives no
slice; one of an absent die names an absent unit (R4). -/
def State.checkMap (w : State) : Option Fail :=
  let es := records 16 (w.blob 0x8003 0)
  let ends := fun (b : List Byte) => match w.tensor (wb b 0 12 3) (wb b 0 0 12) with
    | none => (0, 0)
    | some r => (wd b 2 + trRows r, wd b 3 + trCols r)
  let last := fun (b : List Byte) => es.foldl (fun (m : Nat × Nat) (x : List Byte) =>
    if wd x 1 = wd b 1 then (Nat.max m.1 (ends x).1, Nat.max m.2 (ends x).2) else m) (0, 0)
  firstOf [((withPrior es).findSome? (fun x =>
      let b := x.1
      let e := ends b
      let named := (w.tensor (wb b 0 12 3) (wb b 0 0 12)).isSome
      firstOf [need (decide (wb b 0 12 3 < w.part.dies)) stAbsent 0x8003 0 x.2.1,
        need (!(named && x.2.2.any (fun y => wb y 0 0 15 = wb b 0 0 15)) && wd b 2 % 64 = 0 && wd b 3 % 64 = 0
          && (e.1 % 64 = 0 || e.1 = (last b).1) && (e.2 % 64 = 0 || e.2 = (last b).2)) stInvalid 0x8003 0 x.2.1])),
    w.dies.findSome? (fun d => (w.tensorTable d).findSome? (fun r =>
      need (es.any (fun b => wb b 0 0 12 = wb r 0 0 12 && wb b 0 12 3 = d)) stInvalid 0x8003 0 es.length))]

/-! Order 8: capacity (R206). -/

/-- Sectors of every region that a tensor record names (F_state). -/
def State.stateSectors (w : State) : Nat :=
  let keys := (w.dies.flatMap (fun d => (w.tensorTable d).flatMap trRegions)).foldl (fun (l : List Nat) (g : Nat × Nat) =>
    (w.access g.1 g.2).foldl (fun (l : List Nat) (p : Piece) => sIns l p.key) l) []
  keys.foldl (fun (n : Nat) (k : Nat) => n + w.keySectors k) 0

/-- STATE_FRAMES_GIB: the frame bytes of every tensor region, in whole GiB. -/
def State.stateGib (w : State) : Nat := (w.stateSectors + 2 ^ 18 - 1) / 2 ^ 18

/-- Sectors of pinned ranges outside the tensor regions (F_pin). -/
def State.pinSectors (w : State) : Nat :=
  let inside := fun (k : Nat) => w.dies.any (fun d => (w.tensorTable d).any (fun r => (trRegions r).any (fun g =>
    decide (g.1 < w.keyStop k) && decide (k / 2 < g.1 + g.2))))
  let keys := (records 16 (w.blob 0x6011 0)).foldl (fun (l : List Nat) (b : List Byte) =>
    if wb b 3 2 2 = 0 then l
    else (w.access (hintExtent b).1 (hintExtent b).2).foldl (fun (l : List Nat) (p : Piece) => sIns l p.key) l) []
  (keys.filter (fun k => !inside k)).foldl (fun (n : Nat) (k : Nat) => n + w.keySectors k) 0

/-- 2 × F_state + F_pin + B_buddy + SNAPSHOT_RESERVE_GIB fits the stacks and the installed Backwater. -/
def State.checkCapacity (w : State) : Option Fail :=
  need (decide (2 * w.stateSectors + w.pinSectors + (w.obj 0x4030 0x0B + w.obj 0x6013 1) * 2 ^ 18
    ≤ w.part.stacks * stackSectors + w.bwSectors)) stInvalid 0x4100 0 0

/-! The would-be configuration and its checks (R292). -/

/-- The committed values with the staged values laid over them. -/
def State.would (s : State) : State := (s.laid s.next).laid s.weir.bank

/-- *Validation order*: the first failure of the staged bank. -/
def State.validate (s : State) : Option Fail :=
  let w := s.would
  firstOf [s.weir.bank.findSome? (fun (e : Nat × StVal) => w.checkAlone e.1 e.2), w.checkSchedule, w.dies.findSome? w.checkTable,
    w.checkRules, w.checkWindows, s.checkMemory w, s.checkTrib w, w.checkJob, w.checkMap, w.checkCapacity]

end Sys2Proof.Machine
end

