-- ==== Sys2Proof/Machine/Load.lean ====
section
/-! DEFINITION. Loading (R159 to R161, with R37, R38, R75, R87, R108, R128, R129, R157, R176, R226, R370, R371, R397): a load
set read from the load window, its checks, and the instant at which it takes effect. -/

namespace Sys2Proof.Machine

/-! A load set (R159). -/

/-- An item of a load set: the offset of its target record, whether it is a description, its core mask, and its bytes. -/
structure LoadItem where
  offset : Nat
  desc   : Bool
  mask   : Nat
  bytes  : List Byte
deriving DecidableEq, Repr

/-- The cores that an item's mask selects. -/
def LoadItem.cores (x : LoadItem) : List Nat := (List.range 128).filter (bitOf x.mask)

/-- The bytes of an image or description by its header. -/
def itemSize (desc : Bool) (b : List Byte) : Nat :=
  if desc then 64 + 16 * wb b 2 0 16 + 32 * wb b 2 16 16
  else 64 + wd b 3 + wd b 4 + 16 * wb b 5 0 9 + 8 * wb b 5 9 7 + 6208 * wb b 5 16 4

/-- An item's header: magic, format version and sizes. -/
def headerOk (desc : Bool) (b : List Byte) : Bool :=
  if desc then wd b 0 = 0x4E395044 && wb b 1 0 16 = 1
  else wd b 0 = 0x4E395350 && wb b 1 0 16 = 1 && wd b 3 % 4 = 0 && wd b 3 ≤ 262144 && wd b 4 ≤ 60672
    && wb b 5 0 9 ≤ 256 && wb b 5 9 7 ≤ 64 && wb b 5 16 4 ≤ 8

/-- The items of a load set from an offset on, and where they end in a failure of magic, version, size or digest: the status
and the item's offset. -/
def loadParse : Nat → Nat → List Byte → List LoadItem × Option (Nat × Nat)
  | 0, _, _ => ([], none)
  | n + 1, off, bs =>
    let desc := wb bs 4 0 1 = 1
    let b := bs.drop 32
    let size := itemSize desc b
    if bs.length < 96 then ([], some (stRange, off))
    else if !headerOk desc b then ([], some (stInvalid, off))
    else if b.length < size then ([], some (stRange, off))
    else if sha3 ((b.take size).drop 64) ≠ (b.drop 32).take 32 then ([], some (stInvalid, off))
    else
      let r := loadParse n (off + 32 + size) (b.drop size)
      (⟨off, desc, fld bs 0 16, b.take size⟩ :: r.1, r.2)

/-- A load set's items and its first failure of form. -/
def loadSetOf (bs : List Byte) : List LoadItem × Option (Nat × Nat) :=
  if bs.length < 16 then ([], some (stRange, 0))
  else loadParse (Nat.min (wd bs 0) (bs.length / 96 + 1)) 16 (bs.drop 16)

/-- A stage entry with its core (*Pipeline description header and stage entry*). -/
def stageEntryOf (b : List Byte) : Nat × StageEntry :=
  (wb b 0 13 7, ⟨wb b 0 0 13, wb b 1 0 13, wb b 1 13 8, wb b 1 21 3, wd b 2⟩)

/-- A stream record (R37). -/
def streamRecOf (b : List Byte) : StreamRec :=
  { index := wb b 0 0 12, upCore := wb b 0 16 7, downCore := wb b 0 24 7, upPkg := wb b 1 0 16, downPkg := wb b 1 16 16,
    upPort := wb b 2 0 3, downPort := wb b 2 3 3, isLocal := wb b 2 6 1 = 1, slotUnits := wb b 2 8 8, fwdSlots := wb b 3 0 10,
    bwdSlots := wb b 3 10 10, fwdBase := wb b 4 0 24, bwdBase := wb b 5 0 24, fwdTiles := wb b 6 0 16, bwdTiles := wb b 6 16 16 }

/-- The stage entries of a description. -/
def descStages (d : List Byte) : List (Nat × StageEntry) :=
  (records 16 ((d.drop 64).take (16 * wb d 2 0 16))).map stageEntryOf

/-- The stream records of a description. -/
def descStreams (d : List Byte) : List StreamRec :=
  (records 32 ((d.drop (64 + 16 * wb d 2 0 16)).take (32 * wb d 2 16 16))).map streamRecOf

/-! What a load set leaves in force. -/

/-- A core that holds a new image: its tables, its function-table slots and its version. -/
def State.layImage (s : State) (img : List Byte) (c : Nat) : State :=
  let k := s.core c
  let slots := (List.range (wb img 5 16 4)).foldl (fun (m : SMap (List Byte)) (i : Nat) =>
    mset [] m (wb img 7 (4 * i) 3) (imageTable img i)) k.slots
  (s.setCore c { k with image := img, tableCopy := imageTables img, slots := slots }).setObj 0x4011 c (wd img 2)

/-- A new description: its stage entries, and its streams with the current attempt as their generation (R36). -/
def State.layDesc (s : State) (d : List Byte) : State :=
  { s with
    desc := d,
    stages := (descStages d).foldl (fun (m : SMap (Option StageEntry)) (e : Nat × StageEntry) => mset none m e.1 (some e.2)) [],
    streams := (descStreams d).foldl (fun (m : SMap (Option Stream)) (r : StreamRec) =>
      mset none m r.index (some (Stream.fresh r s.job.mbBase))) [] }

/-- The configuration that a load set leaves in force. -/
def State.laySet (s : State) (l : List LoadItem) : State :=
  l.foldl (fun (t : State) (x : LoadItem) =>
    if x.desc then t.layDesc x.bytes else x.cores.foldl (fun (u : State) (c : Nat) => u.layImage x.bytes c) t) s

/-! Checks of content (R160). Each gives the status of its failure; `w` is the configuration left in force. -/

/-- The first status that is not 0. -/
def firstStatus (l : List Nat) : Nat := (l.find? (fun x => x ≠ 0)).getD 0

/-- A status, unless a condition holds. -/
def statusIf (ok : Bool) (status : Nat) : Nat := if ok then 0 else status

/-- A scale entry of an image (R68, R75, R87, R397). -/
def imageScaleStatus (e : List Byte) : Nat :=
  firstStatus [statusIf (elemFormat (wb e 3 0 4)) stRange, statusIf (streamExp (wd e 0)).isSome stRange,
    statusIf (!(wb e 3 11 1 = 1 && wb e 3 0 4 ≠ 0)) stInvalid, statusIf (!(wb e 3 16 1 = 1 && wb e 3 0 4 = 0)) stInvalid]

/-- A finite FP32 number that is not negative equals an integer. -/
def numIs (x : Num) (n : Nat) : Bool := match x with
  | .fin false m e => magLe m e n 0 && magLe n 0 m e
  | _ => false

/-- A table image that R129 accepts. -/
def tableImageOk (b : List Byte) : Bool :=
  let lo := wd b 1
  let hi := wd b 2
  let inv := wd b 3
  let words := (List.range 11).map (fun i => wd b (i + 1)) ++ (List.range 1536).map (fun i => wd b (16 + i))
  wb b 0 0 16 ≠ 0 && words.all finB && fltB lo hi && (streamExp inv).isSome
    && numIs (numMul (f32 inv) (numAdd (f32 hi) (numNeg (f32 lo)))) 256

/-- An adapter entry on a core: a rank in range, and the class of U_FORMAT that of the B tensor in the table of the core's
home die (R108). An entry that cannot be judged fails. -/
def State.adapterOk (w : State) (c : Nat) (e : List Byte) : Bool :=
  let rank := wb e 0 0 9
  rank ≤ 256 && rank % 16 = 0 && (rank = 0 || (match mget none w.stages c with
    | some st => match w.tensor st.homeDie (wb e 1 0 12) with
      | some r => operandClass (wb e 0 12 4) ≠ 0 && operandClass (wb e 0 12 4) = operandClass (trForm r).format
      | none => false
    | none => false))

/-- The adapter entries of an image, on a core. -/
def State.adaptersOk (w : State) (c : Nat) (img : List Byte) : Bool := (records 8 (imageAdapters img)).all (w.adapterOk c)

/-- An adapter entry by itself: a rank in range and, for an adapter that is there, a U_FORMAT that names an operand class (R108). -/
def adapterForm (e : List Byte) : Bool :=
  wb e 0 0 9 ≤ 256 && wb e 0 0 9 % 16 = 0 && (wb e 0 0 9 = 0 || operandClass (wb e 0 12 4) ≠ 0)

/-- A core holds the image that its stage entry names. -/
def State.versionOk (w : State) (c : Nat) (e : StageEntry) : Bool :=
  (w.core c).image ≠ [] && (w.core c).imageWord 2 = e.imageVer

/-- The rules of an image item's content. -/
def State.imageStatus (w : State) (x : LoadItem) : Nat :=
  firstStatus ((records 16 (imageScales x.bytes)).map imageScaleStatus
    ++ [statusIf ((records 8 (imageAdapters x.bytes)).all adapterForm && x.cores.all (fun c => w.adaptersOk c x.bytes)) stInvalid,
      statusIf ((List.range (wb x.bytes 5 16 4)).all (fun i => tableImageOk (imageTable x.bytes i))) stInvalid])

/-- A core holds what its stage entry, if it has one, names. -/
def State.stageHeld (w : State) (c : Nat) : Bool := match mget none w.stages c with
  | some e => w.versionOk c e
  | none => true

/-- LAYOUT_GEN_NEXT is staged. -/
def State.layoutStaged (s : State) : Bool := (stGet s.weir.bank (objKey 0x4034 1)).isSome

/-- A load set placed now takes effect with the layout change whose bank waits for its COMMIT: it lies between VALIDATE and
COMMIT, and the job does not let it take effect at once (R226, R160). -/
def State.withLayout (s : State) : Bool :=
  s.layoutStaged && (s.weir.st = .valid || s.weir.st = .armed) && s.job.st ≠ 0 && s.job.st ≠ 2

/-- The STAGE_COUNT in force, or the one that a commit of the same instant puts in force (R38): a PENDING bank of this step's
boundary, or the bank of the layout change with which the load set takes effect. -/
def State.stageCount (s : State) : Nat :=
  if s.weir.st = .pending ∧ s.weir.pendingStep = some s.job.step ∨ s.withLayout = true then
    match stGet s.weir.bank (objKey 0x4001 5) with
    | some (.scalar v) => v
    | _ => s.obj 0x4001 5
  else s.obj 0x4001 5

/-- A stage entry (R38, R159). -/
def State.stageStatus (s : State) (e : Nat × StageEntry) (prior : List (Nat × StageEntry)) : Nat :=
  firstStatus [statusIf (s.part.hasCore e.1 && e.2.homeDie < s.part.dies) stAbsent,
    statusIf (e.2.stage < s.stageCount && e.2.stage ≤ 4095 && e.2.limit ≤ 4096 && 1 ≤ e.2.blocks
      && !prior.any (fun x => x.1 = e.1)) stInvalid]

/-- The Sluice regions of a record on this package: core, base and length. -/
def State.recRegions (s : State) (r : StreamRec) : List (Nat × Nat × Nat) :=
  (if r.downPkg = s.position then [(r.downCore, r.fwdBase, 256 * r.slotUnits * r.fwdSlots)] else [])
    ++ (if r.upPkg = s.position then [(r.upCore, r.bwdBase, 256 * r.slotUnits * r.bwdSlots)] else [])

/-- Two regions lie on one core and meet. -/
def regionsMeet (a b : Nat × Nat × Nat) : Bool := a.1 = b.1 && meets a.2 b.2

/-- A stream record (R38, R157). What only the other package can know of its cores and ports is not judged here. -/
def State.streamStatus (s : State) (r : StreamRec) (prior : List StreamRec) : Nat :=
  let own := s.recRegions r
  let core := fun (here : Bool) (c : Nat) => if here then s.part.hasCore c else decide (c % 16 < 14)
  let port := fun (here : Bool) (p : Nat) => decide (p < if here then s.part.ports else 6)
  let up := decide (r.upPkg = s.position)
  let down := decide (r.downPkg = s.position)
  firstStatus [statusIf (core up r.upCore && core down r.downCore && r.upPkg ≤ 4095 && r.downPkg ≤ 4095
      && (r.isLocal || (port up r.upPort && port down r.downPort))) stAbsent,
    statusIf (1 ≤ r.slotUnits && 1 ≤ r.fwdSlots && r.fwdSlots ≤ 512 && 1 ≤ r.bwdSlots && r.bwdSlots ≤ 512
      && r.fwdBase % 256 = 0 && r.bwdBase % 256 = 0 && (!r.isLocal || r.upPkg = r.downPkg)
      && r.fwdTiles ≤ r.fwdSlots && r.bwdTiles ≤ r.bwdSlots && !prior.any (fun x => x.index = r.index)
      && own.all (fun g => g.2.1 + g.2.2 ≤ sramSize)
      && !(match own with
        | [a, b] => regionsMeet a b
        | _ => false)
      && !prior.any (fun x => (s.recRegions x).any (fun a => own.any (regionsMeet a)))) stInvalid]

/-- The rules of a description's content (R37, R38, R157, R176). -/
def State.descStatus (s w : State) (x : LoadItem) : Nat :=
  firstStatus ([statusIf (StVal.scalar (wb x.bytes 3 0 12) = s.committedAt (objKey 0x4030 1)) stInvalid]
    ++ (withPrior (descStages x.bytes)).map (fun e => s.stageStatus e.1 e.2.2)
    ++ (withPrior (descStreams x.bytes)).map (fun r => s.streamStatus r.1 r.2.2)
    ++ [statusIf w.checkWindows.isNone stInvalid])

/-- What a set may hold (R159, R160): one description at most, with an empty mask; cores of the part, each in one image mask at
most. `prior` are the items before. -/
def State.itemStatus (s : State) (prior : List LoadItem) (x : LoadItem) : Nat :=
  if x.desc then statusIf (x.mask = 0 && !prior.any (fun y => y.desc)) stInvalid
  else firstStatus [statusIf (x.cores.all s.part.hasCore) stAbsent,
    statusIf (!prior.any (fun y => x.cores.any (fun c => y.cores.contains c))) stInvalid]

/-- The first item of a set that fails a check: its status and its offset. -/
def firstItem (l : List LoadItem) (check : List LoadItem → LoadItem → Nat) : Option (Nat × Nat) :=
  (withPrior l).findSome? (fun x => if check x.2.2 x.1 = 0 then none else some (check x.2.2 x.1, x.1.offset))

/-- The first failure of a whole load set, in the order in which R160 names its checks: form, what the set holds, the rules of
each item, the adapters of cores that keep their image, and last the versions. A failure of what no item of the set brings is
reported at the description, and without one at offset 0 (assumption 165). -/
def State.loadFail (s : State) (bs : List Byte) : Option (Nat × Nat) :=
  let p := loadSetOf bs
  let w := s.laySet p.1
  let descAt := ((p.1.find? (fun x => x.desc)).map (fun x => x.offset)).getD 0
  let given := p.1.flatMap LoadItem.cores
  let held := (w.cores.map (fun (c : Nat × CoreState) => c.1)).filter (fun c => !given.contains c)
  let at' := fun (ok : Bool) => if ok then none else some (stInvalid, descAt)
  [p.2, firstItem p.1 s.itemStatus, firstItem p.1 (fun _ x => if x.desc then s.descStatus w x else w.imageStatus x),
    at' (held.all (fun c => w.adaptersOk c (w.core c).image)),
    at' (!p.1.any (fun x => x.desc) || (w.stages.map Prod.fst).all w.stageHeld),
    firstItem p.1 (fun _ x => statusIf (x.desc || x.cores.all w.stageHeld) stInvalid),
    at' (held.all w.stageHeld)].findSome? id

/-! The instant (R160, R161). -/

/-- A load set takes effect: every core that it gives an image, and with a description every core, is restarted; at a step
boundary of a running job it starts with the step about to run. -/
def State.applySet (s : State) (bs : List Byte) : State :=
  let l := (loadSetOf bs).1
  let s1 := s.laySet l
  let all := l.any (fun x => x.desc)
  let given := l.flatMap LoadItem.cores
  { s1 with cores := s1.cores.map (fun (c : Nat × CoreState) =>
      if all || given.contains c.1 then
        (c.1, if s1.job.st = 1 && s1.dieUp (c.1 / 16) then c.2.restart.start s1.job.step else c.2.restart)
      else c) }

/-- The waiting load set takes effect. -/
def State.applyLoad (s : State) : State :=
  if s.load = [] then s else { s with load := [], loadLayout := false }.applySet s.load

/-- A committed layout change has not run (R226, R228). -/
def State.layoutPending (s : State) : Bool := s.obj 0x4034 1 = (s.obj 0x4035 1 + 1) % 2 ^ 32

/-- The waiting load set takes effect at a step boundary: not where it belongs to a layout change that is to come. -/
def State.boundaryLoad (s : State) : State := if s.loadLayout && (s.layoutPending || s.layoutStaged) then s else s.applyLoad

/-- LOAD_STATUS set; a change raises vector 2 (R373). -/
def State.setLoadStatus (s : State) (v : Nat) : State :=
  if s.obj 0x4010 2 = v then s else (s.setObj 0x4010 2 v).interrupt 2

/-- LOAD_COMMAND's action. `window` is what the DMA read of the load window gave from the load set's first byte on. -/
def loadAct (window : DmaRead) (s : State) (_ : NapReq) (v : List Byte) : Reply :=
  if s.load ≠ [] then .no s stBusy 0
  else
    let room := s.pf0Reg 0x10 - leNat v
    let s1 := s.dmaError window
    match dmaBytes window with
    | none => .ok (s1.setLoadStatus stInvalid)
    | some all =>
      let bs := all.take room
      match s1.loadFail bs with
      | some e => .ok (s1.setLoadStatus (e.1 + e.2 % 2 ^ 24 * 2 ^ 8))
      | none =>
        let s2 := s1.setLoadStatus 0
        if s2.job.st = 0 ∨ s2.job.st = 2 then .ok (s2.applySet bs)
        else .ok { s2 with load := bs, loadLayout := s2.withLayout }

/-- LOAD_COMMAND (R160). -/
def execLoadCommand (r : NapReq) (window : DmaRead) (s : State) : Res :=
  s.serveCommand 0x4010 1 r (commandReply r blobLimit byOwner (loadAct window))

end Sys2Proof.Machine
end

