-- ==== Sys2Proof/Machine/Weir.lean ====
section
/-! DEFINITION. The Weir (R290 to R294, R298): staging, VALIDATE, COMMIT and DISCARD, the commit instant, what a commit brings
about, and the configuration shadow. -/

namespace Sys2Proof.Machine

/-! Staging (R290). -/

/-- The Weir state that WEIR_STATE reports: commits that a rollback has undone are PENDING again (R298). -/
def Weir.shown (w : Weir) : WeirSt := match w.st with
  | .empty => if w.replays = [] then .empty else .pending
  | x => x

/-- The Weir takes no command and no staged write (R291). -/
def Weir.busy (w : Weir) : Bool := match w.shown with
  | .validating => true
  | .armed => true
  | .pending => true
  | _ => false

/-- WEIR_PENDING_STEP: all ones for none. -/
def Weir.waitsFor (w : Weir) : Nat := match w.st, w.pendingStep with
  | .pending, some n => n
  | _, _ => match w.replays with
    | x :: _ => x.step
    | [] => 0xFFFFFFFFFFFFFFFF

/-- Bytes of a bank. -/
def bankBytes (l : List (Nat × StVal)) : Nat := l.foldl (fun (n : Nat) (e : Nat × StVal) => n + (valueBytes e.1 e.2).length) 0

/-- The capacity of the bank, WEIR_KIB. -/
def weirBytes : Nat := 16384 * 1024

/-- A value staged; none where the bank would pass its capacity. A write to a VALID bank returns it to STAGED. -/
def State.stage (s : State) (k : Nat) (v : StVal) : Option State :=
  let b := stPut s.weir.bank k v
  let w := if stGet s.weir.bank k = some v then s.weir else s.weir.changed k
  if weirBytes < bankBytes b then none else some { s with weir := { w with bank := b, st := .staged } }

/-- The outcome of a write to an RW-staged object, once its writer is the owner (R271, R290, R291). -/
def stageReply (o : ObjRow) (r : NapReq) (s : State) : Reply :=
  let k := objKey r.index r.sub
  let put := fun (t : State) (v : StVal) => match t.stage k v with
    | some u => Reply.ok u
    | none => .no t stRange 0
  if s.weir.busy then .no s stBusy 0
  else if o.ty = .blob then
    match s.takeSegment r (blobShape r.index r.sub).1 with
    | (t, .bad) => .no t stRange 0
    | (t, .part) => .ok t
    | (t, .whole v) => if blobOk r.index r.sub v then put t (.blob v) else .no t stRange 0
  else
    let v := leNat r.value
    let nan := o.ty = .f32 && (f32 v).isNan
    if nan || !scalarOk r.index r.sub v then .no s stRange 0 else put s (.scalar v)

/-! Results. -/

/-- WEIR_RESULT. -/
def weirResult (status index sub record position : Nat) : List Byte :=
  leBytes 1 status ++ [0] ++ leBytes 2 index ++ leBytes 1 sub ++ [0, 0, 0] ++ leBytes 4 record ++ leBytes 4 position

/-- WEIR_RESULT set. -/
def State.setWeirResult (s : State) (b : List Byte) : State := s.setBlob 0x3001 3 b

/-- The Weir with nothing staged; commits to be replayed stay. -/
def Weir.clear (w : Weir) : Weir :=
  { w.drop with st := .empty, arming := false, pendingStep := none, pendingGroup := false, groupSeq := none, orphan := false }

/-! What a commit brings about. -/

/-- Watts of the cap that a profile sets (*Profiles*). -/
def profileCap : Nat → Nat
  | 0 => 3600
  | 1 => 3000
  | _ => 2100

/-- The buddy share that a profile allows, in per cent. -/
def profileShare : Nat → Nat
  | 2 => 20
  | _ => 50

/-- A RESTART_READY value (R395). -/
def restartReadyValue (attempt sender committed : Nat) (group : Bool) : List Byte :=
  wordsLE ([attempt % 16 + b01 group * 2 ^ 12 + sender * 2 ^ 16] ++ stepWords committed)

/-- A list of staged values holds an object. -/
def holdsKey (l : List (Nat × StVal)) (i sub : Nat) : Bool := (stGet l (objKey i sub)).isSome

/-- The job description of a package has been committed: its SEQ series and those it has seen begin anew (R274), what the
cascade had changed of it ends, and a halted package reports to its new master (R242). -/
def State.redescribed (s : State) (l : List (Nat × StVal)) : State :=
  if l.any (fun (e : Nat × StVal) => e.1 / 256 = 0x4030) then
    let s1 := { s with
      nap := { s.nap with outSeq := [], pos0 := [] },
      job := { s.job with left := false },
      cas := { s.cas with acting := none, parent := none, kids := none, lost := [], taken := [], rolling := none, restarts := [] } }
    if s.job.st = 2 ∧ holdsKey l 0x4030 3 then
      s1.command s1.master 0x4040 0x0C (restartReadyValue s1.job.attempt s1.position s1.job.committed false)
    else s1
  else s

/-- The profile and its cap follow PROFILE (*Profiles*); the share follows both. -/
def State.reprofiled (s : State) (l : List (Nat × StVal)) : State :=
  let p := s.obj 0xA001 1
  let s1 := if holdsKey l 0xA001 1 then
      (s.setObj 0xA001 2 p).setObj 0xA002 1 (Nat.min (profileCap p) (s.obField 1 16 16))
    else s
  if holdsKey l 0xA001 1 || holdsKey l 0x8006 2 then
    s1.setObj 0xA001 3 (Nat.min (s1.obj 0x8006 2) (profileShare (s1.obj 0xA001 2)))
  else s1

/-- A new holder is sent a full drain (R243). -/
def State.reheld (s : State) (old : Nat) : State := if s.holder = old then s else s.fullDrain s.applied

/-- Values committed together, with what follows from them: a layout generation takes force at once while no job runs. -/
def State.commitAll (s : State) (l : List (Nat × StVal)) : State :=
  let s1 := l.foldl (fun (t : State) (e : Nat × StVal) => t.commitValue e.1 e.2) s
  let s2 := if holdsKey l 0x4034 1 ∧ (s.job.st = 0 ∨ s.job.st = 2) then s1.setObj 0x4035 1 (s1.obj 0x4034 1) else s1
  ((s2.redescribed l).reprofiled l).reheld s.holder

/-- The values of some objects as they stand committed. -/
def State.committedOf (s : State) (l : List (Nat × StVal)) : List (Nat × StVal) :=
  l.map (fun (e : Nat × StVal) => (e.1, s.committedAt e.1))

/-- A commit that belongs to no step: rollbacks keep its values (R298). -/
def State.commitNow (s : State) (l : List (Nat × StVal)) : State :=
  let keep := fun (x : Shadow) => { x with before := x.before.filter (fun (e : Nat × StVal) => (stGet l e.1).isNone) }
  ({ s.commitAll l with weir := { s.weir with shadows := s.weir.shadows.map keep } }).addObj 0x3001 6 32 1

/-- A commit at the boundary of a step, with its configuration shadow (R298). -/
def State.commitAtStep (s : State) (step : Nat) (group : Bool) (l : List (Nat × StVal)) : State :=
  let x : Shadow := ⟨step, group, l, s.committedOf l⟩
  let s1 := (s.commitAll l).addObj 0x3001 6 32 1
  { s1 with weir := { s1.weir with shadows := s1.weir.shadows ++ [x] } }

/-- GROUP_SEQ after a group commit has been applied. -/
def State.noteGroup (s : State) (seq : Option Nat) : State := match seq with
  | some q => s.setObj 0x3001 7 q
  | none => s

/-- The bank is committed at once (R293). -/
def State.bankNow (s : State) : State :=
  (({ s with weir := s.weir.clear }.commitNow s.weir.bank).setWeirResult (List.replicate 16 0)).noteGroup s.weir.groupSeq

/-- The boundary of a step passes at the Weir (R236 item 2, R293, R298): commits of the same step that a rollback undid, then
the PENDING bank. -/
def State.weirBoundary (s : State) (step : Nat) : State :=
  let due := s.weir.replays.filter (fun (x : Shadow) => x.step ≤ step)
  let s1 := { s with weir := { s.weir with replays := s.weir.replays.filter (fun (x : Shadow) => !(x.step ≤ step)) } }
  let s2 := due.foldl (fun (t : State) (x : Shadow) => t.commitAtStep step x.group x.staged) s1
  match s2.weir.st, s2.weir.pendingStep with
  | .pending, some n =>
    if n ≤ step then
      (({ s2 with weir := s2.weir.clear }.commitAtStep step s2.weir.pendingGroup s2.weir.bank).setWeirResult
        (List.replicate 16 0)).noteGroup s2.weir.groupSeq
    else s2
  | _, _ => s2

/-- What waits for a boundary takes effect at once, for no job runs any more (R236). -/
def State.quiesce (s : State) : State :=
  let s1 := { s with weir := { s.weir with replays := [] } }
  let s2 := s.weir.replays.foldl (fun (t : State) (x : Shadow) => t.commitNow x.staged) s1
  let s3 := if s2.weir.st = .pending then s2.bankNow else s2
  s3.applyLoad.releaseWaiting

/-- The commits applied at boundaries after T are undone, and wait for the same steps again (R298). -/
def State.undoCommits (s : State) (target : Nat) : State :=
  let gone := s.weir.shadows.filter (fun (x : Shadow) => target < x.step)
  let s1 := gone.reverse.foldl (fun (t : State) (x : Shadow) =>
    ((x.before.foldl (fun (u : State) (e : Nat × StVal) => u.commitValue e.1 e.2) t).reprofiled x.before).reheld t.holder) s
  { s1 with weir := { s1.weir with
    shadows := s1.weir.shadows.filter (fun (x : Shadow) => !(target < x.step)),
    replays := gone.map (fun (x : Shadow) => { x with before := [] }) ++ s1.weir.replays } }

/-! Weir commands (R291 to R293). -/

/-- A WEIR_COMMAND of one value. -/
def State.weirCommand (s : State) (n : Nat) (r : NapReq) (allowed : State → Bool) (act : State → Reply) : Res :=
  .next (if r.opcode = 2 ∧ r.index = 0x3001 ∧ r.sub = 1 ∧ leNat r.value = n then
    s.serve r (commandReply r blobLimit byOwner (fun t _ _ =>
      if allowed t then act t
      else if t.weir.busy then .no t stBusy 0
      else .no t stConflict 0xFFFFFFFF))
  else s)

/-- The bank can be validated. -/
def canValidate (s : State) : Bool := s.weir.st = .staged || s.weir.st = .valid

/-- VALIDATE (R292). -/
def execValidate (r : NapReq) (s : State) : Res :=
  s.weirCommand 1 r canValidate (fun t => .ok { t with weir := { t.weir with st := .validating, arming := false } })

/-- A group-only object is staged (R294). -/
def Weir.groupOnly (w : Weir) : Bool := w.bank.any (fun (e : Nat × StVal) => match objRow (e.1 / 256) (e.1 % 256) with
  | some r => r.group
  | none => false)

/-- Every staged object's rule reads "Weir commit, at once" (R293). -/
def Weir.atOnce (w : Weir) : Bool := w.bank.all (fun (e : Nat × StVal) => match objRow (e.1 / 256) (e.1 % 256) with
  | some r => r.once
  | none => false)

/-- COMMIT (R293, R294). -/
def execCommit (r : NapReq) (s : State) : Res :=
  s.weirCommand 2 r (fun t => t.weir.st = .valid && !t.weir.groupOnly) (fun t =>
    if t.job.st = 0 ∨ t.job.st = 2 ∨ t.weir.atOnce then .ok t.bankNow
    else .ok { t with weir := { t.weir with st := .pending, pendingStep := some t.job.step, pendingGroup := false } })

/-- A DISCARD is allowed: of a STAGED or VALID bank, or of a PENDING local commit. -/
def canDiscard (s : State) : Bool :=
  match s.weir.st with
  | .staged => true
  | .valid => true
  | .pending => !s.weir.pendingGroup
  | .empty => s.weir.replays.any (fun (x : Shadow) => !x.group)
  | _ => false

/-- DISCARD (R291, R293). -/
def execDiscard (r : NapReq) (s : State) : Res :=
  s.weirCommand 3 r canDiscard (fun t =>
    if t.weir.st = .empty then
      .ok { t with weir := { t.weir with replays := t.weir.replays.filter (fun (x : Shadow) => x.group) } }
    else .ok { t with weir := t.weir.clear })

end Sys2Proof.Machine
end

