-- ==== Sys2Proof/Machine/Cascade.lean ====
section
/-! DEFINITION. A step's end in the cascade (R179 to R182, R231, R236 to R238, R394, R395): votes and verdicts, the step
boundary, the commit; the layout change (R226, R228); and the close of an epoch (R198, R303). -/

namespace Sys2Proof.Machine

/-! Votes (R179, R181, R231). -/

/-- *VOTE_REPORT value*. -/
def voteValue (step sender : Nat) (vote group : Bool) (entries : List Nat) : List Byte :=
  wordsLE (stepWords step ++ [sender + b01 vote * 2 ^ 12 + b01 group * 2 ^ 13, entries.length] ++ entries)

/-- A VOTE_REPORT whose count agrees with its length. -/
def voteOk (v : List Byte) : Bool := decide (16 ≤ v.length) && v.length = 16 + 4 * wb v 3 0 16

/-- An update unit has dealt with every announced tile, and every program has ended. -/
def UpdUnit.idle (u : UpdUnit) : Bool :=
  u.buffer.isEmpty && u.waiting.isEmpty && u.running.isEmpty && u.due.all (fun (e : Nat × Nat) => e.2 ≤ mget 0 u.dealt e.1)

/-- Steps 1 to 4 of *Step order* are past: every core waits in STEPEND, and every announced reduction is applied. -/
def State.stepApplied (s : State) : Bool :=
  s.stepEnd && s.trib.deliver.isEmpty && s.upd.all (fun (e : Nat × UpdUnit) => e.2.idle)

/-- The micro-batch identifiers that the package's cores logged (R181), each with the package's position. -/
def State.mbLog (s : State) : List Nat :=
  (List.range 128).flatMap (fun c =>
    (List.range (Nat.min 4 (s.obj 0x501A c))).map (fun i => bits (s.obj 0x5019 c) (16 * i) 16 + s.position * 2 ^ 16))

/-- VOTE_REPORT_SEND (R179, R231): once the step's reductions are applied, the vote report goes to the group master. -/
def execVoteReportSend (s : State) : Res :=
  if s.job.st = 1 ∧ s.job.left = false ∧ s.job.voted = false ∧ s.job.verdict = none ∧ s.stepApplied then
    .next ({ s with job := { s.job with voted := true } }.command s.master 0x4040 1
      (voteValue s.job.step s.position s.job.vote false s.mbLog))
  else .next s

/-- A vote put among those held, by rising sender. -/
def voteIns (x : Vote) : List Vote → List Vote
  | [] => [x]
  | y :: l => if x.sender < y.sender then x :: y :: l else y :: voteIns x l

/-- The positions whose reports a master awaits: the non-spare packages of its group, and its child masters. -/
def State.reporters (s : State) : List Nat := s.nonSpares ++ s.childMasters

/-- *VERDICT value*. -/
def verdictValue (step : Nat) (skip halt : Bool) : List Byte := wordsLE (stepWords step ++ [b01 skip + 2 * b01 halt])

/-- A command held back with a GROUP_COMMIT for the same position. -/
def Awaiting.holds (a : Awaiting) (p : Nat) : Bool := a.rest.any (fun (x : Nat × Nat × Nat × List Byte) => x.1 = p && x.2.2.1 = 0x17)

/-- A command written down the tree, on each path behind a GROUP_COMMIT that still waits for the deputy (R295). -/
def State.downBehind (s : State) (sub : Nat) (v : List Byte) : State :=
  if !s.isMaster then s
  else (s.below false).foldl (fun (t : State) (p : Nat) =>
    if t.cas.awaiting.any (fun (a : Awaiting) => a.holds p) then
      { t with cas := { t.cas with awaiting := t.cas.awaiting.map (fun (a : Awaiting) =>
        if a.holds p then { a with rest := a.rest ++ [(p, 0x4040, sub, v)] } else a) } }
    else t.command p 0x4040 sub v) s

/-- Every report that a master awaits for a step has come: a child master reports for its group, and the root decides: SKIP if
any vote bit is set, with the halt flag where SKIP_RUN reaches SKIP_HALT_LIMIT (R180, R182). -/
def State.closeVote (s : State) (step : Nat) : State :=
  let l := s.cas.votes.filter (fun (x : Vote) => x.step = step)
  if !s.reporters.all (fun p => l.any (fun (x : Vote) => x.sender = p)) then s
  else
    let vote := l.any (fun (x : Vote) => x.vote)
    let s1 := { s with cas := { s.cas with decided := step, votes := s.cas.votes.filter (fun (x : Vote) => step < x.step) } }
    if !s.isRoot then
      s1.command s1.parent 0x4040 1 (voteValue step s1.position vote true (l.flatMap (fun (x : Vote) => x.entries)))
    else
      let limit := s.obj 0x4020 1
      s1.downBehind 2 (verdictValue step vote (vote && decide (limit ≠ 0) && decide (limit ≤ s.obj 0x4020 2 + 1)))

/-- A vote report received by a master: not of a step that it has dealt with, and one of each sender (R231). -/
def State.takeVote (s : State) (v : List Byte) : State :=
  let step := stepOf v
  let x : Vote := ⟨step, wb v 2 0 12, wb v 2 12 1 = 1, (List.range (wb v 3 0 16)).map (fun i => wd v (4 + i))⟩
  if s.job.st ≠ 1 ∨ step ≤ s.cas.decided ∨ s.cas.votes.any (fun (y : Vote) => y.step = step && y.sender = x.sender) then s
  else { s with cas := { s.cas with votes := voteIns x s.cas.votes } }.closeVote step

/-- VOTE_REPORT (R231, R394). -/
def execVoteReport (r : NapReq) (s : State) : Res := s.cascade 1 r fromBelow voteOk (fun t _ v => t.takeVote v)

/-! The verdict (R59, R179 to R182). -/

/-- A version table after an APPLY verdict: PENDING becomes CURRENT, and the old version HELD or, with no holder, FREE. -/
def applyVersion (t : List VSlot) : List VSlot :=
  if t.any (fun v => v.st = .pending) then
    t.map (fun v => match v.st with
      | .pending => { v with st := .current }
      | .current => if v.holders = 0 then .free else { v with st := .held }
      | _ => v)
  else t

/-- The package acts on a verdict (R179 step 7, R180). -/
def State.actVerdict (s : State) (step : Nat) (skip halt : Bool) : State :=
  let s0 := { s with
    verBefore := s.verBefore ++ [(step, s.versions)],
    job := { s.job with verdict := some skip, haltAfter := halt } }
  if skip then
    let s1 := s0.discardFreshWhere (fun p => p.written = step % 2 ^ 32)
    let s2 := { s1 with
      versions := s1.versions.map (fun (e : Nat × List VSlot) => (e.1, freePending e.2)),
      cas := { s1.cas with skipped := sIns s1.cas.skipped step } }
    (((s2.addObj 0x4020 2 16 1).addObj 0x4020 3 32 1).setObj 0x4020 4 step).record
      { code := 0x0304, cls := .note, d0 := s.mbLog.length }
  else
    let s1 := s0.versions.foldl (fun (t : State) (e : Nat × List VSlot) => match currentSlot e.2 with
      | some v => if 0 < v.holders && e.2.any (fun x => x.st = .pending) then t.keepVersion (e.1 / 64) (e.1 % 64) v.number else t
      | none => t) s0
    { s1 with versions := s1.versions.map (fun (e : Nat × List VSlot) => (e.1, applyVersion e.2)) }.setObj 0x4020 2 0

/-- VERDICT (R179, R231): a child master passes it on; a package acts on the verdict of its step once. -/
def execVerdict (r : NapReq) (s : State) : Res :=
  s.cascade 2 r fromAbove (atLeast 12) (fun t _ v =>
    let t1 := if t.isRoot then t else t.downBehind 2 v
    if t1.job.st = 1 ∧ stepOf v = t1.job.step ∧ t1.job.verdict = none then
      t1.actVerdict (stepOf v) (wb v 2 0 1 = 1) (wb v 2 1 1 = 1)
    else t1)

/-! Readiness to commit (R237, R245). -/

/-- *COMMIT_READY value*. -/
def commitReadyValue (step sender : Nat) (group : Bool) : List Byte := wordsLE (stepWords step ++ [sender + b01 group * 2 ^ 12])

/-- The commit gate is open for a step: it is off, the package has no complete image, or its holder has acknowledged it. -/
def State.gateOpen (s : State) (step : Nat) : Bool :=
  s.obj 0x8006 1 ≠ 1 || s.holder = 0xFFFF || !s.hasImage || step ≤ s.obj 0x8006 3

/-- COMMIT_READY written for every step whose boundary has passed and whose gate is open, once each. -/
def State.sayReady (s : State) : State :=
  if s.job.st ≠ 1 ∧ s.job.st ≠ 2 ∨ s.job.left then s
  else (List.range (s.job.step - 1 - s.job.readied)).foldl (fun (t : State) (_ : Nat) =>
    let n := t.job.readied + 1
    if t.gateOpen n then
      { t with job := { t.job with readied := n } }.command t.master 0x4040 9 (commitReadyValue n t.position false)
    else t) s

/-! The step boundary (R90, R124, R161, R222, R236, R303, R304). -/

/-- Objects whose rule reads "Cleared at each step boundary", set to their defaults, which are 0. -/
def State.clearStepObjects (s : State) : State :=
  { s with dict := s.dict.filter (fun (e : Nat × Nat) => !([0xB103, 0xB105, 0x5018, 0x5019, 0x501A, 0x5035].contains (e.1 / 256))) }

/-- A core as the boundary of step `n` leaves it, before its STEPEND returns: the copy of its tables, its error score, its layers,
and the micro-batches that it has taken past the `mbs` of the step (R64). -/
def CoreState.turn (n mbs : Nat) (k : CoreState) : CoreState :=
  let tables := k.sdm.filter (fun (c : Host.Cell) => 0xEE00 ≤ c.1 && c.1 < 0x10000)
  { k with
    tableCopy := tables,
    tablePast := k.tablePast ++ [(n, tables)],
    score := k.score - k.score / 8,
    layers := [],
    taken := k.taken - mbs }

/-- BUDDY_LAG while the package has a complete image (R245). -/
def State.countLag (s : State) : State :=
  if s.hasImage then s.setObj 0x8006 4 (s.applied - s.obj 0x8006 3) else s

/-- STEPEND returns the new step on every core that waits in it (R146). -/
def State.returnStepend (s : State) : State :=
  s.cores.foldl (fun (t : State) (e : Nat × CoreState) => match e.2.run, e.2.waiting with
    | .running, .stepend rd =>
      (t.onCore e.1 (fun k => { k with waiting := .none })).writeAdvance e.1 rd (BitVec.ofNat 64 t.job.step)
    | _, _ => t) s

/-- The cores stay in STEPEND: the job ends, a layout change is about to run, or a cut holds them (R228, R250, R300). -/
def State.coresStay (s : State) : Bool :=
  s.job.st ≠ 1 || s.cas.ending.any (fun n => n < s.job.step) || (s.layoutPending && (s.obj 0x4001 1 ≠ 1 || s.stageMbs.isEmpty))

/-- Items 1 to 5 of R236, with what else a boundary brings. -/
def State.passBoundary (s : State) : State :=
  let n := s.job.step
  let base := s.job.mbBase + s.perStep
  let s1 := { s with job := { s.job with
    step := n + 1, mbBase := base, bases := mset 0 s.job.bases (n + 1) base, vote := false, voted := false, verdict := none } }
  let s2 := (((((s1.weirBoundary n).boundaryLoad).releaseWaiting).endHolds).closeEpoch).reseed (n + 1)
  let s3 := s2.cores.foldl (fun (t : State) (e : Nat × CoreState) => (t.closeIntervals e.1 1).onCore e.1 (CoreState.turn n s.perStep)) s2
  let s4 := { (s3.clearStepObjects.setObj 0x4035 4 s3.stateGib) with stageDone := [] }
  ((s4.announceDeliveries.boundaryDrain n).countLag).takeDue.sayReady

/-- STEP_BOUNDARY (R236): the package passes the boundary of the step once its update units have acted on the verdict and its
cores wait in STEPEND; substitutions that are due run first (R304). -/
def execStepBoundary (s : State) : Res :=
  if s.job.st = 1 ∧ s.job.left = false ∧ s.job.verdict ≠ none ∧ s.stepApplied ∧ s.trib.layout = false then
    let s0 := s.substituteAll
    if s0.job.left then .next s0
    else
      let halt := s0.job.haltAfter
      let s1 := s0.passBoundary
      if halt then
        .next ((({ s1 with job := { s1.job with haltAfter := false } }.record
          { code := 0x0305, cls := .halt, d0 := s1.obj 0x4020 2 }).setJobState 2).quiesce).haltAll
      else if s1.coresStay then .next s1
      else .next s1.returnStepend
  else .next s

/-! The commit (R171, R237, R238, R244, R251, R298). -/

/-- A commit-journal entry (R238): the step, the layout generation, the attempt and the verdict. -/
def journalEntry (step layout attempt : Nat) (skip : Bool) : List Byte :=
  wordsLE (stepWords step ++ [layout, attempt, b01 skip, 0, 0, 0])

/-- The layout phase begins once the step before it is committed and every core waits at the boundary (R228). -/
def State.beginLayout (s : State) : State :=
  if s.job.st = 1 ∧ s.layoutPending ∧ s.trib.layout = false ∧ s.job.committed + 1 = s.job.step ∧ s.stepEnd ∧ s.stageMbs.isEmpty then
    { s with trib := { s.trib with layout := true, reported := false, sent := [], written := [] } }.permuteReport
  else s

/-- The job ends at the root after the commit of the step in progress (R300): the cores wait in STEPEND. -/
def State.endJob (s : State) : State :=
  if s.cas.ending.any (fun n => n ≤ s.job.committed) ∧ s.job.st = 1 then
    ({ s with cas := { s.cas with ending := none } }.setJobState 0).quiesce
  else s

/-- A step committed on this package (R238). -/
def State.commitStep (s : State) (step : Nat) (skip : Bool) : State :=
  if step ≤ s.job.committed then s
  else
    let s1 := s.commitFresh
    let entry := journalEntry step (s.obj 0x4035 1) s.job.attempt skip
    let j := s.nv.journal
    State.worn { s1 with
      cores := s1.cores.map (fun (c : Nat × CoreState) =>
        (c.1, { c.2 with tablePast := c.2.tablePast.filter (fun (x : Nat × List Host.Cell) => step ≤ x.1) })),
      job := { s1.job with committed := step, bases := s1.job.bases.filter (fun (e : Nat × Nat) => step < e.1) },
      nv := { s1.nv with journal := (if j.length < 65536 then j else j.drop 1) ++ [entry] },
      verBefore := s1.verBefore.filter (fun (e : Nat × SMap (List VSlot)) => step < e.1),
      cas := { s1.cas with
        skipped := s1.cas.skipped.filter (fun x => step < x),
        readies := s1.cas.readies.filter (fun (x : Nat × Nat) => step < x.1) },
      weir := { s1.weir with shadows := s1.weir.shadows.filter (fun (x : Shadow) => step < x.step) },
      buddy := { s1.buddy with copies := s1.buddy.copies.map (fun (c : Copy) => c.settle step) },
      ckpt := { s1.ckpt with cut := s1.ckpt.cut.map (fun (c : Cut) => { c with sure := c.sure || decide (c.step ≤ step) }) } }

/-- *STEP_COMMIT value*. -/
def stepCommitValue (step : Nat) (skip : Bool) : List Byte := wordsLE (stepWords step ++ [b01 skip])

/-- Every COMMIT_READY of a step that a master awaits has come: a child master reports for its group, and the root commits,
to its deputy first (R237). -/
def State.closeReady (s : State) (step : Nat) : State :=
  if !s.reporters.all (fun p => s.cas.readies.contains (step, p)) then s
  else
    let s1 := { s with cas := { s.cas with readies := s.cas.readies.filter (fun (x : Nat × Nat) => x.1 ≠ step) } }
    if s.isRoot then s1.downAfter false 0x0A (stepCommitValue step (s.cas.skipped.contains step))
    else s1.command s1.parent 0x4040 9 (commitReadyValue step s1.position true)

/-- COMMIT_READY (R237, R263). -/
def execCommitReady (r : NapReq) (s : State) : Res :=
  s.cascade 9 r fromBelow (atLeast 12) (fun t _ v =>
    let x := (stepOf v, wb v 2 0 12)
    if x.1 ≤ t.job.committed ∨ t.job.st = 0 ∨ t.job.st = 3 ∨ t.cas.readies.contains x then t
    else { t with cas := { t.cas with readies := t.cas.readies ++ [x] } }.closeReady x.1)

/-- STEP_COMMIT (R237, R238): a child master passes it on, to its deputy first; then the layout phase of a change, or the end
of the job. -/
def execStepCommit (r : NapReq) (s : State) : Res :=
  s.cascade 0x0A r fromAbove (atLeast 12) (fun t _ v =>
    let t1 := if t.isRoot then t else t.downAfter false 0x0A v
    if t1.job.st = 1 ∨ t1.job.st = 2 then ((t1.commitStep (stepOf v) (wb v 2 0 1 = 1)).retryHeld.beginLayout).endJob else t1)

/-! The layout change (R226 to R228). -/

/-- *PERMUTE_DONE value*. -/
def permuteDoneValue (layout attempt sender : Nat) (group : Bool) : List Byte :=
  wordsLE [layout, attempt % 16 + sender * 2 ^ 16 + b01 group * 2 ^ 28]

/-- Every PERMUTE_DONE that a master awaits has come: a child master reports for its group, and the root broadcasts
LAYOUT_COMMIT. -/
def State.closePermute (s : State) (layout : Nat) : State :=
  if !s.reporters.all (fun p => s.cas.permDone.contains p) then s
  else
    let s1 := { s with cas := { s.cas with permDone := [] } }
    if s.isRoot then
      -- a Freshet that came during the layout phase is cut directly after it, at the step before
      let s2 := match s1.ckpt.noticed with
        | some h => { s1 with ckpt := { s1.ckpt with noticed := none } }.down false 0x0F
            (cutAtValue s1.applied (h || s1.ckpt.halt) s1.targetSlot)
        | none => s1
      s2.down true 4 (wordsLE [layout])
    else s1.command s1.parent 0x4040 3 (permuteDoneValue layout s1.job.attempt s1.position true)

/-- PERMUTE_DONE (R228, R394): a report of another attempt is out of date. -/
def execPermuteDone (r : NapReq) (s : State) : Res :=
  s.cascade 3 r fromBelow (atLeast 8) (fun t _ v =>
    let p := wb v 1 16 12
    if t.job.st ≠ 1 ∨ wb v 1 0 4 ≠ t.job.attempt % 16 ∨ wd v 0 ≠ t.obj 0x4034 1 ∨ t.cas.permDone.contains p then t
    else { t with cas := { t.cas with permDone := t.cas.permDone ++ [p] } }.closePermute (wd v 0))

/-- Source ranges of this package that are no destinations of it are released (R207, R228). -/
def State.releaseSources (s : State) (plan : List Permute) : State :=
  let dests := (plan.filter (fun (e : Permute) => e.dst = s.position)).map (fun (e : Permute) => (e.onto, 65536 * e.units))
  (plan.filter (fun (e : Permute) => e.src = s.position)).foldl (fun (t : State) (e : Permute) =>
    (List.range e.units).foldl (fun (u : State) (i : Nat) =>
      if dests.any (fun d => meets (e.from' + 65536 * i, 65536) d) then u else u.releaseRange (e.from' + 65536 * i) 65536) t) s

/-- A version table of one CURRENT slot numbered 0 (R228). -/
def oneVersion : List VSlot := ⟨.current, 0, 0⟩ :: List.replicate 7 .free

/-- Restarted cores start with the step, or stay halted where a cut holds the job (R250). -/
def State.runCores (s : State) : State :=
  if s.job.st = 1 then s.startCores s.job.step
  else { s with cores := s.cores.map (fun (c : Nat × CoreState) =>
    (c.1, if c.2.image = [] then c.2 else { c.2 with run := .halted })) }

/-- LAYOUT_COMMIT acted on (R228 step 6): the generation and what waited for it take force, the attempt advances, streams and
version tables start anew, the load set takes effect, the layout phase's pages become current for good, sources are released,
and the cores restart with the step. -/
def State.layoutDone (s : State) (layout : Nat) : State :=
  let plan := s.plan
  let s1 := (s.adopt atLayout).commitFresh.forgetPast
  let s2 := (s1.setObj 0x4035 1 layout).releaseSources plan
  let s3 := { s2 with
    job := { s2.job with attempt := (s2.job.attempt + 1) % 16 },
    trib := Trib.reset,
    stageMbs := [],
    stageDone := [],
    versions := s2.versions.map (fun (e : Nat × List VSlot) => (e.1, oneVersion)),
    cas := { s2.cas with layoutFails := 0, permDone := [] } }
  let s4 := s3.recreateStreams.applyLoad
  (s4.restartCores.announceDeliveries).takeDue.runCores

/-- LAYOUT_COMMIT (R228). A spare takes the generation. -/
def execLayoutCommit (r : NapReq) (s : State) : Res :=
  s.cascade 4 r fromAbove (atLeast 4) (fun t _ v =>
    let t1 := if t.isRoot then t else t.down true 4 v
    if t1.isSpare then t1.setObj 0x4035 1 (wd v 0)
    else if t1.job.st = 1 ∧ t1.trib.layout ∧ wd v 0 = t1.obj 0x4034 1 then t1.layoutDone (wd v 0) else t1)

/-! Epochs (R198, R303). -/

/-- EPOCH_CLOSE (R198, R200): while no job runs, heat decays, the placement engine decides and the error scores decay too
(R303). While a job runs an epoch ends at each step boundary alone. -/
def execEpochClose (s : State) : Res :=
  if s.job.st = 1 then .next s
  else
    let s1 := s.closeEpoch
    .next { s1 with cores := s1.cores.map (fun (c : Nat × CoreState) => (c.1, { c.2 with score := c.2.score - c.2.score / 8 })) }

end Sys2Proof.Machine
end

