-- ==== Sys2Proof/Machine/Group.lean ====
section
/-! DEFINITION. The end of VALIDATE (R292) and the group commit (R67, R93, R215, R218, R230, R234, R263, R294 to R297). -/

namespace Sys2Proof.Machine

/-! Who takes part (R295). -/

/-- The package as group commit commands see it: by its committed job description or, where none is committed, by the one in its
bank. -/
def State.groupView (s : State) : State := if s.blob 0x4030 6 = [] ∧ s.weir.grouped then s.would else s

/-- A group commit command from below, and from above. -/
def groupBelow (s : State) (r : NapReq) : Bool := fromBelow s.groupView r

/-- A group commit command from above. -/
def groupAbove (s : State) (r : NapReq) : Bool := fromAbove s.groupView r

/-- A group commit command: its sender, its layout, then its action. A package that has left its job takes these too (R309). -/
def State.groupServe (s : State) (sub : Nat) (r : NapReq) (who : State → NapReq → Bool) (ok : List Byte → Bool)
    (act : State → List Byte → Reply) : Res :=
  s.serveCommand 0x4040 sub r (commandReply r blobLimit who (fun t _ v => if !ok v then .no t stRange 0 else act t v))

/-! GROUP_ARMED (R296). -/

/-- Records of a REPLICA_GROUPS table, whole: the group, its members and the record's bytes. `fuel` bounds the records. -/
def groupRaws : Nat → List Byte → List (Nat × List Nat × List Byte)
  | 0, _ => []
  | fuel + 1, bs =>
    if bs.length < 4 then []
    else
      let n := wb bs 0 16 13
      let size := 4 + (2 * n + 3) / 4 * 4
      (wb bs 0 0 8, (List.range n).map (fun i => fld bs (4 + 2 * i) 2), bs.take size) :: groupRaws fuel (bs.drop size)

/-- The objects under JOB_DIGEST. -/
def jobScope : List Nat :=
  (List.range 6).map (fun i => objKey 0x4001 (i + 1)) ++ [objKey 0x4030 7, objKey 0x4033 0, objKey 0x4034 1, objKey 0x5001 1, objKey 0x8006 1]

/-- The objects under GROUP_DIGEST. -/
def groupScope : List Nat := [3, 4, 5, 6, 8].map (objKey 0x4030)

/-- SHA3-256 over the values of some objects. -/
def State.digestOf (s : State) (keys : List Nat) : List Byte := sha3 (keys.flatMap (fun k => valueBytes k (s.inForce k)))

/-- *GROUP_ARMED value* of this package: its would-be configuration, and its local failure if it has one. -/
def State.armedValue (s : State) (fail : Option Fail) : List Byte :=
  let w := s.would
  let rgs := (groupRaws (w.blob 0x4031 0).length (w.blob 0x4031 0)).filter
    (fun (g : Nat × List Nat × List Byte) => g.2.1.contains w.position)
  let f := match fail with
    | some f => (f.status, f.index + f.sub * 2 ^ 16)
    | none => (0, 0)
  wordsLE [w.position + f.1 * 2 ^ 16, s.obj 0x3001 7 + 1, f.2, w.stateGib] ++ w.digestOf jobScope ++ w.digestOf groupScope
    ++ wordsLE ((List.range 6).map (fun n => w.obj 0x7020 n) ++ [w.obj 0x4030 0x0A, w.obj 0x4030 0x0B, rgs.length])
    ++ rgs.flatMap (fun (g : Nat × List Nat × List Byte) => wordsLE [g.1] ++ sha3 g.2.2)

/-- Bytes of a GROUP_ARMED up to the end of its RG entries. -/
def armedLen (v : List Byte) : Nat := 116 + 36 * wb v 28 0 9

/-- A GROUP_ARMED whose count agrees with its length. The report of a whole group goes on (assumption 183): the position that its
RESULT is about, then the position and LINK_MAP of each further member. -/
def armedOk (v : List Byte) : Bool :=
  decide (116 ≤ v.length) && (v.length = armedLen v || (decide (armedLen v + 4 ≤ v.length) && (v.length - armedLen v - 4) % 28 = 0))

/-- GROUP_ARMED written to the group master. -/
def State.sayArmed (s : State) (fail : Option Fail) : State := s.command s.groupView.master 0x4040 0x16 (s.armedValue fail)

/-! VALIDATE_COMPLETE and GROUP_ARM (R292, R295). -/

/-- A bank that did not pass: STAGED, or discarded where its owner has lapsed (R286). -/
def Weir.back (w : Weir) : Weir := if w.orphan then w.clear else { w with st := .staged, arming := false }

/-- VALIDATE_COMPLETE (R292, R295): the bank is VALID, ARMED, or STAGED with WEIR_RESULT. -/
def execValidateComplete (s : State) : Res :=
  if s.weir.st ≠ .validating then .next s
  else match s.validate with
    | none =>
      let s1 := { s with weir := { s.weir with st := if s.weir.arming then .armed else .valid, arming := false } }.setWeirResult
        (List.replicate 16 0)
      .next (if s.weir.arming then s1.sayArmed none else s1)
    | some f =>
      let s1 := if s.weir.arming then s.sayArmed (some f) else s
      .next ({ s1 with weir := s1.weir.back }.setWeirResult (weirResult f.status f.index f.sub f.record 0))

/-- GROUP_ARM is allowed of an EMPTY, STAGED or VALID bank. -/
def canArm (s : State) : Bool := s.weir.shown = .empty || s.weir.st = .staged || s.weir.st = .valid

/-- GROUP_ARM (R294, R295). -/
def execGroupArm (r : NapReq) (s : State) : Res :=
  s.weirCommand 4 r canArm (fun t => .ok { t with weir := { t.weir with st := .validating, arming := true } })

/-! *Cross-member checks* (R296). -/

/-- A failure of a group commit: status, object and position. -/
structure GroupFail where
  status   : Nat
  index    : Nat
  sub      : Nat
  position : Nat
deriving DecidableEq, Repr

/-- A report: the position and its GROUP_ARMED value. -/
abbrev Report := Nat × List Byte

/-- The lowest position whose report fails a test. -/
def lowestBad (l : List Report) (status index sub : Nat) (ok : Report → Bool) : Option GroupFail :=
  (l.find? (fun x => !ok x)).map (fun (x : Report) => ⟨status, index, sub, x.1⟩)

/-- A report put among those held, by rising position; a later one of a position takes its place. -/
def reportIns (x : Report) : List Report → List Report
  | [] => [x]
  | y :: l => if x.1 = y.1 then x :: l else if x.1 < y.1 then x :: y :: l else y :: reportIns x l

/-- The bytes of some words of a report. -/
def wordsOf (x : Report) (first n : Nat) : List Byte := (x.2.drop (4 * first)).take (4 * n)

/-- The replica-group entries of a report. -/
def rgEntries (x : Report) : List (Nat × List Byte) :=
  (List.range (wb x.2 28 0 9)).map (fun i => (wb x.2 (29 + 9 * i) 0 8, wordsOf x (30 + 9 * i) 8))

/-- The position that a report's RESULT is about. -/
def failPosition (x : Report) : Nat := if x.2.length = armedLen x.2 then x.1 else fld x.2 (armedLen x.2) 4

/-- The LINK_MAPs that a report carries, by position. -/
def reportLinks (x : Report) : List Report :=
  (x.1, wordsOf x 20 6) :: (records 28 (x.2.drop (armedLen x.2 + 4))).map (fun m => (fld m 0 4, m.drop 4))

/-- A link of a LINK_MAP that its other end, where that has been reported too, describes alike (R215). -/
def linkAlike (l : List Report) (x : Report) (n : Nat) : Bool :=
  let a := wd x.2 n
  !bitOf a 15 || (match l.find? (fun (y : Report) => y.1 = bits a 0 12) with
    | none => true
    | some y =>
      let b := wd y.2 (bits a 12 3)
      decide (bits a 12 3 < 6) && bitOf b 15 && bits b 0 12 = x.1 && bits b 12 3 = n)

/-- The checks that a master makes on the reports it holds, in order: `own` is its own, `group` those of its own group, `plain`
the non-spare positions. -/
def crossChecks (own : Report) (group l : List Report) (plain : List Nat) : Option GroupFail :=
  let members := group.filter (fun x => plain.contains x.1)
  let holder := fun (x : Report) => wb x.2 26 0 16
  let links := l.foldl (fun (m : List Report) (x : Report) => (reportLinks x).foldl (fun m y => reportIns y m) m) []
  firstSome [
    (l.find? (fun (x : Report) => wb x.2 0 16 8 ≠ 0)).map
      (fun (x : Report) => ⟨wb x.2 0 16 8, wb x.2 2 0 16, wb x.2 2 16 8, failPosition x⟩),
    lowestBad l stConflict 0 0 (fun x => wordsOf x 4 8 = wordsOf own 4 8),
    lowestBad group stConflict 0x4030 3 (fun x => wordsOf x 12 8 = wordsOf own 12 8),
    lowestBad l stConflict 0x4031 0 (fun x => (rgEntries x).all (fun e =>
      match ((own :: l).flatMap rgEntries).find? (fun (y : Nat × List Byte) => y.1 = e.1) with
      | some y => y.2 = e.2
      | none => true)),
    lowestBad links stConflict 0x7020 0 (fun x => (List.range 6).all (linkAlike links x)),
    lowestBad members stConflict 0x4030 0x0A (fun x => holder x = 0xFFFF || (holder x ≠ x.1 && plain.contains (holder x)
      && !members.any (fun y => y.1 < x.1 && holder y = holder x))),
    lowestBad members stInvalid 0x4030 0x0B (fun x => match group.find? (fun (y : Report) => y.1 = holder x) with
      | some y => wd x.2 3 ≤ wd y.2 27
      | none => true)]
where
  /-- The first failure of a list. -/
  firstSome (x : List (Option GroupFail)) : Option GroupFail := x.findSome? (fun y => y)

/-! The decision (R295, R296). -/

/-- The positions whose GROUP_ARMED a master awaits: every package of its group, and its child masters. -/
def State.armers (s : State) : List Nat := s.groupView.groupMembers ++ s.groupView.childMasters

/-- A command sent to a position, which counts as unanswered until it responds (R295). -/
def State.sendCommit (s : State) (p : Nat) (v : List Byte) : State :=
  let seq := mget 0 s.nap.outSeq p
  let s1 := s.command p 0x4040 0x17 v
  if p = s.groupPosition then s1 else { s1 with cas := { s1.cas with unanswered := s1.cas.unanswered ++ [(p, seq)] } }

/-- GROUP_COMMIT written to every package below, the deputy first and the others once it has answered. -/
def State.commitDown (s : State) (v : List Byte) : State :=
  let w := s.groupView
  match w.below true with
  | [] => s
  | p :: rest =>
    if p = w.obj 0x4030 4 ∧ p ≠ w.position then
      let seq := mget 0 s.nap.outSeq p
      let s1 := s.sendCommit p v
      { s1 with cas := { s1.cas with
        awaiting := s1.cas.awaiting ++ [⟨p, seq, rest.map (fun (q : Nat) => (q, 0x4040, 0x17, v))⟩] } }
    else (p :: rest).foldl (fun (t : State) (q : Nat) => t.sendCommit q v) s

/-- *GROUP_COMMIT* and its fields. -/
def groupCommitValue (seq : Nat) (once : Bool) (step : Nat) : List Byte := wordsLE ([seq, b01 once] ++ stepWords step)

/-- *GROUP_REJECT*. -/
def groupRejectValue (seq : Nat) (f : GroupFail) : List Byte :=
  leBytes 4 seq ++ leBytes 1 f.status ++ [0] ++ leBytes 2 f.index ++ leBytes 1 f.sub ++ [0, 0, 0] ++ leBytes 4 f.position

/-- GROUP_SEQ of the group commit that some reports belong to. -/
def seqOf (l : List Report) : Nat := l.foldl (fun (n : Nat) (x : Report) => Nat.max n (wd x.2 1)) 0

/-- GROUP_REJECT written to every package below. -/
def State.rejectDown (s : State) (f : GroupFail) : State :=
  (s.groupView.below true).foldl (fun (t : State) (p : Nat) => t.command p 0x4040 0x18 (groupRejectValue (seqOf s.cas.armed) f)) s

/-- The replica groups that any member of a group is in, each once. -/
def groupEntries (l : List Report) : List (Nat × List Byte) :=
  (l.flatMap rgEntries).foldl (fun (m : List (Nat × List Byte)) (e : Nat × List Byte) =>
    if m.any (fun (x : Nat × List Byte) => x.1 = e.1) then m else m ++ [e]) []

/-- The group report of a child master (assumption 183): its own, with the outcome of its checks, the highest GROUP_SEQ and the RG
entries of every member; after them the position that the outcome is about, and the links of the other members. -/
def groupReport (own : Report) (l : List Report) (f : Option GroupFail) : List Byte :=
  let r := match f with
    | some f => (f.status, f.index + f.sub * 2 ^ 16, f.position)
    | none => (0, 0, own.1)
  let es := groupEntries l
  wordsLE [own.1 + r.1 * 2 ^ 16, seqOf l, r.2.1] ++ wordsOf own 3 25 ++ wordsLE [es.length]
    ++ es.flatMap (fun (e : Nat × List Byte) => wordsLE [e.1] ++ e.2)
    ++ wordsLE [r.2.2] ++ (l.filter (fun x => x.1 ≠ own.1)).flatMap (fun (x : Report) => wordsLE [x.1] ++ wordsOf x 20 6)

/-- Every package that a master awaits has reported: a child master reports for its group; the root decides, and names the step
whose verdict it has not written, or sets AT_ONCE while no job runs (the step field is then a free value, log 2). -/
def State.closeArmed (s : State) : State :=
  let l := s.cas.armed
  let w := s.groupView
  match l.find? (fun (x : Report) => x.1 = w.position) with
  | none => s
  | some own =>
    if !s.armers.all (fun p => l.any (fun (x : Report) => x.1 = p)) then s
    else
      let fail := crossChecks own (l.filter (fun x => w.groupMembers.contains x.1)) l s.would.nonSpares
      if !w.isRoot then s.command w.parent 0x4040 0x16 (groupReport own l fail)
      else match fail with
        | some f => s.rejectDown f
        | none =>
          let once := s.job.st = 0 || s.job.st = 2
          let step := if s.job.step ≤ s.cas.decided then s.job.step + 1 else s.job.step
          { s with free := s.free + 1 }.commitDown
            (groupCommitValue (seqOf l) once (if once then Config.freeNat s.free % 2 ^ 64 else step))

/-- GROUP_ARMED (R295). -/
def execGroupArmed (r : NapReq) (s : State) : Res :=
  s.groupServe 0x16 r groupBelow armedOk (fun t v =>
    .ok { t with cas := { t.cas with armed := reportIns (wb v 0 0 12, v) t.cas.armed } }.closeArmed)

/-- GROUP_ARM_TIMEOUT (R296): 10 s nominal after the first report the root rejects the group commit, naming the lowest position
that is missing; a child master reports the lowest that its group misses (assumption 183). -/
def execGroupArmTimeout (s : State) : Res :=
  let missing := s.armers.filter (fun p => !s.cas.armed.any (fun (x : Report) => x.1 = p))
  match (missing.foldl sIns []) with
  | [] => .next s
  | p :: _ =>
    let w := s.groupView
    if s.cas.armed = [] ∨ !w.isMaster then .next s
    else if w.isRoot then .next (s.rejectDown ⟨stConflict, 0, 0, p⟩)
    else
      let own := (s.cas.armed.find? (fun (x : Report) => x.1 = w.position)).getD (w.position, s.armedValue none)
      .next (s.command w.parent 0x4040 0x16 (groupReport own s.cas.armed (some ⟨stConflict, 0, 0, p⟩)))

/-! The outcome at each package (R295 step 6). -/

/-- GROUP_COMMIT acted on: once for each GROUP_SEQ. The bank waits for its step, or is applied at once where AT_ONCE is set or no
job runs here. -/
def State.actCommit (s : State) (v : List Byte) : State :=
  let seq := wd v 0
  if s.weir.seen.contains seq then s
  else
    let s1 := { s with
      weir := { s.weir with seen := s.weir.seen ++ [seq] },
      cas := { s.cas with known := if s.cas.armed = [] then s.cas.known else s.cas.armed, armed := [], lastCommit := v } }
    if s1.weir.st ≠ .armed then s1
    else
      let s2 := { s1 with weir := { s1.weir with groupSeq := some seq } }
      if wb v 1 0 1 = 1 then s2.bankNow
      -- a spare of a running job: its layout generation waits for LAYOUT_COMMIT
      else if s.job.st = 0 ∨ s.job.st = 2 then s2.bankNow.setObj 0x4035 1 (s.obj 0x4035 1)
      else { s2 with weir := { s2.weir with st := .pending, pendingStep := some (fld v 8 8), pendingGroup := true } }

/-- The bank holds a job description. -/
def Weir.describes (w : Weir) : Bool := w.bank.any (fun (e : Nat × StVal) => e.1 / 256 = 0x4030)

/-- GROUP_COMMIT (R295, R297): a child master passes it on, its deputy first, and answers once every package of its group has. The
response of the commit that begins the SEQ series anew is not kept: it was received before that commit (R274). -/
def execGroupCommit (r : NapReq) (s : State) : Res :=
  s.groupServe 0x17 r groupAbove (fun v => v.length = 16) (fun t v =>
    let child := t.groupView.isMaster && !t.groupView.isRoot
    let seen := t.weir.seen.contains (wd v 0)
    if child && seen && t.cas.commitReq.isSome then { Reply.ok t with later := true }
    else
      let t1 := if child && !seen then t.commitDown v else t
      let t2 := t1.actCommit v
      let kept := !(t.weir.st = .armed && t.weir.describes && decide (t2.weir.st ≠ .pending))
      if child && t2.commitOpen then
        { Reply.ok { t2 with cas := { t2.cas with commitReq := some (r, kept) } } with later := true }
      else { Reply.ok t2 with keep := kept })

/-- GROUP_REJECT (R295): a master passes it on; the bank returns to STAGED with WEIR_RESULT from the command. -/
def execGroupReject (r : NapReq) (s : State) : Res :=
  s.groupServe 0x18 r groupAbove (fun v => v.length = 16) (fun t v =>
    let t1 := if t.groupView.isMaster && !t.groupView.isRoot then
        (t.groupView.below true).foldl (fun (u : State) (p : Nat) => u.command p 0x4040 0x18 v) t
      else t
    let t2 := { t1 with cas := { t1.cas with armed := [] } }
    if t2.weir.seen.contains (wd v 0) then .ok t2
    else
      let result := weirResult (fld v 4 1) (fld v 6 2) (fld v 8 1) 0 (fld v 12 4)
      if t2.weir.st = .armed then .ok ({ t2 with weir := t2.weir.back }.setWeirResult result)
      else if t2.weir.st = .staged then .ok (t2.setWeirResult result)
      else .ok t2)

end Sys2Proof.Machine
end

