-- ==== Sys2Proof/Machine/Recovery.lean ====
section
/-! DEFINITION. Heartbeats, lost packages and their masters (R232, R233), rollback and restart (R239 to R242, R245 to R247,
R251, R395), and the start and end of a job (R300). -/

namespace Sys2Proof.Machine

/-! Heartbeats (R232). -/

/-- The positions of the group that still hear their master: not lost, and not a spare's old position. -/
def State.liveMembers (s : State) : List Nat :=
  s.groupMembers.filter (fun p => p ≠ s.position && !s.cas.lost.contains p && !s.cas.taken.any (fun (x : Nat × Nat) => x.1 = p))

/-- MASTER_EPOCH. -/
def State.epoch (s : State) : Nat := s.obj 0x4035 3

/-- ROOT_LIVE as this package sets it: the root always, a child master while it hears the root (DEDUCED: no other package sets
it). -/
def State.rootLive (s : State) : Bool := s.isRoot || (s.isMaster && s.cas.rootLive)

/-- Where heartbeats go. -/
def State.heartbeatTo (s : State) : List Nat :=
  if s.isMaster then s.liveMembers ++ s.childMasters ++ (if s.isRoot then [] else [s.parent]) else [s.master]

/-- HEARTBEAT_SEND (R232). -/
def execHeartbeatSend (s : State) : Res :=
  if s.serving ∧ s.job.left = false then
    .next (s.heartbeatTo.foldl (fun (t : State) (p : Nat) =>
      t.command p 0x4040 5 (leBytes 4 (s.epoch % 2 ^ 31 + b01 s.rootLive * 2 ^ 31))) s)
  else .next s

/-- A command from above or from below. -/
def fromTree (s : State) (r : NapReq) : Bool := fromAbove s r || fromBelow s r

/-- HEARTBEAT (R232): one with an older epoch is discarded; a child master notes that the root lives. -/
def execHeartbeat (r : NapReq) (s : State) : Res :=
  s.cascade 5 r fromTree (atLeast 4) (fun t p v =>
    if wb v 0 0 31 < t.epoch then t
    else if t.isMaster && !t.isRoot && p = t.parent && wb v 0 31 1 = 1 then { t with cas := { t.cas with rootLive := true } }
    else t)

/-- A member is declared lost by its master: the event, and the FAULT_REPORT that names the position (R232, R239). -/
def State.declareLost (s : State) (p : Nat) : State :=
  let s1 : State := { s with cas := { s.cas with lost := sIns s.cas.lost p } }.record { code := 0x0608, cls := .note, d0 := p }
  s1.command s1.upward 0x4040 8 (faultReportValue s1.job.attempt s1.position 0x0608 p)

/-- A child group whose master the root misses: its deputy may still take over; when that master was the deputy, or is missed
again, the group is lost and the job halts (R232). -/
def State.missGroup (s : State) (p : Nat) : State :=
  if s.cas.lost.contains p || !(positionsOf (s.blob 0x4030 7)).contains p then s.haltJob 0x0609 0
  else { s with cas := { s.cas with lost := sIns s.cas.lost p } }

/-- HEARTBEAT_TIMEOUT (R232): 500 ms nominal without a heartbeat of a position. -/
def execHeartbeatTimeout (position : Nat) (s : State) : Res :=
  if !s.serving ∨ s.job.left ∨ !s.isMaster then .next s
  else if s.liveMembers.contains position then .next (s.declareLost position)
  else if s.childMasters.contains position then .next (s.missGroup position)
  else if !s.isRoot ∧ position = s.parent then .next { s with cas := { s.cas with rootLive := false } }
  else .next s

/-! Masters (R231, R232, R297). -/

/-- The ARMED package's report goes to its new master (R297). -/
def State.rearm (s : State) : State := if s.weir.st = .armed then s.sayArmed none else s

/-- An ARMED child master's group report goes to the new root, once it has every report of its group (R297). -/
def State.rearmGroup (s : State) : State := if s.weir.st = .armed then s.closeArmed else s

/-- DEPUTY_TAKEOVER (R232, R297): the deputy acts as master in a new epoch, tells every member and the parent (the root's deputy,
the child masters), sends its last GROUP_COMMIT and its own GROUP_ARMED again, and treats the old master as lost. A root made so during a rollback goes
on with the attempt in progress. -/
def execDeputyTakeover (s : State) : Res :=
  if s.serving ∧ s.job.left = false ∧ s.obj 0x4030 4 = s.position ∧ s.isMaster = false ∧ s.isSpare = false then
    let old := s.master
    let e := (s.epoch + 1) % 2 ^ 31
    let s1 : State := { s.setObj 0x4035 3 e with cas := { s.cas with acting := some s.position, rootLive := true } }
    let told := (s1.liveMembers.filter (fun p => p ≠ old)) ++ s1.childMasters ++ (if s1.isRoot then [] else [s1.parent])
    let s2 : State := told.foldl (fun (t : State) (p : Nat) => t.command p 0x4040 7 (leBytes 4 e)) s1
    let s3 : State := if s2.cas.lastCommit = [] then s2
      else (told.filter (fun p => p ≠ s2.parent)).foldl (fun (t : State) (p : Nat) => t.command p 0x4040 0x17 s2.cas.lastCommit) s2
    let s4 : State := if s3.isRoot ∧ s3.job.st = 3 then
        { s3 with cas := { s3.cas with rolling := some ⟨s3.job.step - 1, s3.job.attempt % 16, []⟩ } }
      else s3
    .next (s4.rearm.declareLost old)
  else .next s

/-- A deputy that takes over is the deputy of this group, or, at a master, of another. -/
def fromDeputy (s : State) (r : NapReq) : Bool := match r.source with
  | some q => q = s.obj 0x4030 4 || (s.isMaster && !s.groupMembers.contains q)
  | none => false

/-- TAKEOVER_MASTER (R232): the deputy of the group is obeyed; at a child master the root's deputy is; the root takes the deputy
of a child group for a child master. An older epoch is discarded. -/
def execTakeoverMaster (r : NapReq) (s : State) : Res :=
  s.cascade 7 r fromDeputy (atLeast 4) (fun t p v =>
    let e := wb v 0 0 31
    if e < t.epoch then t
    else
      let t1 := t.setObj 0x4035 3 e
      if p = t.obj 0x4030 4 && t.groupMembers.contains p then { t1 with cas := { t1.cas with acting := some p } }.rearm
      else if t.isRoot then { t1 with cas := { t1.cas with kids := some (sIns t.childMasters p) } }
      else { t1 with cas := { t1.cas with parent := some p } }.rearmGroup)

/-- ROOT_LOSS_HALT (R232): 1,000 ms nominal without a root heartbeat halt a running job. -/
def execRootLossHalt (s : State) : Res :=
  if s.serving ∧ s.job.left = false ∧ s.isRoot = false ∧ (s.job.st = 1 ∨ s.job.st = 3) then .next (s.haltJob 0x0609 0) else .next s

/-! Fault reports and the root's rollback (R228, R239, R258). -/

/-- Two-byte positions in words, an odd last half 0xFFFF. -/
def packPositions (l : List Nat) : List Byte := l.flatMap (leBytes 2) ++ (if l.length % 2 = 1 then [0xFF, 0xFF] else [])

/-- *ROLLBACK value*. -/
def rollbackValue (target attempt : Nat) (lost : List Nat) : List Byte :=
  wordsLE (stepWords target ++ [attempt % 16 + lost.length * 2 ^ 16]) ++ packPositions lost

/-- A ROLLBACK whose count agrees with its length. -/
def rollbackOk (v : List Byte) : Bool := decide (12 ≤ v.length) && v.length = 12 + (wb v 2 16 13 + 1) / 2 * 4

/-- The lost positions of a ROLLBACK. -/
def rollbackLost (v : List Byte) : List Nat := (List.range (wb v 2 16 13)).map (fun i => fld v (12 + 2 * i) 2)

/-- The root writes ROLLBACK, to its deputy first. -/
def State.writeRollback (s : State) (r : Rollback) : State :=
  { s with cas := { s.cas with rolling := some r } }.down true 0x0B (rollbackValue r.target r.attempt r.lost)

/-- Positions put together, rising. -/
def joinLost (l : List Nat) (p : Nat) : List Nat := if p = 0xFFFF then l else sIns l p

/-- The third failed layout phase (R228): the job halts, at the root with LAYOUT_FAILED, and every package discards the change and
the phase's fresh pages. -/
def State.layoutFailed (s : State) : State :=
  let s0 := if s.isRoot then s.haltJob 0x060D 0 else s.stopCores.setJobState 2
  let s1 := s0.discardFresh
  { s1.setObj 0x4034 1 (s1.obj 0x4035 1) with
    trib := Trib.reset,
    next := s1.next.filter (fun (e : Nat × StVal) => !atLayout e.1),
    load := if s1.loadLayout then [] else s1.load,
    loadLayout := false,
    cas := { s1.cas with layoutFails := 0, rolling := none } }

/-- The attempt that the root is in: that of the rollback it has written. -/
def State.rootAttempt (s : State) : Nat := match s.cas.rolling with
  | some r => r.attempt
  | none => s.job.attempt % 16

/-- A job that can roll back: it runs, rolls back, or is held by a cut. -/
def State.rollable (s : State) : Bool := s.job.st = 1 || s.job.st = 3 || (s.job.st = 2 && s.ckpt.held)

/-- The root acts on a fault report (R239): a stale one is ignored; one in its attempt joins the rollback in progress, or starts
one at COMMITTED_STEP. -/
def State.rootFault (s : State) (attempt lost : Nat) : State :=
  if attempt ≠ s.rootAttempt ∨ (!s.rollable && s.cas.rolling.isNone) then s
  else match s.cas.rolling with
    | some r =>
      if lost = 0xFFFF then s
      else
        let s1 := { s with cas := { s.cas with restarts := s.cas.restarts.filter (fun (x : Nat × Nat) => x.1 ≠ lost) } }
        s1.writeRollback { r with lost := joinLost r.lost lost }
    | none =>
      let s1 := match s.ckpt.cut with
        | some c => if c.sure && lost ≠ 0xFFFF then s.down false 0x12 (wordsLE (stepWords c.step ++ [0])) else s
        | none => s
      { s1 with cas := { s1.cas with restarts := [] } }.writeRollback ⟨s.job.committed, (s.job.attempt + 1) % 16, joinLost [] lost⟩

/-- FAULT_REPORT (R232, R239, R395): a master notes a lost member of its group and passes the report on unchanged. -/
def execFaultReport (r : NapReq) (s : State) : Res :=
  s.cascade 8 r fromBelow (atLeast 8) (fun t _ v =>
    let lost := wb v 1 16 16
    let mine := lost ≠ 0xFFFF && t.groupMembers.contains lost && !t.cas.lost.contains lost && wb v 0 0 4 = t.job.attempt % 16
    let t1 := if mine then { t with cas := { t.cas with lost := sIns t.cas.lost lost } }.record { code := 0x0608, cls := .note, d0 := lost }
      else t
    if !t1.isRoot then t1.command t1.upward 0x4040 8 v
    else
      let t2 := if t1.childMasters.contains lost then
          { t1 with cas := { t1.cas with kids := some (t1.childMasters.filter (fun p => p ≠ lost)) } }
        else t1
      t2.rootFault (wb v 0 0 4) lost)

/-! Spares (R233, R234). -/

/-- What a master knows of a position from the last group commit: a word of its GROUP_ARMED value. -/
def State.knownWord (s : State) (p i : Nat) : Option Nat :=
  (s.cas.known.find? (fun (e : Nat × List Byte) => e.1 = p)).map (fun (e : Nat × List Byte) => wd e.2 i)

/-- The TAKEOVER value for a lost position: its links and holder as the last group commit gave them, and a CTRL_ROUTE that no
message has told the master (a free value). -/
def State.takeoverValue (s : State) (p : Nat) : List Byte × State :=
  let link := fun (i : Nat) => (s.knownWord p (20 + i)).getD (Config.freeNat (s.free + i) % 2 ^ 16)
  let holder := (s.knownWord p 26).getD (Config.freeNat (s.free + 6)) % 2 ^ 16
  (wordsLE ((p + holder * 2 ^ 16) :: (List.range 6).map link)
    ++ (List.range 4096).map (fun i => Config.freeByte (s.free + 7) i), { s with free := s.free + 8 })

/-- Spares that hold no position and are not lost, in assignment order. -/
def State.freeSpares (s : State) : List Nat :=
  s.spares.filter (fun p => !s.cas.taken.any (fun (x : Nat × Nat) => x.1 = p) && !s.cas.lost.contains p)

/-- One lost position takes the first free spare; with none, or with its holder lost too, the job halts (R233, R234). -/
def State.assignSpare (s : State) (all : List Nat) (p : Nat) : State :=
  let holder := s.knownWord p 26
  if holder.any (fun h => h % 2 ^ 16 = 0xFFFF || all.contains (h % 2 ^ 16)) then s.haltJob 0x060B 0
  else match s.freeSpares with
    | [] => s.haltJob 0x060A 0
    | q :: _ =>
      let v := s.takeoverValue p
      { v.2 with cas := { v.2.cas with taken := v.2.cas.taken ++ [(q, p)], lost := sDel v.2.cas.lost p } }.command q 0x4040 6 v.1

/-- The master's part of a ROLLBACK: spares for the lost positions of its group, in rising order, and a new report for a
position that the root has not named. -/
def State.coverLost (s : State) (all : List Nat) : State :=
  let mine := s.nonSpares.filter (fun p => p ≠ s.position)
  let need := (all.foldl sIns []).filter (fun p => mine.contains p &&
    (s.cas.lost.contains p || !s.cas.taken.any (fun (x : Nat × Nat) => x.2 = p)))
  let s1 := need.foldl (fun (t : State) (p : Nat) => if t.job.st = 2 then t else t.assignSpare all p) s
  (s1.cas.lost.filter (fun p => mine.contains p && !all.contains p)).foldl (fun (t : State) (p : Nat) =>
    t.command t.upward 0x4040 8 (faultReportValue t.job.attempt t.position 0x0608 p)) s1

/-! Rollback (R161, R225, R240, R244 to R247, R251, R298, R305). -/

/-- A core's tables as the boundary of a step left them. -/
def CoreState.tablesAt (k : CoreState) (step : Nat) : CoreState :=
  { k with
    tableCopy := ((k.tablePast.find? (fun (x : Nat × List Host.Cell) => x.1 = step)).map
      (fun (x : Nat × List Host.Cell) => x.2)).getD k.tableCopy,
    tablePast := k.tablePast.filter (fun (x : Nat × List Host.Cell) => x.1 ≤ step) }

/-- The version tables as the boundary of a step left them: those before the verdict of the step after it, without their
PENDING slots and holders. -/
def State.versionsAt (s : State) (step : Nat) : SMap (List VSlot) :=
  let l := match s.verBefore.find? (fun (e : Nat × SMap (List VSlot)) => step < e.1) with
    | some e => e.2
    | none => s.versions
  l.map (fun (e : Nat × List VSlot) => (e.1, dropHolders (freePending e.2)))

/-- The cut of a step after T is discarded, also one whose result has been sent, and due again at the replayed step (R251). -/
def State.dropCut (s : State) (target : Nat) : State :=
  match s.ckpt.cut with
  | some c =>
    if target < c.step then
      let s1 := { s.endCut 1 with cas := { s.cas with ckptDone := [] } }
      { s1 with ckpt := { s1.ckpt with due := some (c.step, s.ckpt.halt, c.slot), held := false } }
    else s
  | none => s

/-- The ports in use (R215): LINK_MAP names a peer, and that peer is authenticated. -/
def State.portsInUse (s : State) : List Nat :=
  (List.range s.part.ports).filter (fun p => bitOf (s.obj 0x7020 p) 15 && s.portTo (bits (s.obj 0x7020 p) 0 12) = some p)

/-- Pages in rising order cut into stripes of consecutive pages, one for each port in use, as even as their number allows
(R246). Without a port in use they wait at port 0. -/
def State.stripes (s : State) (pages : List BuddyPage) : List (Nat × List BuddyPage) :=
  let ps := if s.portsInUse = [] then [0] else s.portsInUse
  let n := (pages.length + ps.length - 1) / ps.length
  if pages = [] then [] else (ps.zipIdx.map (fun x => (x.1, (pages.drop (n * x.2)).take n))).filter (fun x => x.2 ≠ [])

/-- The package as a holder: images after T and partial images go (R244); image T of a lost position is to be sent to its spare
(R246), and without it the job halts (R234, R245). -/
def State.holdBack (s : State) (target : Nat) (lost : List Nat) : State :=
  let copies := s.buddy.copies.map (fun (c : Copy) => { c with
    images := c.images.filter (fun (i : Nat × List BuddyPage × List Byte) => i.1 ≤ target),
    coming := none,
    asked := [],
    ending := none })
  let s1 := { s with buddy := { s.buddy with copies := copies, held := [] } }
  copies.foldl (fun (t : State) (c : Copy) =>
    if !lost.contains c.source then t
    else match c.images with
      | [] => t.haltJob 0x060B 0
      | i :: _ =>
        if i.1 < target then t.haltJob 0x060C 0
        else { t with buddy := { t.buddy with transfer := some ⟨c.source, i.1, t.stripes i.2.1, i.2.2⟩ } }) s1

/-- The package's own drains after a rollback: those of later steps go, the one in progress begins anew, and the whole copy
goes again where none is complete or the holder is lost (R234, R243, R244). -/
def State.drainBack (s : State) (target : Nat) (lost : List Nat) : State :=
  if !s.hasImage || lost.contains s.holder then s.fullDrain target
  else
    let kept := s.buddy.queue.filter (fun (e : Nat × List Nat × List Byte) => e.1 ≤ target)
    let again := match kept with
      | [] => []
      | e :: rest => (e.1, s.stateKeys.filter (fun k => match s.page k with
          | some p => p.written = e.1 % 2 ^ 32
          | none => false), e.2.2) :: rest
    { s with buddy := { s.buddy with queue := again, config := [] } }.setObj 0x8006 3 (Nat.min target (s.obj 0x8006 3))

/-- RESTART_READY written to the group master (R240 item 6). -/
def State.sayRestart (s : State) : State :=
  s.command s.master 0x4040 0x0C (restartReadyValue s.job.attempt s.position s.job.committed false)

/-- Items 1 to 5 of R240. A rollback that ends a layout phase counts among its failures, and the third discards the change (R228). -/
def State.rollBack (s0 : State) (target attempt : Nat) (lost : List Nat) : State :=
  let fails := s0.cas.layoutFails + b01 s0.trib.layout
  let s : State := { s0 with cas := { s0.cas with layoutFails := fails } }
  let s1 := if s.job.committed < target then s.commitStep target (s.cas.skipped.contains target) else s
  let s2 := { s1 with cores := s1.cores.map (fun (c : Nat × CoreState) => (c.1, (c.2.tablesAt target).restart)) }.substituteAll
  if s2.job.left then s2
  else
    let s3 := (s2.discardFresh.forgetPast.dropCut target)
    let base := mget s3.job.mbBase s3.job.bases (target + 1)
    let s4 := { s3 with
      versions := s3.versionsAt target,
      verBefore := [],
      job := { s3.job with
        step := target + 1, attempt := attempt, mbBase := base, readied := target,
        bases := s3.job.bases.filter (fun (e : Nat × Nat) => e.1 ≤ target + 1) },
      cas := { s3.cas with decided := target, skipped := [], readies := [] } }
    let s5 := ((((s4.forgetStep.recreateStreams).undoCommits target).clearStepObjects).reseed (target + 1))
    let s6 := (((((s5.addObj 0x8005 2 32 1).setObj 0x8005 3 target).setJobState 3).drainBack target lost).countLag).holdBack target lost
    if s0.trib.layout && decide (3 ≤ fails) then s6.layoutFailed else s6

/-- The package acts on a ROLLBACK: once for each attempt; the same attempt again brings more lost positions. A spare that holds
no position keeps the step and the attempt for its TAKEOVER. -/
def State.actRollback (s : State) (target attempt : Nat) (lost : List Nat) : State :=
  let s1 :=
    if s.isSpare then
      let base := Config.freeNat s.free
      { s with
        job := { s.job with
          step := target + 1, attempt := attempt, committed := target, readied := target, mbBase := base,
          bases := [(target + 1, base)] },
        free := s.free + 1 }
    else if s.job.st = 3 ∧ s.job.attempt % 16 = attempt then
      let t := s.holdBack target lost
      let u := if lost.contains t.holder then t.fullDrain target else t
      if u.buddy.arriving.isSome ∨ u.job.st = 2 then u else u.sayRestart
    else if s.rollable ∨ s.job.st = 2 then
      let t := s.rollBack target attempt lost
      if t.job.left ∨ t.job.st = 2 then t else t.sayRestart
    else s
  if s1.isMaster && !s1.job.left then
    (if s1.isRoot then s1 else { s1 with cas := { s1.cas with restarts := [] } }).coverLost lost
  else s1

/-- ROLLBACK (R239, R240): a master passes it on first, spares included. -/
def execRollback (r : NapReq) (s : State) : Res :=
  s.cascade 0x0B r fromAbove rollbackOk (fun t _ v =>
    let t1 := if t.isRoot then t else t.down true 0x0B v
    t1.actRollback (stepOf v) (wb v 2 0 4) (rollbackLost v))

/-- TAKEOVER (R233, R246, R247): a spare adopts the position, its links, its routes and its holder, and waits for the pages. -/
def execTakeover (r : NapReq) (s : State) : Res :=
  s.cascade 6 r fromAbove (atLeast 4124) (fun t _ v =>
    if !t.isSpare then t
    else
      let t1 := t.adopt atJobStart
      let t2 := (List.range t1.part.ports).foldl (fun (u : State) (n : Nat) => u.setObj 0x7020 n (wd v (1 + n))) t1
      let t3 := (((t2.setObj 0x4030 1 (wb v 0 0 12)).setObj 0x4030 9 0).setObj 0x4030 0x0A (wb v 0 16 16)).setBlob 0x7021 0
        ((v.drop 28).take 4096)
      let t4 := (t3.setObj 0x8006 3 (t3.job.step - 1)).setObj 0x8006 4 0
      let t5 := t4.recheckPeers
      { t5 with cas := { t5.cas with adopting := !t5.peersPass }, buddy := { t5.buddy with arriving := some [], asked := [], ending := none, queue := [], config := [] } }.setJobState 3)

/-! Readiness and restart (R240, R242, R300). -/

/-- *RESTART value*. -/
def restartValue (step attempt : Nat) : List Byte := wordsLE (stepWords step ++ [attempt % 16])

/-- The lowest of the committed steps reported. -/
def lowestOf (l : List (Nat × Nat)) : Nat := match l with
  | [] => 0
  | x :: rest => rest.foldl (fun (n : Nat) (y : Nat × Nat) => Nat.min n y.2) x.2

/-- The highest of the committed steps reported. -/
def highestOf (l : List (Nat × Nat)) : Nat := l.foldl (fun (n : Nat) (y : Nat × Nat) => Nat.max n y.2) 0

/-- A RESTART_READY counts: of the rollback in progress, or of a halted job that a new description names (R242). -/
def State.readyCounts (s : State) (attempt : Nat) : Bool :=
  if s.isRoot then match s.cas.rolling with
    | some r => attempt = r.attempt
    | none => s.job.st = 2
  else (s.job.st = 3 && attempt = s.job.attempt % 16) || s.job.st = 2

/-- The root takes its cut again at the replayed step (R251): every member hears of it, also one that took a lost position. -/
def State.recut (s : State) : State :=
  match s.ckpt.due with
  | some d => s.down false 0x0F (cutAtValue d.1 d.2.1 d.2.2)
  | none => s

/-- Every RESTART_READY that a master awaits has come: a child master reports for its group; the root writes RESTART, or, for a
halted job, ROLLBACK to the highest step reported (R242). -/
def State.closeRestart (s : State) : State :=
  if !s.reporters.all (fun p => s.cas.restarts.any (fun (x : Nat × Nat) => x.1 = p)) then s
  else
    let l := s.cas.restarts
    let s1 := { s with cas := { s.cas with restarts := [] } }
    if !s.isRoot then s1.command s1.parent 0x4040 0x0C (restartReadyValue s1.job.attempt s1.position (lowestOf l) true)
    else match s.cas.rolling with
      | some r => ({ s1 with cas := { s1.cas with rolling := none } }.down false 0x0D (restartValue (r.target + 1) r.attempt)).recut
      | none => s1.writeRollback ⟨highestOf l, (s1.job.attempt + 1) % 16, []⟩

/-- RESTART_READY (R240, R242). -/
def execRestartReady (r : NapReq) (s : State) : Res :=
  s.cascade 0x0C r fromBelow (atLeast 12) (fun t _ v =>
    if !t.readyCounts (wb v 0 0 4) then t
    else
      let l := (t.cas.restarts.filter (fun (x : Nat × Nat) => x.1 ≠ wb v 0 16 12)) ++ [(wb v 0 16 12, fld v 4 8)]
      { t with cas := { t.cas with restarts := l } }.closeRestart)

/-- The job goes on at its step: the layout phase where a change is due, else the cores (R228, R240). -/
def State.goOn (s : State) : State :=
  let s1 := s.setJobState 1
  if s1.layoutPending && (s1.obj 0x4001 1 ≠ 1 || s1.stageMbs.isEmpty) then s1.beginLayout else s1.startCores s1.job.step

/-- A job starts (R43, R59, R90, R93, R161, R235, R243, R300): what waited for it takes force, tables come from the images,
streams, versions and counters start anew, and the whole buddy copy is due. -/
def State.beginJob (s : State) (step attempt : Nat) : State :=
  let s1 := (s.substituteAll.adopt (fun _ => true)).recheckPeers
  let s2 := { s1.commitFresh.forgetPast with
    cores := s1.cores.map (fun (c : Nat × CoreState) =>
      (c.1, { c.2 with tableCopy := imageTables c.2.image, tablePast := [(step - 1, imageTables c.2.image)] }.restart)),
    versions := [],
    verBefore := [],
    job := { s1.job with
      step := step, attempt := attempt, mbBase := 0, seed := s1.obj 0x5001 1, committed := step - 1, readied := step - 1,
      bases := [(step, 0)], restored := none, haltAfter := false },
    cas := { s1.cas with
      decided := step - 1, skipped := [], readies := [], restarts := [], rolling := none, layoutFails := 0, ending := none },
    ckpt := { s1.ckpt with seq := 0, held := false },
    weir := { s1.weir with shadows := [], replays := [] } }
  let s3 := (((((s2.forgetStep.recreateStreams).clearStepObjects).reseed step).setObj 0x8005 2 0).setObj 0x4020 3 0).setObj 0x4035 4 s2.stateGib
  ((s3.announceDeliveries).fullDrain (step - 1)).goOn

/-- RESTART (R240, R250, R300): a master passes it on; a job starts, replays, or is resumed. A replay that a cut holds stays
halted. -/
def execRestart (r : NapReq) (s : State) : Res :=
  s.cascade 0x0D r fromAbove (atLeast 12) (fun t _ v =>
    let t1 := if t.isRoot then t else t.down false 0x0D v
    let step := stepOf v
    let attempt := wb v 2 0 4
    if t1.isSpare then t1
    else if t1.job.st = 3 ∧ attempt = t1.job.attempt % 16 then
      if t1.ckpt.held then (t1.setJobState 2).runCores
      else (t1.announceDeliveries.goOn).fixNoticed
    else if t1.job.st = 2 ∧ t1.ckpt.held ∧ step = t1.job.step then
      ({ t1.restartCores with ckpt := { t1.ckpt with held := false } }.goOn).fixNoticed
    else if t1.job.st = 0 ∨ t1.job.st = 2 then t1.beginJob step attempt
    else t1)

/-! Job control (R300). -/

/-- A group commit or a load set awaits its instant, or a GROUP_COMMIT its answers (R295, R300). -/
def State.commitWaits (s : State) : Bool :=
  s.weir.st = .armed || s.weir.st = .pending || s.load ≠ [] || s.commitOpen

/-- JOB_START (R300). -/
def execJobStart (r : NapReq) (s : State) : Res :=
  s.serveCommand 0x4002 1 r (commandReply r blobLimit byOwner (writeOne (fun t =>
    if t.job.st = 1 ∨ t.job.st = 3 ∨ t.commitWaits then .no t stBusy 0
    else if !t.isRoot then .no t stRange 0
    else .ok (t.down false 0x0D (restartValue (t.job.restored.getD 0 + 1) 0)))))

/-- JOB_END (R300): at the root; a halted job ends at once. -/
def execJobEnd (r : NapReq) (s : State) : Res :=
  s.serveCommand 0x4002 2 r (commandReply r blobLimit byOwner (writeOne (fun t =>
    if !t.isRoot then .no t stRange 0
    else if t.job.st = 2 then .ok (({ t with ckpt := { t.ckpt with held := false } }.setJobState 0).quiesce)
    else if t.job.st = 1 ∨ t.job.st = 3 then .ok { t with cas := { t.cas with ending := some t.job.step } }
    else .ok t)))

end Sys2Proof.Machine
end

