-- ==== Sys2Proof/Machine/Buddy.lean ====
section
/-! DEFINITION. Buddy replication as it runs (R243 to R245, R376) and the takeover transfer (R246, R247). -/

namespace Sys2Proof.Machine

/-! Sending (R243, R244, R246). -/

/-- Bytes of a takeover transfer counted. -/
def State.countTakeover (s : State) (n : Nat) : State := s.addObj 0x8006 6 64 n

/-- The next record of a takeover transfer, to the spare that holds the lost position: the stripes take turns, each on its own
port, and the record that ends the image leaves last by CTRL_ROUTE (R246). -/
def State.sendTransfer (s : State) (x : Transfer) : State :=
  match x with
  | ⟨p, step, [], config⟩ =>
    ({ s with buddy := { s.buddy with transfer := none } }.countTakeover config.length).emitBkg p 3 (pageRecord step 0 2 0 config)
  | ⟨p, step, (_, []) :: others, config⟩ => { s with buddy := { s.buddy with transfer := some ⟨p, step, others, config⟩ } }
  | ⟨p, step, (n, y :: rest) :: others, config⟩ =>
    let left := if rest = [] then others else others ++ [(n, rest)]
    ({ s with buddy := { s.buddy with transfer := some ⟨p, step, left, config⟩ } }.countTakeover y.bytes.length).emitBkgOn n p 3
      (pageRecord step y.address (b01 y.tile) y.count y.bytes)

/-- The next record of the oldest drain: its next page, or, after the last, the record that ends it. A page with a lost line is
not sent (R210), and its drain goes no further. -/
def State.sendDrain (s : State) : State :=
  match s.buddy.queue with
  | [] => s
  | (step, [], config) :: rest =>
    { s with buddy := { s.buddy with queue := rest } }.emitBkg s.holder 3 (pageRecord step 0 2 0 config)
  | (step, k :: ks, config) :: rest =>
    let s1 := { s with buddy := { s.buddy with queue := (step, ks, config) :: rest } }
    match s.page k with
    | none => s1
    | some _ =>
      let x := s.judgePage step k
      if x.1 then x.2
      else
        let t := x.2
        { t with buddy := { t.buddy with queue := (step, ks, config) :: rest } }.emitBkg s.holder 3
          (pageRecord step (k / 2) (k % 2) (s.keyTiles k) (t.pageAtStep k step))

/-- BUDDY_PAGE_SEND (R244, R246): a takeover transfer goes first, and the drains pause between ROLLBACK and RESTART. -/
def execBuddyPageSend (s : State) : Res :=
  if !s.serving ∨ s.job.left then .next s
  else match s.buddy.transfer with
    | some x => .next (s.sendTransfer x)
    | none => if s.job.st = 3 then .next s else .next s.sendDrain

/-! The holder (R244). -/

/-- BUDDY_PAGE_RECEIVE (R244): a page goes to a fresh Backwater frame; the record that ends the image of a step completes it,
and BUDDY_ACK is written. A record whose CRC fails is asked for again, and without a frame the drain waits. -/
def execBuddyPageReceive (source : Nat) (page : PageRecord) (s0 : State) : Res :=
  if s0.job.left then .next s0
  else
    let s := s0.retryHeld
    if !pageGood page then .next (s.askPage source (s.copyOf source) page)
    else if s.buddy.held.any (fun x => x.1 = source) then .next (s.holdPage source page)
    else .next ((s.takePage source page).getD (s.holdPage source page))

/-- BUDDY_ACK is written by the holder that BUDDY_POSITION names (R263). -/
def fromHolder (s : State) (r : NapReq) : Bool := r.source = some s.holder

/-- BUDDY_ACK (R237, R245): the newest complete image. One for a drain that is still being sent, or for a step that a rollback
has undone, is out of date. A holder that has lost the copy makes the full drain due (R243, R320). -/
def execBuddyAck (r : NapReq) (s : State) : Res :=
  s.cascade 0x13 r fromHolder (atLeast 8) (fun t _ v =>
    let n := fld v 0 8
    if n = imageLost then t.fullDrain t.applied
    else if t.applied < n ∨ t.buddy.queue.any (fun (e : Nat × List Nat × List Byte) => e.1 ≤ n) ∨ (t.hasImage ∧ n ≤ t.obj 0x8006 3) then t
    else ((t.setObj 0x8006 3 n).setObj 0x8006 4 (t.applied - n)).sayReady)

/-! The spare (R247). -/

/-- The raw tiles of a tile page's compressed tiles. -/
def rawTiles (f : TileFmt) (n : Nat) (bs : List Byte) : List (List Byte) :=
  (packedWalk bs n 0).1.map (fun o => (unpackTile f (bs.drop o)).getD [])

/-- A page of an image written at its logical address, with the step of the image. -/
def State.writeImagePage (s : State) (step : Nat) (p : BuddyPage) : State :=
  let s1 := { s with job := { s.job with step := step } }
  let s2 := if p.tile then match s.regionAt p.address with
      | some r => ((rawTiles r.form p.count p.bytes).zipIdx).foldl (fun (t : State) (x : List Byte × Nat) =>
          (t.writeTiered .hub (p.address + x.2 * r.form.stride) (padTo r.form.stride x.1)).getD t) s1
      | none => s1
    else (s1.writeTiered .hub p.address p.bytes).getD s1
  { s2 with job := { s2.job with step := s.job.step } }

/-- A configuration record put in force as committed state, and its load set (R247). -/
def State.applyConfig (s : State) (config : List Byte) : State :=
  let x := recordParse config.length config
  let l := x.1.map (fun (e : Nat × List Byte) => (e.1, valueOf e.1 e.2))
  let s1 := (l.foldl (fun (t : State) (e : Nat × StVal) => t.force e.1 e.2) { s with next := [] }).reprofiled l
  let s2 := if x.2 = [] then s1 else s1.applySet x.2
  { s2.recheckPeers with job := { s2.job with seed := s2.obj 0x5001 1 } }

/-- The spare has its whole image: the configuration record and the load set are applied, the pages written, and readiness is
reported (R247). -/
def State.takePosition (s : State) (pages : List BuddyPage) (step : Nat) (config : List Byte) : State :=
  let s1 := { s with buddy := { s.buddy with arriving := none, asked := [], ending := none } }.applyConfig config
  let s2 := pages.foldl (fun (t : State) (p : BuddyPage) => t.writeImagePage step p) s1
  ((s2.setObj 0x4035 4 s2.stateGib).reseed s2.job.step).sayRestart

/-- TAKEOVER_PAGE_RECEIVE (R247): a spare keeps the pages of the image and, once the record that ends it and every record asked
for again have come, applies the configuration record and the load set, writes the pages, and reports that it is ready. A record
whose CRC fails is asked for again. -/
def execTakeoverPageReceive (page : PageRecord) (s : State) : Res :=
  match s.buddy.arriving with
  | none => .next s
  | some l =>
    let asked := s.buddy.asked.filter (fun x => x ≠ pageAsk page)
    if !pageGood page then
      .next ({ s with buddy := { s.buddy with asked := asked ++ [pageAsk page] } }.emit
        (.resend s.position page.step page.address (pageKind page)))
    else
      let s0 := { s with buddy := { s.buddy with asked := asked } }.countTakeover (pageBody page).length
      if page.lastPage then
        .next (if asked = [] then s0.takePosition l page.step page.config
          else { s0 with buddy := { s0.buddy with ending := some (page.step, page.config) } })
      else
        let l1 := pageIns ⟨page.address, page.tilePage, page.tileCount, page.bytes, ⟨tierBw, 0, 0⟩⟩ l
        .next (match asked, s.buddy.ending with
          | [], some e => s0.takePosition l1 e.1 e.2
          | _, _ => { s0 with buddy := { s0.buddy with arriving := some l1 } })

end Sys2Proof.Machine
end

