-- ==== Sys2Proof/Machine/CoreAlu.lean ====
section
/-! DEFINITION. The control core's ALU, ALUI, LUI, MEM, BR and JR instructions, and reserved encodings (R143). -/

namespace Sys2Proof.Machine

/-- RESERVED_INSTRUCTION: a reserved class, function or register encoding is a PROGRAM_FAULT (R143). The word does not
change what happens. -/
def execReservedInstruction (core : Nat) (_word : BitVec 32) (s : State) : Res :=
  if s.runs core then .next (s.programFault core causeReserved) else .next s

/-- ADD: the sum modulo 2^64 (R143). -/
def addFn (a b : Word64) : Word64 := a + b

/-- SUB: the difference modulo 2^64 (R143). -/
def subFn (a b : Word64) : Word64 := a - b

/-- AND: the bitwise AND (R143). -/
def andFn (a b : Word64) : Word64 := a &&& b

/-- OR: the bitwise OR (R143). -/
def orFn (a b : Word64) : Word64 := a ||| b

/-- XOR: the bitwise exclusive OR (R143). -/
def xorFn (a b : Word64) : Word64 := a ^^^ b

/-- SHL: s[RA] shifted left by bits [5:0] of the second operand (R143). -/
def shlFn (a b : Word64) : Word64 := a <<< shamt b

/-- SHR: s[RA] shifted right logically (R143). -/
def shrFn (a b : Word64) : Word64 := a >>> shamt b

/-- SRA: s[RA] shifted right arithmetically (R143). -/
def sraFn (a b : Word64) : Word64 := a.sshiftRight (shamt b)

/-- MUL: the low 64 bits of the product (R143). -/
def mulFn (a b : Word64) : Word64 := a * b

/-- MULHU: the high 64 bits of the unsigned product (R143). -/
def mulhuFn (a b : Word64) : Word64 := BitVec.ofNat 64 (a.toNat * b.toNat / 2 ^ 64)

/-- SLT: 1 on a signed less-than, else 0 (R143). -/
def sltFn (a b : Word64) : Word64 := if a.slt b then 1 else 0

/-- SLTU: 1 on an unsigned less-than, else 0 (R143). -/
def sltuFn (a b : Word64) : Word64 := if a.ult b then 1 else 0

/-- MIN: the signed minimum (R143). -/
def minFn (a b : Word64) : Word64 := if a.slt b then a else b

/-- MAX: the signed maximum (R143). -/
def maxFn (a b : Word64) : Word64 := if a.slt b then b else a

/-- ADD (R143). -/
def execAdd (core : Nat) (rd ra rb : Reg) (s : State) : Res := aluReg addFn core rd ra rb s

/-- SUB (R143). -/
def execSub (core : Nat) (rd ra rb : Reg) (s : State) : Res := aluReg subFn core rd ra rb s

/-- AND (R143). -/
def execAnd (core : Nat) (rd ra rb : Reg) (s : State) : Res := aluReg andFn core rd ra rb s

/-- OR (R143). -/
def execOr (core : Nat) (rd ra rb : Reg) (s : State) : Res := aluReg orFn core rd ra rb s

/-- XOR (R143). -/
def execXor (core : Nat) (rd ra rb : Reg) (s : State) : Res := aluReg xorFn core rd ra rb s

/-- SHL (R143). -/
def execShl (core : Nat) (rd ra rb : Reg) (s : State) : Res := aluReg shlFn core rd ra rb s

/-- SHR (R143). -/
def execShr (core : Nat) (rd ra rb : Reg) (s : State) : Res := aluReg shrFn core rd ra rb s

/-- SRA (R143). -/
def execSra (core : Nat) (rd ra rb : Reg) (s : State) : Res := aluReg sraFn core rd ra rb s

/-- MUL (R143). -/
def execMul (core : Nat) (rd ra rb : Reg) (s : State) : Res := aluReg mulFn core rd ra rb s

/-- MULHU (R143). -/
def execMulhu (core : Nat) (rd ra rb : Reg) (s : State) : Res := aluReg mulhuFn core rd ra rb s

/-- SLT (R143). -/
def execSlt (core : Nat) (rd ra rb : Reg) (s : State) : Res := aluReg sltFn core rd ra rb s

/-- SLTU (R143). -/
def execSltu (core : Nat) (rd ra rb : Reg) (s : State) : Res := aluReg sltuFn core rd ra rb s

/-- MIN (R143). -/
def execMin (core : Nat) (rd ra rb : Reg) (s : State) : Res := aluReg minFn core rd ra rb s

/-- MAX (R143). -/
def execMax (core : Nat) (rd ra rb : Reg) (s : State) : Res := aluReg maxFn core rd ra rb s

/-- FADD: the FP32 sum of bits [31:0] (R118, R143). -/
def execFadd (core : Nat) (rd ra rb : Reg) (s : State) : Res := aluReg (fpOp (fadd)) core rd ra rb s

/-- FMUL: the FP32 product of bits [31:0] (R118, R143). -/
def execFmul (core : Nat) (rd ra rb : Reg) (s : State) : Res := aluReg (fpOp (fmul)) core rd ra rb s

/-- FMAX: the FP32 maximum by R88 of bits [31:0] (R118, R143). -/
def execFmax (core : Nat) (rd ra rb : Reg) (s : State) : Res := aluReg (fpOp (fmaxB)) core rd ra rb s

/-- FLT: the FP32 less-than, 1 or 0 of bits [31:0] (R118, R143). -/
def execFlt (core : Nat) (rd ra rb : Reg) (s : State) : Res := aluReg (fpOp (fun a b => b01 (fltB a b))) core rd ra rb s

/-- ADDI: ADD with the sign-extended immediate (R143). -/
def execAddi (core : Nat) (rd ra : Reg) (imm : BitVec 12) (s : State) : Res := aluImm addFn core rd ra imm s

/-- SUBI: SUB with the sign-extended immediate (R143). -/
def execSubi (core : Nat) (rd ra : Reg) (imm : BitVec 12) (s : State) : Res := aluImm subFn core rd ra imm s

/-- ANDI: AND with the sign-extended immediate (R143). -/
def execAndi (core : Nat) (rd ra : Reg) (imm : BitVec 12) (s : State) : Res := aluImm andFn core rd ra imm s

/-- ORI: OR with the sign-extended immediate (R143). -/
def execOri (core : Nat) (rd ra : Reg) (imm : BitVec 12) (s : State) : Res := aluImm orFn core rd ra imm s

/-- XORI: XOR with the sign-extended immediate (R143). -/
def execXori (core : Nat) (rd ra : Reg) (imm : BitVec 12) (s : State) : Res := aluImm xorFn core rd ra imm s

/-- SHLI: SHL with the sign-extended immediate (R143). -/
def execShli (core : Nat) (rd ra : Reg) (imm : BitVec 12) (s : State) : Res := aluImm shlFn core rd ra imm s

/-- SHRI: SHR with the sign-extended immediate (R143). -/
def execShri (core : Nat) (rd ra : Reg) (imm : BitVec 12) (s : State) : Res := aluImm shrFn core rd ra imm s

/-- SRAI: SRA with the sign-extended immediate (R143). -/
def execSrai (core : Nat) (rd ra : Reg) (imm : BitVec 12) (s : State) : Res := aluImm sraFn core rd ra imm s

/-- MULI: MUL with the sign-extended immediate (R143). -/
def execMuli (core : Nat) (rd ra : Reg) (imm : BitVec 12) (s : State) : Res := aluImm mulFn core rd ra imm s

/-- MULHUI: MULHU with the sign-extended immediate (R143). -/
def execMulhui (core : Nat) (rd ra : Reg) (imm : BitVec 12) (s : State) : Res := aluImm mulhuFn core rd ra imm s

/-- SLTI: SLT with the sign-extended immediate (R143). -/
def execSlti (core : Nat) (rd ra : Reg) (imm : BitVec 12) (s : State) : Res := aluImm sltFn core rd ra imm s

/-- SLTUI: SLTU with the sign-extended immediate (R143). -/
def execSltui (core : Nat) (rd ra : Reg) (imm : BitVec 12) (s : State) : Res := aluImm sltuFn core rd ra imm s

/-- MINI: MIN with the sign-extended immediate (R143). -/
def execMini (core : Nat) (rd ra : Reg) (imm : BitVec 12) (s : State) : Res := aluImm minFn core rd ra imm s

/-- MAXI: MAX with the sign-extended immediate (R143). -/
def execMaxi (core : Nat) (rd ra : Reg) (imm : BitVec 12) (s : State) : Res := aluImm maxFn core rd ra imm s

/-- Bits [16q + 15 : 16q] of a register replaced (LUI, R143). -/
def luiFn (q : BitVec 2) (imm : BitVec 16) (a : Word64) : Word64 :=
  BitVec.ofNat 64 (setBits a.toNat (16 * q.toNat) 16 imm.toNat)

/-- LUI: IMM16 into one quarter of RD, the other bits unchanged (R143). -/
def execLui (core : Nat) (quarter : BitVec 2) (rd : Reg) (imm : BitVec 16) (s : State) : Res :=
  if s.runs core then .next (s.writeAdvance core rd (luiFn quarter imm ((s.core core).reg rd))) else .next s

/-- LD8 (R143). -/
def execLd8 (core : Nat) (rd ra : Reg) (imm : BitVec 14) (s : State) : Res := loadN 1 core rd ra imm s

/-- LD16 (R143). -/
def execLd16 (core : Nat) (rd ra : Reg) (imm : BitVec 14) (s : State) : Res := loadN 2 core rd ra imm s

/-- LD32 (R143). -/
def execLd32 (core : Nat) (rd ra : Reg) (imm : BitVec 14) (s : State) : Res := loadN 4 core rd ra imm s

/-- LD64 (R143). -/
def execLd64 (core : Nat) (rd ra : Reg) (imm : BitVec 14) (s : State) : Res := loadN 8 core rd ra imm s

/-- ST8 (R143). -/
def execSt8 (core : Nat) (rs ra : Reg) (imm : BitVec 14) (s : State) : Res := storeN 1 core rs ra imm s

/-- ST16 (R143). -/
def execSt16 (core : Nat) (rs ra : Reg) (imm : BitVec 14) (s : State) : Res := storeN 2 core rs ra imm s

/-- ST32 (R143). -/
def execSt32 (core : Nat) (rs ra : Reg) (imm : BitVec 14) (s : State) : Res := storeN 4 core rs ra imm s

/-- ST64 (R143). -/
def execSt64 (core : Nat) (rs ra : Reg) (imm : BitVec 14) (s : State) : Res := storeN 8 core rs ra imm s

/-- BEQ (R143). -/
def execBeq (core : Nat) (ra rb : Reg) (offset : BitVec 14) (s : State) : Res :=
  branchIf (fun a b => decide (a = b)) core ra rb offset s

/-- BNE (R143). -/
def execBne (core : Nat) (ra rb : Reg) (offset : BitVec 14) (s : State) : Res :=
  branchIf (fun a b => decide (a ≠ b)) core ra rb offset s

/-- BLT (R143). -/
def execBlt (core : Nat) (ra rb : Reg) (offset : BitVec 14) (s : State) : Res :=
  branchIf (fun a b => a.slt b) core ra rb offset s

/-- BGE (R143). -/
def execBge (core : Nat) (ra rb : Reg) (offset : BitVec 14) (s : State) : Res :=
  branchIf (fun a b => !a.slt b) core ra rb offset s

/-- BLTU (R143). -/
def execBltu (core : Nat) (ra rb : Reg) (offset : BitVec 14) (s : State) : Res :=
  branchIf (fun a b => a.ult b) core ra rb offset s

/-- BGEU (R143). -/
def execBgeu (core : Nat) (ra rb : Reg) (offset : BitVec 14) (s : State) : Res :=
  branchIf (fun a b => !a.ult b) core ra rb offset s

/-- CALL: PC + 1 into s31, then the branch (R143). -/
def execCall (core : Nat) (offset : BitVec 14) (s : State) : Res :=
  if s.runs core then
    let k := s.core core
    .next ((s.setCore core (k.setReg 31 (BitVec.ofNat 64 (k.pc.toNat + 1)))).jump core (brTarget k offset))
  else .next s

/-- JR: the PC becomes bits [15:0] of s[RA] and RD the link PC + 1 (R143). -/
def execJr (core : Nat) (rd ra : Reg) (s : State) : Res :=
  if s.runs core then
    let k := s.core core
    .next ((s.setCore core (k.setReg rd (BitVec.ofNat 64 (k.pc.toNat + 1)))).jump core ((k.reg ra).toNat % 65536))
  else .next s

end Sys2Proof.Machine
end

