-- ==== Sys2Proof/Machine/Kolfin.lean ====
section
/-! DEFINITION. Kolfin (R16 to R23, R313 to R315) and the fencing of a compute die (R316, R317). -/

namespace Sys2Proof.Machine

/-- The reference of a delay counter is locked (R32, R384): CDn's is its Kolfin reference. HD's counter takes REFCLK_HUB, which feeds
every Kolfin PHY and has no clocked domain of its own: it is lost when no Kolfin domain is locked. -/
def State.refLocked (s : State) (unit : Nat) : Bool :=
  if unit = 8 then (List.range s.part.dies).any (fun n => s.power.locked.contains (kolfinDomain n))
  else s.power.locked.contains (kolfinDomain unit)

/-- A delay counter whose reference has lost lock holds, with an uncalibrated-delay event (R32). -/
def State.counterHolds (s : State) (unit : Nat) : State :=
  if s.obj 0xA120 unit = 0 ∧ !s.refLocked unit then
    (s.setObj 0xA120 unit 1).record { code := 0x0506, cls := .degraded, die := unit }
  else s

/-! Fencing (R317). -/

/-- Every descriptor of a core's queues completes with a DIE_ABSENT token that names the die. -/
def State.absentCore (s : State) (c d : Nat) : State :=
  [0, 1, 2, 3, 4, 5, 6].foldl (fun (t : State) (q : Nat) =>
    (((t.core c).queue q).waiting).foldl (fun (u : State) (x : Desc) => u.failDesc c q x tokDieAbsent d) t) s

/-- What waits at one sender waits at another from now on. -/
def State.moveQueues (s : State) (a b : Nat) : State :=
  let x := s.arb a
  let y := s.arb b
  if a = b ∨ x.queues = [] then s
  else (s.setArb b (x.queues.foldl (fun (z : Arbiter) (e : Nat × List KPacket) =>
    e.2.foldl (fun (w : Arbiter) (p : KPacket) => w.add e.1 p) z) y)).setArb a { x with queues := [] }

/-- A link at width 0, not to be retrained until its die resets or rejoins (R315). What waits at a ring link takes the hub path
(R18). -/
def State.linkDown (s : State) (n : Nat) : State :=
  let t := (s.setLink n { s.link n with st := .down }).setObj 0x7010 n 0
  if n < 0x10 then t
  else (t.moveQueues n (n - 0x10)).moveQueues (n + 0x10) ((n - 0x10 + 1) % s.part.dies)

/-- HD fences a compute die (R317): the ring links to it go to width 0, what waits on it completes with DIE_ABSENT, its cores'
CORE_STATE stays as the fence found it, and DIE_FENCED is recorded. A die that is not in service is fenced already. -/
def State.fence (s : State) (d cause : Nat) : State :=
  if !s.dieUp d then s
  else
    let s1 := (s.linkDown (0x10 + d)).linkDown (0x10 + (d + s.part.dies - 1) % s.part.dies)
    let s2 := (List.range 14).foldl (fun (t : State) (c : Nat) =>
      (t.setObj 0x4012 (16 * d + c) (t.core (16 * d + c)).run.code).absentCore (16 * d + c) d) s1
    let s3 := { s2 with
      trib := { s2.trib with deliver := s2.trib.deliver.filter (fun (x : Nat × GradTile) => x.1 ≠ d) },
      cores := s2.cores.map (fun (c : Nat × CoreState) => if c.1 / 16 = d then (c.1, { c.2 with run := .idle }) else c) }
    ((s3.setObj 0x8010 d 1).setObj 0x8010 (0x10 + d) (cause % 65536)).event
      { code := 0x0503, cls := .fault, selfLost := true, die := d, d0 := cause % 65536 }

/-- DIE_FENCE (R317). -/
def execDieFence (die cause : Nat) (s : State) : Res := .next (if s.serving then s.fence die cause else s)

/-- KEEPALIVE_TIMEOUT (R316): the die resets itself and is fenced. No event code of this cause is named: a free value stands
in DIE_FENCE_CAUSE. -/
def execKeepaliveTimeout (die : Nat) (s : State) : Res :=
  .next (if s.serving ∧ s.dieUp die then s.fresh.2.fence die (Config.freeNat s.fresh.1) else s)

/-! Links. -/

/-- Lanes of a link (R18, R314). -/
def linkMax (n : Nat) : Nat := if n < 0x10 then 64 else 32

/-- The dies at the compute end or ends of a link. -/
def State.linkDies (s : State) (n : Nat) : List Nat := if n < 0x10 then [n] else [n - 0x10, (n - 0x10 + 1) % s.part.dies]

/-- A link may be retrained: it is not at width 0, or a die at its end is rejoining (R313, R315). -/
def State.canRetrain (s : State) (n : Nat) : Bool :=
  (s.link n).st ≠ .down || (s.linkDies n).any (fun d => s.obj 0x8010 d = 2)

/-- A link's DEGRADED event (R314, R315). -/
def State.linkDegraded (s : State) (n width : Nat) (limping : Bool) : State :=
  s.record { code := 0x0502, cls := .degraded, die := if n < 0x10 then n else n - 0x10, d0 := n, d1 := width + b01 limping * 2 ^ 31 }

/-- The consequence of width 0: a hub link fences its die (R315, R316). -/
def State.linkLost (s : State) (n : Nat) : State :=
  let s1 := s.linkDown n
  if n < 0x10 then s1.fence n 0x0502 else s1

/-- A lane offer or echo frame (*Lane offer frame*) of this end: HD of a hub link, CDn of the ring link CDn to CD(n + 1). -/
def offerWords (n mask : Nat) (echo : Bool) (attempt : Nat) : List (BitVec 32) :=
  let ws := [mask % 2 ^ 32, mask / 2 ^ 32 % 2 ^ 32,
    linkMax n + b01 echo * 2 ^ 7 + attempt * 2 ^ 8 + (if n < 0x10 then 8 else n - 0x10) * 2 ^ 16]
  (ws ++ [crc32 (wordsLE ws)]).map (fun w => BitVec.ofNat 32 w)

/-- Set bits of a lane mask. -/
def lanesOf (mask : Nat) : List Nat := upto 64 (bitOf mask)

/-- The width that a mask agrees to (R314). -/
def widthOf (n mask : Nat) : Nat :=
  ([64, 32, 16, 8, 4, 1].find? (fun w => w ≤ linkMax n && w ≤ (lanesOf mask).length)).getD 0

/-- The agreed mask: the lowest-numbered set bits, as many as the width. -/
def agreedMask (n mask : Nat) : Nat := ((lanesOf mask).take (widthOf n mask)).foldl (fun (a : Nat) (i : Nat) => a + 2 ^ i) 0

/-- KOLFIN_RETRAIN (R313): both PHYs are reset, the lane test runs, and this end offers the lanes that it received clean. -/
def execKolfinRetrain (link : Nat) (cleanLanes : BitVec 64) (s : State) : Res :=
  if !s.serving ∨ !s.hasLink link ∨ !s.canRetrain link then .next s
  else
    let l := s.link link
    let mask := cleanLanes.toNat % 2 ^ linkMax link
    let going := match l.st with
      | .testing => true
      | .offered => true
      | .echoed => true
      | _ => false
    let l1 := { l with st := .offered, attempt := if going then l.attempt else 0, mask := mask, before := if going then l.before else none }
    let s1 := ((s.setLink link l1).addObj 0x8017 link 32 1).record { code := 0x0501, cls := .note, d0 := link }
    .next (s1.emit (.laneOffer link (offerWords link mask false l1.attempt)))

/-- The asks of both receivers of a link forgotten: the count of R313 begins anew when the link comes up or falls to limping. -/
def State.clearAsks (s : State) (n : Nat) : State :=
  (s.setLink n { s.link n with asks := [] }).setLink (0x80 + n) { s.link (0x80 + n) with asks := [] }

/-- An attempt that did not agree: the link retrains, or after the fifth falls to limping (R314, R315). -/
def State.linkRetry (s : State) (n : Nat) (before : Option Nat) : State :=
  let l := s.link n
  if l.attempt < 4 then s.setLink n { l with st := .testing, attempt := l.attempt + 1, before := before }
  else (((s.setLink n { l with st := .limping }).clearAsks n).setObj 0x7010 n 1).linkDegraded n 1 true

/-- A good lane frame: four words whose CRC holds. -/
def laneFrameOk (words : List (BitVec 32)) : Bool := match words with
  | [a, b, c, d] => crc32 (wordsLE [a.toNat, b.toNat, c.toNat]) = d.toNat
  | _ => false

/-- LANE_OFFER_RECEIVE (R314): an offer is answered by the echo of the agreed mask; an echo that equals it brings the link up. -/
def execLaneOfferReceive (link : Nat) (words : List (BitVec 32)) (s : State) : Res :=
  if !s.serving ∨ !s.hasLink link ∨ !laneFrameOk words then .next s
  else
    let l := s.link link
    let w := fun (i : Nat) => (words.getD i 0).toNat
    let peer := w 0 + w 1 * 2 ^ 32
    let both := l.mask &&& peer
    match l.st, bitOf (w 2) 7 with
    | .offered, false =>
      if l.before.any (fun b => b ≠ both) then .next (s.linkRetry link (some both))
      else
        let a := agreedMask link both
        .next ((s.setLink link { l with st := .echoed, agreed := a, before := some both }).emit
          (.laneOffer link (offerWords link a true l.attempt)))
    | .echoed, true =>
      if peer ≠ l.agreed then .next (s.linkRetry link l.before)
      else
        let n := (lanesOf l.agreed).length
        let s1 := ((s.setLink link { l with st := .up, attempt := 0, before := none }).clearAsks link).setObj 0x7010 link n
        let s2 := if n < linkMax link then s1.linkDegraded link n false else s1
        .next (if n = 0 then s2.linkLost link else s2)
    | _, _ => .next s

/-- LANE_OFFER_TIMEOUT (R314). -/
def execLaneOfferTimeout (link : Nat) (s : State) : Res :=
  let l := s.link link
  if s.serving ∧ s.hasLink link ∧ (l.st = .offered ∨ l.st = .echoed) then .next (s.linkRetry link l.before) else .next s

/-! Frames (R16, R20 to R22). -/

/-- The link of a receiver or sender. Receivers: `n` is HD's on the hub link of CDn and 0x80 + n that of CDn; 0x10 + n is
CD(n + 1)'s on the ring link CDn to CD(n + 1) and 0x90 + n that of CDn. -/
def rxLink (rx : Nat) : Nat := rx % 0x80

/-- The sender at the same end as a receiver: 0x40 + n the hub-switch output to CDn, `n` CDn's on its hub link, 0x10 + n CDn's and
0x20 + n CD(n + 1)'s on the ring link. -/
def txOf (rx : Nat) : Nat :=
  if rx < 0x10 then 0x40 + rx else if rx < 0x20 then rx + 0x10 else rx - 0x80

/-- Credit granted to an arbiter, by channel. -/
def Arbiter.grant (a : Arbiter) (credits : List Nat) : Arbiter :=
  { a with credit := (credits.zipIdx).foldl (fun (m : SMap Nat) (x : Nat × Nat) =>
      if x.2 < 6 then mset 0 m x.2 (mget 0 m x.2 + x.1) else m) a.credit }

/-- A frame delivered: its credits go to the sender at this end, and at HD a packet for another compute die goes on through the
hub switch (R17). -/
def State.deliverFrame (s : State) (rx : Nat) (f : KolfinFrame) : State :=
  let s1 := s.setArb (txOf rx) ((s.arb (txOf rx)).grant f.credits)
  let d := Config.kolfinDest f.payload
  if rx < 0x10 ∧ d < s.part.dies ∧ d ≠ rx ∧ s.dieUp d ∧ s.dieUp rx ∧ f.vc < 6 then
    s1.setArb (0x40 + d) ((s1.arb (0x40 + d)).add f.vc ⟨rx, 0, f.payload⟩)
  else s1

/-- More than 16 replays asked for among the last 65,536 frames (R313): the link is to be retrained; a limping one goes to width
0 (R315). -/
def State.replayBudget (s : State) (n : Nat) (asks : List Nat) : State :=
  if asks.length ≤ 16 then s
  else
    let l := s.link n
    if l.st = .limping then s.linkLost n else s.setLink n { l with st := .testing, attempt := 0, before := none }

/-- KOLFIN_FRAME_RECEIVE (R16): the next frame with a good CRC is delivered; any other is discarded and a replay asked for. A frame
passes through the boundary queue of the link's PHY within the step; while that is full the clocked side withholds credit, so
that no frame comes (R27). -/
def execKolfinFrameReceive (link : Nat) (frame : KolfinFrame) (s : State) : Res :=
  let n := rxLink link
  if !s.serving ∨ 0x98 ≤ link ∨ !s.linkRuns n ∨ s.boundaryFull (rxQueue (kolfinDomain ((s.linkDies n).headD 0))) then .next s
  else
    -- the receiver at the far end has a record of its own, as the link itself has the near one's
    let l := s.link link
    let k := l.frames + 1
    let old := l.asks.filter (fun x => k < x + 65536)
    if frame.crcGood ∧ frame.seq = l.rxSeq then
      .next ((s.setLink link { l with frames := k, asks := old, rxSeq := l.rxSeq + 1 }).deliverFrame link frame)
    else
      let asks := old ++ [k]
      let s1 := (s.setLink link { l with frames := k, asks := asks }).addObj 0x8016 n 64 1
      .next ((s1.emit (.kolfinReplay link l.rxSeq)).replayBudget n asks)

/-- The fraction of frames of VC5, in per cent, by profile (R319). -/
def bkgPercent : Nat → Nat
  | 0 => 5
  | 1 => 10
  | _ => 20

/-- A channel with a packet and credit (R20). -/
def Arbiter.ready (a : Arbiter) (vc : Nat) : Bool := mget [] a.queues vc ≠ [] && mget 0 a.credit vc ≠ 0

/-- The channel that an arbiter picks (R21), and the arbiter with its shares counted. R21 gives weights and a fraction alone; DESIGN
CHOICE (assumption 177): the lowest-numbered ready channel with quota left sends until its quota is spent, quotas are filled again
when no ready channel has any, and VC5's fraction is held over all frames sent since reset while it and another channel waited. -/
def Arbiter.pick (a : Arbiter) (percent : Nat) : Option Nat × Arbiter :=
  let fg := [0, 1, 2, 3].filter a.ready
  if a.ready 4 then (some 4, a)
  else if fg = [] then (if a.ready 5 then some 5 else none, a)
  else
    let both := a.ready 5
    let a1 := if both then { a with rounds := a.rounds + 1 } else a
    if both ∧ (a.bkg + 1) * 100 ≤ percent * (a.rounds + 1) then (some 5, { a1 with bkg := a.bkg + 1 })
    else
      let left := fg.filter (fun vc => a.quota.getD vc 0 ≠ 0)
      let q := if left = [] then [3, 4, 4, 4] else a.quota
      let vc := ((if left = [] then fg else left).head?).getD 0
      (some vc, { a1 with quota := lset q vc (q.getD vc 0 - 1) })

/-- The oldest packet of a channel: the highest age, and of equal ages the lower input (R22). -/
def oldest (l : List KPacket) : Option KPacket :=
  l.foldl (fun (o : Option KPacket) (p : KPacket) => match o with
    | none => some p
    | some q => if q.age < p.age ∨ (q.age = p.age ∧ p.input < q.input) then some p else some q) none

/-- The packets of an arbiter that lost a round: one older, up to 255 (R22). DESIGN CHOICE (assumption 178): a packet whose channel
has no credit has lost the round too. -/
def Arbiter.aged (a : Arbiter) : Arbiter :=
  { a with queues := a.queues.map (fun (e : Nat × List KPacket) =>
      (e.1, e.2.map (fun (p : KPacket) => { p with age := Nat.min 255 (p.age + 1) }))) }

/-- The compute die whose Kolfin PHYs a sender uses: at a hub link the die's own domain holds both ends. -/
def txDie (dies sender : Nat) : Nat :=
  if sender < 0x10 then sender else if sender < 0x20 then sender - 0x10
  else if sender < 0x40 then (sender - 0x20 + 1) % dies else sender - 0x40

/-- KOLFIN_FRAME_SEND (R21, R22): a link sender or hub-switch output sends its next frame. -/
def execKolfinFrameSend (sender : Nat) (s : State) : Res :=
  if !s.serving ∨ 0x48 ≤ sender ∨ !s.linkRuns (txLink sender) ∨ (0x40 ≤ sender ∧ !s.dieUp (sender - 0x40)) then .next s
  else
    let p := (s.arb sender).pick (bkgPercent (s.obj 0xA001 2))
    match p.1 with
    | none => .next s
    | some vc =>
      let l := mget [] p.2.queues vc
      match oldest l with
      | none => .next s
      | some x =>
        let a := ({ p.2 with
          queues := mset [] p.2.queues vc (l.erase x),
          credit := mset 0 p.2.credit vc (mget 0 p.2.credit vc - 1) }).aged
        .next (((s.setArb sender a).boundarySend (kolfinDomain (txDie s.part.dies sender)) x.payload).emit (.kolfin sender vc x.payload))

end Sys2Proof.Machine
end

