-- ==== Sys2Proof/Machine/Restore.lean ====
section
/-! DEFINITION. Restores (R259 to R262, R360, R371, R395). -/

namespace Sys2Proof.Machine

/-! Manifests and candidate steps (R258, R261, R360). -/

/-- A manifest that a restore trusts, with the slot image that it heads. -/
structure OldManifest where
  position  : Nat
  step      : Nat
  layout    : Nat
  /-- JOB_POSITIONS. -/
  positions : Nat
  image     : List Byte
deriving DecidableEq, Repr

/-- The public key under which a SIGNER_KEY_ID is trusted: this package's own manifest key, or a TRUSTED_SIGNER entry
(R360). -/
def State.signerKey (s : State) (id : List Byte) : Option (List Byte) :=
  if s.manifestKey ≠ [] ∧ sha3 s.manifestKey = id then some s.manifestKey
  else (s.blobs.find? (fun (e : Nat × List Byte) => 0x9040 ≤ e.1 / 256 && e.1 / 256 ≤ 0x904F && e.2.take 32 = id)).map
    (fun (e : Nat × List Byte) => (e.2.drop 32).take 1312)

/-- The manifest at the head of a slot image, if its magic, key and signature hold (R261 step 1). -/
def State.oldManifest (s : State) (b : List Byte) : Option OldManifest :=
  let n := wd b 16
  if wd b 0 ≠ 0x4E394D46 then none
  else match s.signerKey ((b.drop 32).take 32) with
    | none => none
    | some k =>
      if Config.mldsaVerify k (b.take n) ((b.drop n).take (wd b 17)) then
        some ⟨wb b 5 0 12, fld b 8 8, wd b 4, wb b 5 16 13, b⟩
      else none

/-- The manifests that a restore trusts. -/
def State.oldManifests (s : State) (r : Restore) : List OldManifest :=
  r.images.filterMap (fun (i : SlotImage) => match i.image with
    | .data b => s.oldManifest b
    | .failed _ => none)

/-- Old positions of which a read has failed: the failure counts at step 3 (R371). -/
def Restore.unread (r : Restore) : List Nat :=
  (r.images.filter (fun (i : SlotImage) => dmaBytes i.image = none)).map (fun (i : SlotImage) => i.position)

/-- A candidate step: every old position has a manifest of it, and all agree on LAYOUT_GEN (R261 step 2). -/
def candidateOk (ms : List OldManifest) (unread : List Nat) (step : Nat) : Bool :=
  let l := ms.filter (fun (m : OldManifest) => m.step = step)
  match l with
  | [] => false
  | m :: _ => l.all (fun x => x.layout = m.layout) &&
      (List.range m.positions).all (fun p => l.any (fun x => x.position = p) || unread.contains p)

/-- The step that a restore takes: the highest candidate that has not failed, or the requested one. -/
def Restore.choose (r : Restore) (ms : List OldManifest) : Option Nat :=
  let l := (ms.map (fun (m : OldManifest) => m.step)).filter (fun n => candidateOk ms r.unread n && !r.failed.contains n)
  if r.requested ≠ 0 ∧ l.contains r.requested then some r.requested
  else match l with
    | [] => none
    | x :: rest => some (rest.foldl Nat.max x)

/-! Old shards (R255, R261 step 3, R262). -/

/-- A shard of the step restored. A shard whose STEP or payload hash is wrong is not good. -/
structure OldShard where
  position : Nat
  logical  : Nat
  kind     : Nat
  header   : List Byte
  payload  : List Byte
  good     : Bool
deriving DecidableEq, Repr

/-- The shards that a manifest lists. -/
def OldManifest.shards (m : OldManifest) : List OldShard :=
  (List.range (wd m.image 6)).map (fun i =>
    let e := (m.image.drop (128 + 64 * i)).take 64
    let h := (m.image.drop (fld e 24 8)).take 128
    let p := (m.image.drop (fld e 24 8 + 128)).take (wd h 15)
    let hash := sha3 p
    ⟨m.position, wd e 2, wb e 1 0 8, h, p,
      fld h 8 8 = m.step && p.length = wd h 15 && hash = (h.drop 80).take 32 && hash = (e.drop 32).take 32⟩)

/-- The order in which a restore takes old shards: by POSITION, then DIE. -/
def OldShard.rank (h : OldShard) : Nat := 8 * h.position + wb h.header 5 12 3

/-- A shard put in that order. -/
def oldIns (x : OldShard) : List OldShard → List OldShard
  | [] => [x]
  | y :: l => if x.rank < y.rank then x :: y :: l else y :: oldIns x l

/-- The shards of a step, in order: for each position its first manifest. -/
def shardsOf (ms : List OldManifest) (step : Nat) : List OldShard :=
  let l := (ms.filter (fun (m : OldManifest) => m.step = step)).foldl (fun (acc : List OldManifest) (m : OldManifest) =>
    if acc.any (fun x => x.position = m.position) then acc else acc ++ [m]) []
  (l.flatMap OldManifest.shards).foldl (fun (acc : List OldShard) (h : OldShard) => oldIns h acc) []

/-- The slice of a shard holds the element at logical coordinates. -/
def OldShard.covers (h : OldShard) (row col : Nat) : Bool :=
  wd h.header 8 ≤ row && row < wd h.header 8 + wb h.header 10 0 24 && wd h.header 9 ≤ col && col < wd h.header 9 + wb h.header 11 0 24

/-- A shard has a tile of its slice, by index. -/
def OldShard.has (h : OldShard) (tile : Nat) : Bool := wd h.header 12 ≤ tile && tile < wd h.header 12 + wd h.header 13

/-- The index in a shard's slice of the tile at logical coordinates. -/
def OldShard.tileIx (h : OldShard) (row col : Nat) : Nat :=
  (row - wd h.header 8) / 64 * ((wb h.header 11 0 24 + 63) / 64) + (col - wd h.header 9) / 64

/-- The tile form of a shard. -/
def OldShard.form (h : OldShard) : TileFmt := ⟨wb h.header 14 0 4, wb h.header 14 7 1 = 1, wb h.header 14 4 2, wb h.header 14 6 1⟩

/-- The raw bytes of a tile of a shard. -/
def OldShard.raw (h : OldShard) (tile : Nat) : Option (List Byte) :=
  let offs := (packedWalk h.payload (wd h.header 13) 0).1
  if h.good then
    match offs[tile - wd h.header 12]? with
    | some o => unpackTile h.form (h.payload.drop o)
    | none => none
  else none

/-- The shard of a kind of a logical tensor that holds the tile at logical coordinates. -/
def oldTile (l : List OldShard) (logical kind row col : Nat) : Option (OldShard × Nat) :=
  (l.find? (fun (h : OldShard) => h.logical = logical && h.kind = kind && h.covers row col && h.has (h.tileIx row col))).map
    (fun (h : OldShard) => (h, h.tileIx row col))

/-! Writing the new state (R262). A failure is a status and what RESTORE_STATUS names. -/

/-- Bytes written in fresh pages. -/
def State.restoreWrite (s : State) (die a : Nat) (bs : List Byte) : Except (Nat × Nat) State :=
  match s.freshenAll die (s.piecesOf [(a, bs.length)]) with
  | none => .error (stInvalid, 0)
  | some t => match t.writeTiered .hub a bs with
    | none => .error (stInvalid, 0)
    | some u => .ok u

/-- A working tile remade from its master by round-to-nearest-even (R166). -/
def remake (form : TileFmt) (raw : List Byte) : List Byte :=
  (storeTile form 0 ((loadTile fp32Form 0 raw).map (fun (x : Num) => (⟨x, none, false⟩ : StElem)))).1

/-- The bits of the old tile found, or none where no shard holds one. Its form is the new tile's. -/
def oldBits (form : TileFmt) (logical : Nat) : Option (OldShard × Nat) → Except (Nat × Nat) (Option (List Byte))
  | none => .ok none
  | some (h, t) =>
    if !h.good then .error (stInvalid, h.position)
    else if h.form ≠ form then .error (stInvalid, logical)
    else match h.raw t with
      | some b => .ok (some b)
      | none => .error (stInvalid, h.position)

/-- One tile of a kind restored: master and working weights, moments or residuals. -/
def State.restoreTile (s : State) (l : List OldShard) (die : Nat) (r : TensorRec) (id : Nat × Nat × Nat) (u : TileRun) (i : Nat) :
    Except (Nat × Nat) State := do
  let row := id.2.1 + 64 * (i / trTC r)
  let col := id.2.2 + 64 * (i % trTC r)
  let find := fun (k : Nat) => oldTile l id.1 k row col
  let at' := u.base + i * u.form.stride
  if u.kind = 2 then
    match ← oldBits fp32Form id.1 (find 2) with
    | none => .error (stInvalid, id.1)
    | some b => (← s.restoreWrite die at' b).restoreWrite die (trBase r 4 + i * (trForm r).stride) (remake (trForm r) b)
  else if u.kind = 1 then
    match find 1 with
    | some x => match ← oldBits u.form id.1 (some x) with
      | none => .error (stInvalid, id.1)
      | some b => s.restoreWrite die at' b
    | none => match ← oldBits fp32Form id.1 (find 2) with
      | none => .error (stInvalid, id.1)
      | some b => s.restoreWrite die at' (remake u.form b)
  else
    match ← oldBits u.form id.1 (find u.kind) with
    | none => s.restoreWrite die at' (List.replicate u.form.raw 0)
    | some b => s.restoreWrite die at' b

/-- The old slice of a factor shard is the new slice. -/
def OldShard.exact (h : OldShard) (r : TensorRec) (id : Nat × Nat × Nat) : Bool :=
  h.logical = id.1 && wd h.header 8 = id.2.1 && wd h.header 9 = id.2.2 && wb h.header 10 0 24 = trRows r && wb h.header 11 0 24 = trCols r

/-- The factor shard of a kind of exactly the new slice that has a tile. -/
def factorTile (l : List OldShard) (r : TensorRec) (id : Nat × Nat × Nat) (kind tile : Nat) : Option (OldShard × Nat) :=
  (l.find? (fun (h : OldShard) => h.kind = kind && h.exact r id && h.has tile)).map (fun (h : OldShard) => (h, tile))

/-- The factors of a tensor are carried: one old slice is the new one, and has them. -/
def factorsCarried (l : List OldShard) (r : TensorRec) (id : Nat × Nat × Nat) (us : List TileRun) : Bool :=
  us.all (fun (u : TileRun) => (List.range u.tiles).all (fun i => (factorTile l r id u.kind i).isSome))

/-- One tile of a factor restored. -/
def State.restoreFactor (s : State) (l : List OldShard) (die : Nat) (r : TensorRec) (id : Nat × Nat × Nat) (carried : Bool)
    (u : TileRun) (i : Nat) : Except (Nat × Nat) State := do
  match ← (if carried then oldBits fp32Form id.1 (factorTile l r id u.kind i) else .ok none) with
  | none => s.restoreWrite die (u.base + i * u.form.stride) (List.replicate u.form.raw 0)
  | some b => s.restoreWrite die (u.base + i * u.form.stride) b

/-- The state header restored: APPLIED is the same in every old slice, the rest comes from the slice that holds the new slice's
first element, and STAGNANT becomes 0. Where the old checkpoint has none, the header is that of R163. -/
def restoredHeader (l : List OldShard) (id : Nat × Nat × Nat) (factors : Bool) : Except (Nat × Nat) (List Byte) :=
  let hs := l.filter (fun (h : OldShard) => h.logical = id.1 && h.kind = 10)
  match hs.find? (fun (h : OldShard) => !h.good), hs with
  | some h, _ => .error (stInvalid, h.position)
  | none, [] => .ok (wordsLE ([0, 0x3F800000, 0x3F800000] ++ List.replicate 13 0))
  | none, h0 :: _ =>
    if !hs.all (fun (h : OldShard) => wd h.payload 0 = wd h0.payload 0) then .error (stInvalid, id.1)
    else match hs.find? (fun (h : OldShard) => h.covers id.2.1 id.2.2) with
      | none => .error (stInvalid, id.1)
      | some h =>
        let p := h.payload
        .ok (wordsLE ([wd p 0, wd p 1, wd p 2, if factors then wd p 3 else 0, 0, 0, wd p 6, wd p 7] ++ List.replicate 8 0))

/-- One tensor record restored. -/
def State.restoreTensor (s : State) (l : List OldShard) (die : Nat) (r : TensorRec) : Except (Nat × Nat) State := do
  let id := s.mapEntry die (wb r 0 0 12)
  let tiles := (tileRuns r).filter (fun (u : TileRun) => u.kind < 6)
  let factors := (tileRuns r).filter (fun (u : TileRun) => 6 ≤ u.kind)
  let carried := factorsCarried l r id factors
  let s1 ← tiles.foldlM (fun (t : State) (u : TileRun) =>
    (List.range u.tiles).foldlM (fun (v : State) (i : Nat) => v.restoreTile l die r id u i) t) s
  let s2 ← factors.foldlM (fun (t : State) (u : TileRun) =>
    (List.range u.tiles).foldlM (fun (v : State) (i : Nat) => v.restoreFactor l die r id carried u i) t) s1
  let s3 ← (if trRule r = 0 then .ok s2
    else do
      let h ← restoredHeader l id (trRule r = 5 && carried)
      s2.restoreWrite die (trBase r 8) h)
  if trRule r = 5 && !carried then .ok (s3.record { code := 0x0306, cls := .note, die := die, d0 := id.1 }) else .ok s3

/-- The new state of the package written from the checkpoint of a step. -/
def State.restoreAll (s : State) (ms : List OldManifest) (unread : List Nat) (step : Nat) : Except (Nat × Nat) State :=
  let own := ms.filter (fun (m : OldManifest) => m.step = step)
  let n := match own with
    | m :: _ => m.positions
    | [] => 0
  match (List.range n).find? (fun p => !own.any (fun m => m.position = p) && unread.contains p) with
  | some p => .error (stInvalid, p)
  | none =>
    let l := shardsOf ms step
    s.dies.foldlM (fun (t : State) (d : Nat) =>
      (t.tensorTable d).foldlM (fun (u : State) (r : TensorRec) => u.restoreTensor l d r) t) s

/-! The procedure (R261). -/

/-- RESTORE_STATUS set; a change raises vector 3 (R373). -/
def State.setRestoreStatus (s : State) (v : Nat) : State :=
  if s.obj 0x8007 2 = v then s else (s.setObj 0x8007 2 v).interrupt 3

/-- Steps 2 to 4: a candidate is chosen, the state is written, and RESTORE_READY goes to the master. With no candidate the
restore ends. -/
def State.runRestore (s : State) (r : Restore) : State :=
  let ms := s.oldManifests r
  match r.choose ms with
  | none => { s with restore := none }.setRestoreStatus stInvalid
  | some n =>
    let say := fun (t : State) (result : Nat) =>
      { t with restore := some { r with chosen := some n, reported := true } }.command t.master 0x4040 0x14
        (wordsLE (stepWords n ++ [t.position + result * 2 ^ 24]))
    let s0 := { s with job := { s.job with step := n } }
    match s0.restoreAll ms r.unread n with
    | .ok t => say { t with job := { t.job with step := s.job.step } } 0
    | .error e => say (s.discardFresh.setRestoreStatus (e.1 + e.2 % 2 ^ 24 * 2 ^ 8)) e.1

/-- An entry of a restore list: the old position and the addresses of its slots. -/
def restoreEntry (b : List Byte) : Nat × Nat × Nat := (wb b 0 0 12, fld b 8 8, fld b 16 8)

/-- A failed restore forgotten by the root, whose reports of failure no longer count. -/
def Cascade.newRestore (c : Cascade) : Cascade :=
  { c with restoreReady := c.restoreReady.filter (fun (x : Nat × Nat) => x.2 = 0) }

/-- RESTORE_COMMAND's action (R260, R370, R371). `window` is what the DMA read of the load window gave from the list's first
byte on. -/
def restoreAct (window : DmaRead) (s : State) (_ : NapReq) (v : List Byte) : Reply :=
  if s.job.st = 1 ∨ s.job.st = 3 then .no s stBusy 0
  else
    let s1 := (if s.restore.isSome then s.discardFresh else s).dmaError window
    let s2 := { s1 with restore := none, cas := s1.cas.newRestore }
    match dmaBytes window with
    | none => .ok (s2.setRestoreStatus stInvalid)
    | some all =>
      let bs := all.take (s.pf0Reg 0x10 - leNat v)
      let n := wd bs 0
      if bs.length < 16 + 24 * n then .ok (s2.setRestoreStatus stRange)
      else
        let es := (List.range n).map (fun i => restoreEntry ((bs.drop (16 + 24 * i)).take 24))
        let s3 := { s2 with restore := some ⟨es, fld bs 8 8, [], [], none, false⟩ }
        .ok (es.foldl (fun (t : State) (e : Nat × Nat × Nat) => (t.emit (.hostRead e.2.1 128)).emit (.hostRead e.2.2 128)) s3)

/-- RESTORE_COMMAND (R260). -/
def execRestoreCommand (r : NapReq) (window : DmaRead) (s : State) : Res :=
  s.serveCommand 0x8007 1 r (commandReply r blobLimit byOwner (restoreAct window))

/-- The images of a restore's slots arrive, and it runs. -/
def State.restoreRead (s : State) (slots : List SlotImage) : State :=
  match s.restore with
  | none => s
  | some r =>
    if r.images ≠ [] ∨ r.reported then s
    else
      let l := slots.filter (fun (i : SlotImage) => r.entries.any (fun (e : Nat × Nat × Nat) => e.1 = i.position))
      let s1 := l.foldl (fun (t : State) (i : SlotImage) => t.dmaError i.image) s
      s1.runRestore { r with images := l }

/-- RESTORE_READS_COMPLETE (R261, R262). -/
def execRestoreReadsComplete (slots : List SlotImage) (s : State) : Res := .next (s.restoreRead slots)

/-- A PF0 reset fails the restore that is being read (R373). -/
def State.restoreLost (s : State) : State :=
  match s.restore with
  | none => s
  | some r =>
    if r.images ≠ [] ∨ r.reported then s else { s with restore := none }.setRestoreStatus stInvalid

/-! Its outcome (R261 steps 5 and 6). -/

/-- A report at the root, by its step and sender. -/
def restoreKey (v : List Byte) : Nat := stepOf v * 4096 + wb v 2 0 12

/-- RESTORE_READY (R261, R395): a master passes it on unchanged; the root writes RESTORE_COMMIT when every position reports
success, or at the first failure with the retry flag. -/
def execRestoreReady (r : NapReq) (s : State) : Res :=
  s.cascade 0x14 r fromBelow (atLeast 12) (fun t _ v =>
    if !t.isRoot then t.command t.upward 0x4040 0x14 v
    else
      let n := stepOf v
      let here := t.cas.restoreReady.filter (fun (x : Nat × Nat) => x.1 / 4096 = n)
      let rest := t.cas.restoreReady.filter (fun (x : Nat × Nat) => x.1 / 4096 ≠ n)
      let result := wb v 2 24 8
      if here.any (fun x => x.2 ≠ 0) then t
      else if result ≠ 0 then
        { t with cas := { t.cas with restoreReady := rest ++ [(restoreKey v, result)] } }.down false 0x15 (stepFlagValue n 1)
      else
        let l := (here.filter (fun x => x.1 ≠ restoreKey v)) ++ [(restoreKey v, 0)]
        if t.jobPositions ≤ l.length then
          { t with cas := { t.cas with restoreReady := rest } }.down false 0x15 (stepFlagValue n 0)
        else { t with cas := { t.cas with restoreReady := rest ++ l } })

/-- The restored step is the committed state (R261 step 5). -/
def State.restored (s : State) (n : Nat) : State :=
  let s1 := { s.commitFresh.forgetPast with
    restore := none,
    versions := [],
    verBefore := [],
    job := { s.job with step := n + 1, committed := n, readied := n, restored := some n } }
  (s1.fullDrain n).setRestoreStatus 0

/-- RESTORE_COMMIT (R261): the restored step is committed, or, with the retry flag, the package goes back to step 2 without
it. -/
def execRestoreCommit (r : NapReq) (s : State) : Res :=
  s.cascade 0x15 r fromAbove (atLeast 12) (fun t _ v =>
    let t1 := if t.isMaster && !t.isRoot then t.down false 0x15 v else t
    let n := stepOf v
    match t1.restore with
    | none => t1
    | some x =>
      if wb v 2 0 1 = 0 then (if x.chosen = some n then t1.restored n else t1)
      else
        let y := { x with failed := sIns x.failed n }
        if x.chosen = some n then t1.discardFresh.runRestore { y with chosen := none, reported := false }
        else { t1 with restore := some y })

end Sys2Proof.Machine
end

