-- ==== Sys2Proof/Machine/Reset.lean ====
section
/-! DEFINITION. Reset, the release order and the boot that it runs (R28, R30, R213, R336 to R341, R351 to R353), option bytes
(R342, R343, R365), the save sequence (R345 to R347), thermal trips and rail excursions (R324, R335), and the rejoin of a fenced die
(R318). -/

namespace Sys2Proof.Machine

/-! What a reset leaves (R341). -/

/-- Dictionary values kept through reset: JOB_CKPT_STEP and JOB_CKPT_SLOT, RESET_COUNT, SAVED_STATE, the minimum security versions,
 the spare cores, and the alarm level until step 2 of *Release order*. -/
def keptKey (k : Nat) : Bool :=
  k = objKey 0x8004 4 || k = objKey 0x8004 5 || k = objKey 0xC002 3 || k = objKey 0xC003 2
    || (objKey 0x1012 1 ≤ k && k ≤ objKey 0x1012 6) || k / 256 = 0x8011 || k = objKey 0x9020 1

/-- TRUSTED_MASTER and TRUSTED_SIGNER. -/
def keptBlob (k : Nat) : Bool := k / 256 = 0x9010 || (0x9040 ≤ k / 256 && k / 256 ≤ 0x904F)

/-- Everything but what is kept returns to its reset state; the volatile keys are lost, and so is all clock lock. -/
def State.wipe (s : State) : State :=
  { State.reset with
    part := s.part,
    nv := s.nv,
    dict := s.dict.filter (fun (e : Nat × Nat) => keptKey e.1),
    blobs := s.blobs.filter (fun (e : Nat × List Byte) => keptBlob e.1),
    mem := s.wipeMemory.mem,
    sec := { s.sec with held := s.sec.held.filter (fun k => k < 2) },
    power := { s.power with
      locked := [], env := none, silent := [], limited := [], unmet := false, freshetArmed := true, delays := [] },
    ob := s.ob,
    out := s.out,
    free := s.free,
    pending := s.pending }

/-- A stretch of RESET_N begins (R339). -/
def State.stretch (s : State) (cause : Nat) : State :=
  let t := s.wipe
  { t with power := { t.power with phase := .stretch, cause := cause, resetN := true } }

/-- Power-on reset begins. -/
def State.enterPowerOn (s : State) (cause : Nat) : State :=
  let t := s.wipe
  { t with power := { t.power with phase := .powerOn, cause := cause, hubUp := false, resetN := false, alarmN := false, extest := false } }

/-- POWER_ON_RESET (R337): VAUX falls below 2.9 V; every pin is released and a thermal trip ends. -/
def execPowerOnReset (s : State) : Res :=
  let t := s.enterPowerOn 0
  .next { t with power := { t.power with tripped := false, saveN := false, faultN := false, holdLate := false } }

/-- POWER_ON_RESET_END (R337, R344): a stretch begins and SAVE_N is released. A thermal trip holds power-on reset (R335). -/
def execPowerOnResetEnd (s : State) : Res :=
  if s.power.phase = .powerOn ∧ !s.power.tripped then
    .next { s with power := { s.power with phase := .stretch, resetN := true, saveN := false } }
  else .next s

/-- RESET_N_ASSERT (R338): a low of 3 µs qualifies and one below 2 µs is ignored; between, either may be. During a stretch or a
hold, and in power-on reset, the pin starts nothing. -/
def execResetNAssert (lowNs : Nat) (s : State) : Res :=
  match s.power.phase with
  | .powerOn => .next s
  | .stretch => .next s
  | .hold => .next s
  | _ =>
    if 3000 ≤ lowNs then .next (s.stretch 1)
    else if lowNs < 2000 then .next s
    else
      let f := s.fresh
      .next (if Config.freeNat f.1 % 2 = 1 then f.2.stretch 1 else f.2)

/-- RESET_REQUEST (R336): the owner's write, under LOCK too. The response leaves before the reset. -/
def execResetRequest (r : NapReq) (s : State) : Res :=
  match s.serveCommand 0xC002 1 r (commandReply r blobLimit byOwner (writeOne (fun t =>
    .ok { t with power := { t.power with phase := .stretch } }))) with
  | .next t => .next (if t.power.phase = .stretch ∧ s.serving then t.stretch 2 else t)
  | o => o

/-! Option bytes (R342, R343, R365). -/

/-- A valid copy (R342). -/
def obValid (c : List Byte) : Bool := c.length = 256 && wd c 0 = 0x4E394F42 && wb c 1 0 8 = 1 && wd c 63 = crc32 (c.take 252)

/-- The copy that a reset selects, and OB_SOURCE: 0 A, 1 B, 2 the factory defaults (R342). -/
def SaveStore.selectOb (v : SaveStore) (p : Part) : List Byte × Nat :=
  match obValid v.obA, obValid v.obB with
  | true, true => if wd v.obA 62 < wd v.obB 62 then (v.obB, 1) else (v.obA, 0)
  | true, false => (v.obA, 0)
  | false, true => (v.obB, 1)
  | false, false => (factoryOb p, 2)

/-- PORT_MODE's two bits for each of six ports hold 0 or 1. -/
def portModesOk (w : Nat) : Bool := (List.range 6).all (fun n => bits w (6 + 2 * n) 2 < 2)

/-- BW_RATE within *Backwater channel rates* for BW_DIMMS_PER_CH. -/
def bwRateOk (w : Nat) : Bool :=
  let rate := bits w 8 3
  rate ≤ 4 && (bits w 4 2 < 2 || 2 ≤ rate)

/-- An alarm policy that the one in force allows (R365). -/
def State.alarmPolicyOk (s : State) (w : Nat) : Bool :=
  s.obField 16 0 8 = 0
    || ((List.range 4).all (fun k => s.obField 15 (2 * k) 2 ≤ bits w (2 * k) 2)
      && (s.obField 15 16 1 = 0 || bitOf w 16)
      && bits w 8 8 ≤ s.obField 15 8 8 && (bits w 8 8 ≠ 0 || s.obField 15 8 8 = 0))

/-- A word of a new copy passes its checks (R342, R343, R365, R383). -/
def State.obWordOk (s : State) (c : List Byte) (i : Nat) : Bool :=
  let w := wd c i
  match i with
  | 0 => w = 0x4E394F42
  | 1 => bits w 0 8 = 1 && bits w 8 8 ≤ 2 && 1500 ≤ bits w 16 16 && bits w 16 16 ≤ 3600
  | 2 => 1 ≤ bits w 8 8 && bits w 16 16 = 0
  | 3 => portModesOk w && bits w 18 14 = 0
  | 4 => bits w 24 8 = 0
  | 5 => bits w 24 8 = 0
  | 6 => bits w 4 4 = 0 && bits w 8 8 ≤ 128 && bits w 16 8 ≤ 32 && bits w 24 8 = 0
  | 13 => bits w 16 16 = 0
  | 14 => bits w 0 4 ≤ s.part.bwChannels && bits w 4 2 ≤ 2 && bwRateOk w && bits w 11 21 = 0
  | 15 => (List.range 4).all (fun k => bits w (2 * k) 2 ≤ 2) && bits w 17 15 = 0 && s.alarmPolicyOk w
  | 16 => (bits w 0 8 = 0 || bits w 0 8 = 1 || bits w 0 8 = 0xA5) && (s.obField 16 0 8 ≠ 0xA5 || bits w 0 8 = 0xA5) && bits w 8 24 = 0
  | 17 => (List.range 4).all (fun k => !bitOf w (8 * k + 7))
  | 18 => (List.range 4).all (fun k => !bitOf w (8 * k + 7))
  | 19 => (List.range 3).all (fun k => !bitOf w (8 * k + 7)) && bits w 24 8 = 0
  | 63 => w = crc32 (c.take 252)
  | _ => i < 20 || i = 62 || w = 0

/-- OB_WRITE's action (R343), its outcomes in the order of R275. -/
def obWriteAct (s : State) (_ : NapReq) (v : List Byte) : Reply :=
  if v.length = 256 ∧ (List.range 6).any (fun n => s.part.ports ≤ n && bitOf (wd v 3) n) then .no s stAbsent 0
  else if s.job.st ≠ 0 then .no s stBusy 0
  else if v.length ≠ 256 then .no s stRange 0
  else match (List.range 64).find? (fun i => !s.obWordOk v i) with
    | some i => .no s stInvalid i
    | none =>
      let body := v.take 248 ++ leBytes 4 ((wd s.ob 62 + 1) % 2 ^ 32)
      let new := body ++ leBytes 4 (crc32 body)
      .ok (if s.obj 0xC001 3 = 0 then { s with nv := { s.nv with obB := new } } else { s with nv := { s.nv with obA := new } })

/-- OB_WRITE (R343): it takes effect at the next reset. -/
def execObWrite (r : NapReq) (s : State) : Res := s.serveCommand 0xC001 1 r (commandReply r 256 byOwner obWriteAct)

/-! The release order (R340). -/

/-- HOLDUP_STATE (R347). -/
def State.holdupState (s : State) : Nat :=
  if s.obField 2 0 8 < 10 ∨ 100 < s.obField 2 8 8 then 1 else if s.power.holdLate then 2 else 0

/-- Step 1: the option bytes in force. -/
def State.readOb (s : State) : State :=
  let o := s.nv.selectOb s.part
  { s with ob := o.1 }.setObj 0xC001 3 o.2

/-- The event epoch advanced (R30): where the save store cannot be written the epoch advances in the hub alone. -/
def State.newEpoch (s : State) (writable : Bool) : State :=
  let e := (s.nv.epoch + 1) % 2 ^ 32
  let t := { s with
    log := { s.log with epoch := e, count := 0 },
    nv := { s.nv with epoch := if writable then e else s.nv.epoch, writable := writable } }
  if writable then t else t.record { code := 0x0507, cls := .degraded }

/-- The saved record reported at power-on (R346). -/
def State.reportSaved (s : State) : State :=
  let t := { s with nv := { s.nv with later := false } }
  if !s.nv.later then t.setObj 0xC003 2 0
  else if s.nv.parts = 31 then
    (t.setObj 0xC003 2 1).record { code := 0x0902, cls := .note, d0 := wd s.nv.record 2 }
  else (t.setObj 0xC003 2 2).record { code := 0x0903, cls := .degraded, d0 := s.nv.parts }

/-- The substitution map reapplied (R306). -/
def State.resubstitute (s : State) : State :=
  s.nv.subst.foldl (fun (t : State) (c : Nat) => (t.setObj 0x8012 c 2).setObj 0x8011 (c / 16) 1) s

/-- Step 2: the saved record, the event epoch, the ownership record and the maps; a Backwater key and an empty slot 1's key; the sensors. -/
def State.releaseStores (s : State) (env : BootEnv) : State :=
  let s1 := s.newEpoch env.saveStoreOk
  let s2 := if s1.power.cause = 0 ∨ s1.power.cause = 3 then s1.reportSaved else s1
  let s3 := { (s2.resubstitute.setBlob 0x2002 7 s2.nv.owner) with sec := s2.sec.create 2 }
  let s4 := if s3.hasKey 1 then s3 else s3.newManifestKey.manifestKeyNew
  s4.rereadSensors env.sensors

/-- Step 3 (*Boot sequence*): a bank accepted, measured and started, or recovery. -/
def State.bootStep (s : State) : State :=
  match s.tryBanks s.bankOrder with
  | (none, _) =>
    let t := (s.setObj 0x1012 0x10 0xFF).record { code := 0x0A02, cls := .fault }
    { t.setPf0 0x18 (setBitOf (t.pf0Reg 0x18) 0 true) with power := { t.power with phase := .recovery, faultN := true } }
  | (some (n, l), bad) =>
    let s1 := l.foldl (fun (t : State) (b : List Byte) => t.measure (imageEntry n b)) (s.setObj 0x1012 0x10 n)
    -- the bank's microcode, which step 6 checks for each die, counts here where it passes
    let s2 := { s1.raiseMinimums (l ++ s1.microcode.toList) with power := { s1.power with hubUp := true } }
    bad.foldl (fun (t : State) (x : Nat × Nat) => t.record { code := 0x0A01, cls := .degraded, d0 := x.1 * 256 + x.2 }) s2

/-- The Backwater population found is the one that the option bytes record (R211). -/
def State.bwMatches (s : State) (env : BootEnv) : Bool :=
  env.bwChannels = s.obField 14 0 4 && (env.bwChannels = 0 || (env.bwDimmsPerCh = s.obField 14 4 2 && env.bwDimmSize = s.obField 14 6 2))

/-- A port that PORT_ENABLE puts in use. -/
def State.portEnabled (s : State) (n : Nat) : Bool := n < s.part.ports && s.obField 3 n 1 = 1

/-- The clocked domains that must be locked before NAP answers (R340, R385). -/
def State.neededLocks (s : State) (env : BootEnv) : List Nat :=
  [0] ++ ((List.range 6).filter s.portEnabled).map (fun (n : Nat) => 1 + n) ++ [7]
    ++ (if s.bwMatches env then (List.range env.bwChannels).map (fun (n : Nat) => 8 + n) else [])
    ++ (List.range s.part.dies).map (fun (n : Nat) => 0x20 + n) ++ (List.range s.part.stacks).map (fun (n : Nat) => 0x30 + n)

/-- The Backwater population (R211, R214): none is used where it differs from the option bytes. -/
def State.populate (s : State) (env : BootEnv) : State :=
  if !s.bwMatches env then s.record { code := 0x0407, cls := .degraded, d0 := 2 ^ env.bwChannels - 1 }
  else if env.bwChannels = 0 then s
  else ((s.setObj 0x6001 2 (2 ^ env.bwChannels - 1)).setObj 0x6001 3 (32 * 2 ^ env.bwDimmSize)).setObj 0x6001 4 env.bwDimmsPerCh

/-- Step 6 of *Boot sequence* for a compute die: its microcode accepted and measured, or the die fenced. -/
def State.releaseDie (s : State) (d : Nat) : State :=
  match s.microcode with
  | some b => s.measure (imageEntry s.bootBank b)
  | none => (s.event { code := 0x0A07, cls := .fault, selfLost := true, die := d, d0 := d }).fence d 0x0A07

/-- The PCIe link as it trains anew: whether it comes up, and at what rate and width, is the partner's to say. Flit mode is used at 64
and 128 GT/s, and below where the partner supports it (R368). -/
def State.trainPcie (s : State) : State :=
  let f := s.fresh
  let n := Config.freeNat f.1
  let speed := n % 8
  let width := if speed = 0 then 0 else [16, 8, 4, 1].getD (n / 8 % 4) 1
  let flit := if 6 ≤ speed then 1 else if speed = 0 then 0 else n / 32 % 2
  ((f.2.setObj 0x7001 1 speed).setObj 0x7001 2 width).setObj 0x7001 3 flit

/-- The management link up (R382). -/
def State.mgmtUp (s : State) : State := s.setObj 0x700A 1 (setBits (s.obj 0x700A 1) 0 7 (1 + s.obField 6 2 1))

/-- The profile and its cap at reset, from the option bytes (R327, R332). -/
def State.defaultProfile (s : State) : State :=
  let p := s.obField 1 8 8
  (((s.setObj 0xA001 1 p).setObj 0xA001 2 p).setObj 0xA001 3 (Nat.min (s.obj 0x8006 2) (profileShare p))).setObj 0xA002 1
    (Nat.min (profileCap p) (s.obField 1 16 16))

/-- A hold-up supply that is not 0 recorded (R347). -/
def State.holdupLow (s : State) : State :=
  if s.holdupState = 0 then s else s.record { code := 0x090A, cls := .degraded, d0 := s.holdupState }

/-- Steps 4 to 7, once every domain has locked. -/
def State.releaseRest (s : State) (env : BootEnv) : State :=
  let s1 := (List.range s.part.dies).foldl State.releaseDie (s.populate env)
  let s2 := ((List.range 6).filter s1.portEnabled).foldl (fun (t : State) (n : Nat) => t.setObj 0x7002 n 1) s1.trainPcie.mgmtUp
  let s3 := s2.defaultProfile.holdupLow
  let s4 := s3.measure s3.closingEntry
  { s4 with power := { s4.power with phase := .run, env := none, faultN := s4.power.tripped } }

/-- The release order goes on where the last step allows. -/
def State.releaseOn (s : State) : State :=
  match s.power.phase, s.power.env with
  | .release, some env => if (s.neededLocks env).all s.power.locked.contains then s.releaseRest env else s
  | _, _ => s

/-- The release order begins (R340). -/
def State.release (s : State) (env : BootEnv) : State :=
  let s1 := { s with power := { s.power with phase := .release, env := some env, resetN := false } }
  let s2 := ((s1.addObj 0xC002 3 32 1).setObj 0xC002 2 s1.power.cause).readOb
  let s3 := s2.releaseStores env
  let s4 := if s3.obj 0xC001 3 = 2 then s3.record { code := 0x090B, cls := .degraded } else s3
  s4.bootStep.releaseOn

/-- RESET_STRETCH_END (R339): RESET_N is released; if it still reads low 10 µs later the reset holds. -/
def execResetStretchEnd (pinLow : Bool) (env : BootEnv) (s : State) : Res :=
  if s.power.phase = .stretch then
    .next (if pinLow then { s with power := { s.power with phase := .hold, resetN := false } } else s.release env)
  else .next s

/-- RESET_N_RELEASE (R339). -/
def execResetNRelease (env : BootEnv) (s : State) : Res := .next (if s.power.phase = .hold then s.release env else s)

/-! Clocked domains (R28, R385). -/

/-- The clocked domains of the part. -/
def State.hasDomain (s : State) (d : Nat) : Bool :=
  d = 0 || (1 ≤ d && d < 1 + s.part.ports) || d = 7 || (8 ≤ d && d < 8 + s.part.bwChannels)
    || (0x20 ≤ d && d < 0x20 + s.part.dies) || (0x30 ≤ d && d < 0x30 + s.part.stacks)

/-- A domain in service that has locked again: its interface starts anew. A port retrains (R380); a fenced die stays fenced. -/
def State.domainUp (s : State) (d : Nat) : State :=
  if d = 0 then s.trainPcie
  else if d < 7 then if s.portEnabled (d - 1) then s.setObj 0x7002 (d - 1) 1 else s
  else if d = 7 then s.mgmtUp
  else s

/-- PLL_LOCK (R28): a PLL reports lock and its domain leaves reset. -/
def execPllLock (domain : Nat) (s : State) : Res :=
  if !s.hasDomain domain ∨ s.power.phase = .powerOn ∨ s.power.locked.contains domain then .next s
  else
    let t := { s with power := { s.power with locked := sIns s.power.locked domain } }
    .next (if s.serving then t.domainUp domain else t.releaseOn)

/-- A PF0 function-level reset's effects (R373): every register 0, a host destination of an open cut fails, and a restore that is
being read fails. -/
def State.pf0Reset (s : State) : State :=
  let s1 : State := { s with pf0 := [] }
  let s2 := match s1.ckpt.cut with
    | some c => if c.goes 0 then s1.failCut else s1
    | none => s1
  s2.restoreLost

/-- A PF1 function-level reset's effects (R373): its sessions close, its slots empty, and an owner on it lapses. -/
def State.pf1Reset (s : State) : State :=
  let t := (List.range 32).foldl (fun (t : State) (k : Nat) => match (t.slot k).carrier with
    | .pf1 _ => t.closeSlot k
    | _ => t) s
  { t with nap := { t.nap with rspLen := [], mailbox := [] } }

end Sys2Proof.Machine
end

