-- ==== Sys2Proof/Machine/Supply.lean ====
section
/-! DEFINITION. Loss of a clock (R28), the save sequence (R345 to R347), thermal trips and rail excursions (R324, R335), recovery's
doorbell (R353), and the rejoin of a fenced die (R318). -/

namespace Sys2Proof.Machine

/-! Loss of a clock. -/

/-- Both PCIe functions as at their function-level resets, and the link down (R369). -/
def State.pcieReset (s : State) : State := (s.pf0Reset.pf1Reset.setObj 0x7001 1 0).setObj 0x7001 2 0

/-- What a domain that returns to local reset takes with it: its boundary queues are emptied (R28). CDn's delay counter holds, and its
hub link goes to width 0, which fences the die (R32, R316). A stack's interface and a Backwater channel hold no other state that
the spec names. -/
def State.domainLost (s0 : State) (d : Nat) : State :=
  let s := s0.boundaryLost d
  if d = 0 then s.pcieReset.setObj 0x7001 3 0
  else if d < 7 then if s.portEnabled (d - 1) then s.portDown (d - 1) 4 else s
  else if d = 7 then s.setObj 0x700A 1 (setBits (s.obj 0x700A 1) 0 7 0)
  else if 0x20 ≤ d ∧ d < 0x28 then
    let n := d - 0x20
    (((s.counterHolds n).counterHolds 8).linkDown n).fence n 0x0505
  else s

/-- PLL_LOCK_LOSS (R28, R385): a domain in service returns to local reset. -/
def execPllLockLoss (domain : Nat) (s : State) : Res :=
  if !s.power.locked.contains domain then .next s
  else
    let t := { s with power := { s.power with locked := sDel s.power.locked domain } }
    .next (if s.serving then (t.record { code := 0x0505, cls := .degraded, d0 := domain }).domainLost domain else t)

/-! The save sequence (R345, R346). -/

/-- Part 2, the manifest record: the manifest header as far as it was written, then CKPT_STEP, the target slot, CKPT_BYTES_LEFT and
FRESHET_STATE. -/
def State.manifestRecord (s : State) : List Byte :=
  let h := match s.ckpt.cut with
    | some c => if c.manifests = [] then [] else (s.manifest c).take 128
    | none => []
  padTo 256 (padTo 128 h ++ leBytes 8 (s.obj 0x8004 1) ++ leBytes 1 s.targetSlot ++ leBytes 8 (s.obj 0x8004 2) ++ leBytes 1 s.freshetState)

/-- The five parts of the saved record. A journal entry is durable at once here, so part 1 is empty. -/
def State.savedParts (s : State) : List (List Byte) :=
  [s.nv.owner, [], s.manifestRecord, s.sec.alarms.flatten, (s.log.records.drop (s.log.records.length - 128)).flatten]

/-- The saved record: *Saved record header*, then the parts. -/
def savedRecord (cause parts seq step job : Nat) (ps : List (List Byte)) : List Byte :=
  let dir := ps.foldl (fun (acc : List Nat × Nat) (p : List Byte) =>
    (acc.1 ++ [acc.2, p.length, crc32 p], acc.2 + p.length)) ([], 92)
  wordsLE ([0x4E395356, 1 + cause * 2 ^ 8 + parts % 32 * 2 ^ 16, seq % 2 ^ 32, seq / 2 ^ 32, step % 2 ^ 32, step / 2 ^ 32 % 2 ^ 32, job, 0] ++ dir.1)
    ++ ps.flatten

/-- The save sequence (R345): SAVE_N and FAULT_N, then the record, then power-on reset. With a weak hold-up supply the save may end
incomplete, or before its header is whole. -/
def State.save (s : State) (cause : Nat) (tail : Option Event) : State :=
  let seq := s.eventSeq
  let s1 : State := match tail with
    | some e =>
      let t := s.nextSeq
      t.logRecord (e.record t.log.epoch t.log.count t.job.step t.position)
    | none => s
  let f := s1.fresh
  let free := Config.freeNat f.1
  let weak := s.holdupState ≠ 0
  let s2 := if weak then f.2 else s1
  let parts := if weak then free % 32 else 31
  let s3 : State :=
    if weak ∧ free / 32 % 2 = 1 then s2
    else { s2 with nv := { s2.nv with
      record := savedRecord cause parts seq s.job.step s.job.st s1.savedParts, parts := parts, later := true, writes := s2.nv.writes + 1 } }
  let t := s3.enterPowerOn 3
  { t with power := { t.power with saveN := true, faultN := true } }

/-- SUPPLY_SAG (R345): a sag qualifies. Before the hub controller's release nothing is written. -/
def execSupplySag (source : Nat) (s : State) : Res :=
  if s.power.phase = .powerOn ∨ !(source = 8 ∨ source = 9 ∨ source = 10 ∨ source = 0xFF) then .next s
  else if s.power.hubUp then
    .next (s.save (if source = 0xFF then 1 else 0) (some { code := 0x0901, cls := .fault, d0 := source }))
  else
    let t := s.enterPowerOn 0
    .next { t with power := { t.power with saveN := true } }

/-- Whether a unit of *Power events* is on the part: a compute die, 8 for HD, or 0x10 + n for Sn. -/
def State.hasThermal (s : State) (unit : Nat) : Bool :=
  unit < s.part.dies || unit = 8 || (0x10 ≤ unit && unit < 0x10 + s.part.stacks)

/-- THERMAL_TRIP (R335): 115 °C on a die or HD, or 105 °C on a stack. FAULT_N stays asserted until VAUX is removed. -/
def execThermalTrip (unit : Nat) (deciC : Int) (s : State) : Res :=
  if s.power.phase = .powerOn ∨ !s.hasThermal unit ∨ deciC < (if unit < 0x10 then 1150 else 1050) then .next s
  else
    let die := if unit ≤ 8 then unit else (unit - 0x10) / 2
    let s1 := s.eventIf { code := 0x0906, cls := .fault, selfLost := true, die := die, d0 := unit }
    let s2 := if s.power.hubUp then s1.save 2 none else s1.enterPowerOn 0
    .next { s2 with power := { s2.power with tripped := true, faultN := true } }

/-- VCORE_EXCURSION (R324): the rail below its command less 50 mV or above 900 mV; the die resets itself and is fenced, after
RAIL_EXCURSION. -/
def execVcoreExcursion (die millivolts : Nat) (s : State) : Res :=
  if s.serving ∧ s.dieUp die ∧ (millivolts + 50 < s.obj 0xA003 die ∨ 900 < millivolts) then
    .next ((s.record { code := 0x0909, cls := .degraded, die := die, d0 := die, d1 := millivolts }).fence die 0x0909)
  else .next s

/-- HOLDUP_TIMEOUT (R347). -/
def execHoldupTimeout (s : State) : Res :=
  if s.power.phase = .powerOn then .next s
  else
    let t := { s with power := { s.power with holdLate := true } }
    .next (if s.holdupState = 0 ∧ t.logs then t.holdupLow else t)

/-! Recovery (R353, R370). -/

/-- RECOVERY_DOORBELL (R353): a bank image in the load window. If every image passes, bank A is written and the package resets. The
window operand is what the DMA read of the load window gave from the offset on. -/
def execRecoveryDoorbell (offset : Nat) (window : DmaRead) (s : State) : Res :=
  if s.power.phase ≠ .recovery then .next s
  else
    let s1 := s.dmaError window
    let bs := ((dmaBytes window).getD []).take (s.pf0Reg 0x10 - offset)
    let st := match dmaBytes window with
      | none => stInvalid
      | some _ => s1.windowStatus bs
    let s2 := (s1.setPf0 0x18 (setBits (s1.pf0Reg 0x18) 8 8 st)).interrupt 5
    if st ≠ 0 then .next s2
    else
      let seq := fun (n : Nat) => if bankOk (mget [] s.sec.records n) then wd (mget [] s.sec.records n) 1 else 0
      .next ((s2.writeBank 0 (Nat.max (seq 0) (seq 1) + 1) bs).stretch 2)

/-! Rejoin (R318). -/

/-- DIE_REJOIN's action. A die that the part lacks is an absent unit by R4, before the other cases of R318 (DEDUCED, assumption
172). -/
def rejoinAct (s : State) (_ : NapReq) (v : List Byte) : Reply :=
  let d := leNat v
  if s.part.dies ≤ d then .no s stAbsent 0
  else if s.job.st = 1 ∨ s.job.st = 3 then .no s stBusy 0
  else if s.job.st = 0 ∧ s.obj 0x8010 d = 1 then .ok (s.setObj 0x8010 d 2)
  else .no s stRange 0

/-- DIE_REJOIN (R318). -/
def execDieRejoin (r : NapReq) (s : State) : Res := s.serveCommand 0x8015 1 r (commandReply r blobLimit byOwner rejoinAct)

/-- A die reset: its cores and its update unit as a reset leaves them. -/
def State.resetDie (s : State) (d : Nat) : State :=
  { s with
    cores := s.cores.filter (fun (c : Nat × CoreState) => c.1 / 16 ≠ d),
    upd := s.upd.filter (fun (u : Nat × UpdUnit) => u.1 ≠ d),
    dict := s.dict.filter (fun (e : Nat × Nat) => !(e.1 / 256 = 0x4011 && e.1 % 256 / 16 = d)) }

/-- The measurement-log entry of a rejoin's microcode. -/
def State.rejoinEntry (s : State) : State := match s.microcode with
  | some b => s.measure (imageEntry s.bootBank b)
  | none => s

/-- A stack of a die has more than 1 % of its sectors retired, its system region's included (R318, step 5). -/
def State.wornStack (s : State) (d : Nat) : Bool :=
  [2 * d, 2 * d + 1].any (fun t => 16777216 < 100 * (s.retiredIn t).length)

/-- The residue self-test of a die's cells: each faulty one retires (R112; R318, step 6). -/
def State.selfTest (s : State) (d : Nat) (cells : List (Nat × Nat × Nat × Nat)) : State :=
  cells.foldl (fun t x =>
    if x.1 < 14 ∧ x.2.1 < 8 ∧ x.2.2.1 < 64 ∧ x.2.2.2 < 64 then t.retireCell (16 * d + x.1) x.2.1 x.2.2.1 x.2.2.2 else t) s

/-- DIE_REJOIN_COMPLETE (R318): the outcome of the rejoin in progress, of the lowest die in DIE_STATE 2. Step 2 fails where the die's
Kolfin reference is not locked, step 3 where the hub link is at width 0, step 4 where the microcode does not verify, and step 5
where a stack is worn. -/
def execDieRejoinComplete (outcome : RejoinOutcome) (s : State) : Res :=
  match firstBelow s.part.dies (fun d => s.obj 0x8010 d = 2) with
  | none => .next s
  | some d =>
    let f := s.fresh
    let own := Config.freeNat f.1 % 255 + 1
    let o : RejoinOutcome :=
      let fails := fun (n : Nat) => decide (outcome.status % 256 ≠ 0 ∧ outcome.step ≤ n)
      if fails 2 then outcome
      else if !s.refLocked d then ⟨2, own⟩
      else if fails 3 then outcome
      else if s.obj 0x7010 d = 0 then ⟨3, own⟩
      else if fails 4 then outcome
      else if s.microcode.isNone then ⟨4, own⟩
      else if fails 5 then outcome
      else if s.wornStack d then ⟨5, own⟩
      else outcome
    let s0 := f.2
    if o.status % 256 = 0 then
      .next (((((s0.resetDie d).rejoinEntry.wipeMemory.selfTest d (Config.faultyCells s.free)).setObj 0x8010 d 0).setObj 0x8015 2 0).record
        { code := 0x0504, cls := .note, die := d })
    else
      let s1 := if 3 ≤ o.step then s0.resetDie d else s0
      let s2 := if 5 ≤ o.step then s1.rejoinEntry.wipeMemory else s1
      let s3 := if 6 ≤ o.step then s2.selfTest d (Config.faultyCells s.free) else s2
      .next ((s3.setObj 0x8010 d 1).setObj 0x8015 2 (o.status % 256 + o.step % 16 * 256))

end Sys2Proof.Machine
end

