-- ==== Sys2Proof/Machine/Port.lean ====
section
/-! DEFINITION. The Millrace ports (R374 to R381) with link authentication (R361), the PCIe functions (R369 to R373), the management
port (R382) and TRST_N (R386). -/

namespace Sys2Proof.Machine

/-! Training (R380). -/

/-- The width that an agreed mask gives. -/
def portWidth (mask : BitVec 4) : Nat :=
  let n := (upto 4 (fun i => mask.getLsbD i)).length
  if n = 3 then 2 else n

/-- A port that can train: in use, with its clock locked. -/
def State.canTrain (s : State) (n : Nat) : Bool := s.serving && s.portEnabled n && s.power.locked.contains (1 + n)

/-- A failed step of *Link authentication*: the port stays down. -/
def State.peerFail (s : State) (n step : Nat) : State :=
  ((s.portDown n 4).record { code := 0x0A05, cls := .degraded, d0 := n, d1 := step }).authFailure 3

/-- Step 1 of *Link authentication*. A package without its identity key brings up no link. -/
def State.beginAuth (s : State) (n : Nat) : State :=
  if !s.hasKey 0 then s.peerFail n 1
  else
    let e := s.entropy 32
    let t := e.2.setObj 0x7002 n 2
    (t.setPort n { t.port n with auth := some ⟨e.1, [], [], 0, 0, 0, [], [], [], 1⟩ }).emit
      (.linkAuth n (.hello Config.identityCert e.1 s.position n))

/-- PORT_TRAIN (R380): one training with the lane masks of both ends. The fifth that agrees on no lane leaves the port down. -/
def execPortTrain (port : Nat) (ownMask peerMask : BitVec 4) (s : State) : Res :=
  if !s.canTrain port then .next s
  else
    let s0 := s.portDown port 1
    let s1 := if (s.port port).trained then s0.addObj 0x7007 port 32 1 else s0
    let p := s1.port port
    let w := portWidth (ownMask &&& peerMask)
    if w = 0 then
      .next (if p.tries < 4 then s1.setPort port { p with tries := p.tries + 1, trained := true }
        else (s1.setPort port { p with tries := 0, trained := true }).setObj 0x7002 port 4)
    else
      let s2 := (s1.setPort port { p with tries := 0, trained := true, asks := [], bad := [] }).setObj 0x7003 port w
      let s3 := if w < 4 then s2.record { code := 0x0502, cls := .degraded, d0 := 0x20 + port, d1 := w } else s2
      .next (s3.beginAuth port)

/-! Link authentication (R355, R361). -/

/-- An identity certificate verified (R355): public key, PART_CODE, SERIAL and the manufacturing key's signature. -/
def certOk (c : List Byte) : Bool :=
  let body := c.take (c.length - 2420)
  3732 < c.length && Config.mldsaVerify Config.makerKey body (c.drop body.length)

/-- The initiator: the end with the lower position, or the lower port where they are equal. -/
def initiates (pos port peerPos peerPort : Nat) : Bool := pos < peerPos || (pos = peerPos && port < peerPort)

/-- What an end signs: the peer's nonce, the initiator's and the responder's position and port, the encapsulation key and the
ciphertext. -/
def authBody (nonce : List Byte) (a b : Nat × Nat) (encap ct : List Byte) : List Byte :=
  nonce ++ leBytes 2 a.1 ++ leBytes 1 a.2 ++ leBytes 2 b.1 ++ leBytes 1 b.2 ++ encap ++ ct

/-- The body that an end of this link signs over a nonce. -/
def State.linkBody (s : State) (n : Nat) (k : LinkKeys) (nonce : List Byte) : List Byte :=
  let me := (s.position, n)
  let peer := (k.peerPos, k.peerPort)
  if initiates me.1 me.2 peer.1 peer.2 then authBody nonce me peer k.encap k.ct else authBody nonce peer me k.encap k.ct

/-- The state of a port's authentication replaced. -/
def State.setAuth (s : State) (n : Nat) (k : LinkKeys) : State := s.setPort n { s.port n with auth := some k }

/-- Step 4: this end's signature sent. -/
def State.signLink (s : State) (n : Nat) (k : LinkKeys) : State :=
  (s.setAuth n { k with stage := 4 }).emit
    (.linkAuth n (.signature (padTo 2420 (Config.mldsaSign 0 (s.keyGen 0) (s.linkBody n k k.peerNonce)))))

/-- Frames sent again in order (R379). -/
def State.resend (s : State) (n : Nat) (l : List SentFrame) : State :=
  l.foldl (fun (t : State) (f : SentFrame) =>
    (t.addObj 0x7004 n 64 1).emit (.portFrame n f.seq (t.port n).last false f.pvc f.back.1 f.back.2 f.payload)) s

/-- Step 5: the link key placed, the peer recorded, and R215 applied. Replay resumes where the link had stopped. -/
def State.linkUp (s : State) (n : Nat) (k : LinkKeys) : State :=
  let found := k.peerPos % 4096 + k.peerPort % 8 * 2 ^ 12
  let map := s.obj 0x7020 n
  let bad := bitOf map 15 && bits map 0 15 ≠ found
  let s1 := { s with sec := s.sec.nextGen (3 + n) }.authSuccess
  let s2 := (s1.setPort n { s1.port n with auth := none, key := padTo 32 k.secret }).setObj 0x7022 n (found + 2 ^ 15 + b01 bad * 2 ^ 16)
  let s3 := s2.setBlob 0x9030 n (sha3 k.peerKey)
  if bad then (s3.portDown n 4).record { code := 0x0601, cls := .degraded, d0 := n, d1 := found }
  else
    let s4 := (s3.setObj 0x7002 n 3).resend n (s3.port n).unacked
    { s4 with cas := { s4.cas with adopting := s4.cas.adopting && !s4.peersPass } }

/-- LINK_AUTH_RECEIVE (R361): a message of the step that this end awaits; any other is ignored. -/
def execLinkAuthReceive (port : Nat) (message : LinkAuth) (s : State) : Res :=
  match s.obj 0x7002 port, (s.port port).auth with
  | 2, some k =>
    match k.stage, message with
    | 1, .hello cert nonce pos pport =>
      let k1 := { k with peerNonce := nonce, peerKey := cert.take 1312, peerPos := pos, peerPort := pport }
      if !certOk cert then .next (s.peerFail port 2)
      else if initiates s.position port pos pport then
        let f := s.fresh
        let ek := padTo 1184 (Config.mlkemPublic f.1)
        .next ((f.2.setAuth port { k1 with gen := f.1, encap := ek, stage := 3 }).emit (.linkAuth port (.encapKey ek)))
      else .next (s.setAuth port { k1 with stage := 2 })
    | 2, .encapKey ek =>
      let f := s.fresh
      let e := Config.mlkemEncaps ek f.1
      let k1 := { k with encap := ek, ct := padTo 1088 e.1, secret := padTo 32 e.2 }
      .next ((f.2.emit (.linkAuth port (.ciphertext k1.ct))).signLink port k1)
    | 3, .ciphertext ct => .next (s.signLink port { k with ct := ct, secret := padTo 32 (Config.mlkemDecaps k.gen ct) })
    | 4, .signature sig =>
      if !s.hasKey 0 ∨ !Config.mldsaVerify k.peerKey (s.linkBody port k k.nonce) sig then .next (s.peerFail port 5)
      else .next (s.linkUp port k)
    | _, _ => .next s
  | _, _ => .next s

/-! Sending (R375 to R379). -/

/-- A sideband record of type 1 with the tag that the link layer adds (R361). -/
def tagRecord (key : List Byte) (r : List Byte) : List Byte :=
  if wb r 0 0 8 = 1 then portRecord 1 (r.drop 4 ++ kmac256 key (r.drop 4) 128 (strBytes "MRSB")) else r

/-- The bytes that a channel has to send. -/
def Port.bytes (p : Port) (pvc : Nat) : List Byte :=
  mget [] p.cur pvc ++ (mget [] p.tx pvc).flatMap (if pvc = 2 then tagRecord p.key else id)

/-- A channel with bytes to send. -/
def Port.waits (p : Port) (pvc : Nat) : Bool := mget [] p.cur pvc ≠ [] || mget [] p.tx pvc ≠ []

/-- A channel with bytes and credit (R378). -/
def Port.ready (p : Port) (pvc : Nat) : Bool := p.waits pvc && mget 0 p.credit pvc ≠ 0

/-- The background share of a port in per cent (R244, R246, R377). -/
def State.bkgShare (s : State) : Nat :=
  if s.job.st = 3 || (s.job.st = 2 && s.ckpt.held) then 100
  else
    let drains := match s.ckpt.cut with
      | some c => c.goes 1 && !c.done
      | none => false
    Nat.min 50 (s.obj 0xA001 3 + (if drains then s.obj 0x8002 7 else 0))

/-- The channel of the next frame (R377), and the port with its turns counted; none for IDLE. -/
def Port.pick (p : Port) (share : Nat) : Option Nat × Port :=
  if 256 ≤ p.unacked.length then (none, p)
  else if p.ready 2 then (some 2, p)
  else
    let fg := p.ready 0 || p.ready 1
    if !fg then (if p.ready 3 then some 3 else none, p)
    else
      let both := p.ready 3
      let p1 := if both then { p with rounds := p.rounds + 1 } else p
      if both && (p.bkg + 1) * 100 ≤ share * (p.rounds + 1) then (some 3, { p1 with bkg := p.bkg + 1 })
      else
        let first := if p.flip then 1 else 0
        let v := if p.ready first then first else 1 - first
        (some v, { p1 with flip := v = 0 })

/-- The channel whose credit the next frame returns, with the frames: the next in rotation that is owed any (R378). -/
def Port.creditOwed (p : Port) : Nat × Nat :=
  match [p.turn % 4, (p.turn + 1) % 4, (p.turn + 2) % 4, (p.turn + 3) % 4].find? (fun v => mget 0 p.owed v ≠ 0) with
  | some v => (v, Nat.min 255 (mget 0 p.owed v))
  | none => (p.turn % 4, 0)

/-- PORT_FRAME_SEND (R377): a port that is up sends its next frame, through its PHY's boundary queue (R27). A
package that has taken a position carries no traffic until every port's peer has passed R215 (R233). -/
def execPortFrameSend (port : Nat) (s : State) : Res :=
  if !s.serving ∨ s.obj 0x7002 port ≠ 3 ∨ s.cas.adopting then .next s
  else
    let pick := (s.port port).pick s.bkgShare
    let p := pick.2
    let c := p.creditOwed
    let p1 := { p with nak := false, turn := c.1 + 1, owed := mset 0 p.owed c.1 (mget 0 p.owed c.1 - c.2) }
    let starved := [0, 1, 2, 3].any (fun v => p.waits v && mget 0 p.credit v = 0)
    let f := s.fresh
    let s1 := if starved then f.2.addObj 0x7008 port 64 (Config.freeNat f.1) else s
    match pick.1 with
    | none => .next (((s1.setPort port p1).boundarySend (portDomain port) []).emit (.portFrame port p.next p.last p.nak 4 c.1 c.2 []))
    | some v =>
      let all := p.bytes v
      let body := all.take 4096
      let p2 := { p1 with
        next := (p.next + 1) % 4096,
        unacked := p.unacked ++ [⟨p.next, v, c, body⟩],
        tx := mset [] p.tx v [],
        cur := mset [] p.cur v (all.drop 4096),
        credit := mset 0 p.credit v (mget 0 p.credit v - 1) }
      .next (((s1.setPort port p2).boundarySend (portDomain port) body).emit (.portFrame port p.next p.last p.nak v c.1 c.2 body))

/-! Receiving (R376, R378, R379). -/

/-- The length of the record at the front of a channel's bytes, once its header has arrived. -/
def recordLength (pvc : Nat) (b : List Byte) : Option Nat :=
  match pvc with
  | 0 => if b.length < 32 then none else some (32 + wb b 6 0 17)
  | 1 => if b.length < 32 then none else some (32 + wb b 6 0 17)
  | _ => if b.length < 4 then none else some (Nat.max 4 (wb b 0 8 24))

/-- The whole records at the front of a channel's bytes, and what is left. -/
def takeRecords (pvc : Nat) : Nat → List Byte → List (List Byte) × List Byte
  | 0, b => ([], b)
  | k + 1, b => match recordLength pvc b with
    | none => ([], b)
    | some n =>
      if b.length < n then ([], b)
      else
        let r := takeRecords pvc k (b.drop n)
        (b.take n :: r.1, r.2)

/-- A NAP frame at this position: a response ends the wait for it, unless it is damaged (R270), and anything else joins the queue. -/
def State.napArrives (s : State) (src : Nat) (frame : List Byte) : State :=
  if frameResponse frame then (if frameBad frame then s else s.answered src (reqOf (.sideband src) frame).seq)
  else s.enqueue (.sideband src) frame

/-- A sideband NAP record (R279, R361): its tag, then this position's frame or the next hop. -/
def State.sidebandArrives (s : State) (port : Nat) (r : List Byte) : State :=
  let body := (r.drop 4).take (r.length - 20)
  let key := (s.port port).key
  if r.length < 28 ∨ key = [] ∨ r.drop (r.length - 16) ≠ kmac256 key body 128 (strBytes "MRSB") then s
  else
    let dest := wb body 0 0 12
    let src := wb body 0 16 12
    let hops := wb body 1 0 5 + 1
    if dest = s.position ∨ dest = s.groupPosition then s.napArrives src (body.drop 8)
    else
      let lost := s.record { code := 0x0602, cls := .degraded, d0 := dest }
      if 17 ≤ hops then lost
      else match s.route dest with
        | none => lost
        | some q =>
          (s.queueOn q 2 (portRecord 1 (envelope dest src hops ++ body.drop 8))).addObj 0xB112 q 64 (body.length + 4)

/-- The position that a BKG record goes to: the DST of its entry of PERMUTE_PLAN, which every package holds alike (R227); for a page or
a shard a free function of the record's bytes (log 154). -/
def State.bkgDest (s : State) (r : List Byte) : Nat :=
  if wb r 0 0 8 = 5 then
    match s.plan.find? (fun e => e.entry = wb r 1 0 12) with
    | some e => e.dst
    | none => s.position
  else Config.bkgDest r

/-- A BKG record: this position's leaves the port, and another's goes on towards it in the background share, or is discarded with
ROUTE_MISSING (R216, R377). -/
def State.bkgArrives (s : State) (port : Nat) (r : List Byte) : State :=
  let dest := s.bkgDest r
  if dest = s.position then s.emit (.delivered port 3 r)
  else match s.route dest with
    | some q => (s.queueOn q 3 r).addObj 0xB112 q 64 r.length
    | none => s.record { code := 0x0602, cls := .degraded, d0 := dest }

/-- A whole record delivered. -/
def State.deliverRecord (s : State) (port pvc : Nat) (r : List Byte) : State :=
  if pvc = 3 then s.bkgArrives port r
  else if pvc = 2 ∧ wb r 0 0 8 = 1 then s.sidebandArrives port r
  else s.emit (.delivered port pvc r)

/-- What a good frame's ACK, NAK and credit say to the sender of this end (R378, R379). -/
def State.acked (s : State) (port : Nat) (f : PortFrame) : State :=
  let p := s.port port
  let left := p.unacked.filter (fun (x : SentFrame) => 2048 ≤ (f.ack + 4096 - x.seq) % 4096)
  let p1 := { p with
    unacked := left,
    credit := if f.creditPvc < 4 then mset 0 p.credit f.creditPvc (Nat.min (pvcFrames f.creditPvc) (mget 0 p.credit f.creditPvc + f.creditCount))
      else p.credit }
  let t := s.setPort port p1
  if f.nak then t.resend port left else t

/-- Too many replays asked for, or too many codewords lost: the port retrains (R380). -/
def State.portBudget (s : State) (port : Nat) : State :=
  let p := s.port port
  if 16 < p.asks.length ∨ 4 < p.bad.length then s.portDown port 1 else s

/-- The 2²⁰ codewords of R380 in frames: 32 codewords hold five. -/
def budgetFrames : Nat := 163840

/-- PORT_FRAME_RECEIVE (R379): a frame with a good CRC and no lost codeword, and in order, is delivered; any other is discarded, with
NAK once for the gap. It passes through the PHY's boundary queue within the step; while that is full the clocked side withholds
credit, so that no frame comes (R27). -/
def execPortFrameReceive (port : Nat) (frame : PortFrame) (s : State) : Res :=
  if !s.serving ∨ s.obj 0x7002 port ≠ 3 ∨ s.boundaryFull (rxQueue (portDomain port)) then .next s
  else
    let s0 := (s.addObj 0x7005 port 64 frame.corrected).addObj 0x7006 port 64 frame.uncorrected
    let p := s0.port port
    let k := p.frames + 1
    let p0 := { p with
      frames := k,
      asks := p.asks.filter (fun x => k < x + 65536),
      bad := p.bad.filter (fun x => k < x + budgetFrames) ++ List.replicate (Nat.min 5 frame.uncorrected) k }
    let good := frame.crcGood && !frame.condemned
    let want := (p.last + 1) % 4096
    if good ∧ frame.seq = want ∧ frame.pvc = 4 then
      .next (((s0.setPort port { p0 with gap := false }).acked port frame).portBudget port)
    else if good ∧ frame.seq = want ∧ frame.pvc < 4 then
      let all := mget [] p0.rx frame.pvc ++ frame.payload.take 4096
      let rs := takeRecords frame.pvc all.length all
      let p1 := { p0 with
        last := want, gap := false,
        rx := mset [] p0.rx frame.pvc rs.2,
        owed := mset 0 p0.owed frame.pvc (mget 0 p0.owed frame.pvc + 1) }
      let s1 := (s0.setPort port p1).acked port frame
      .next ((rs.1.foldl (fun (t : State) (r : List Byte) => t.deliverRecord port frame.pvc r) s1).portBudget port)
    else if p0.gap then .next ((s0.setPort port p0).portBudget port)
    else .next ((s0.setPort port { p0 with gap := true, nak := true, asks := p0.asks ++ [k] }).portBudget port)

/-- PORT_REPLAY_TIMEOUT (R379): every outstanding frame is sent again. -/
def execPortReplayTimeout (port : Nat) (s : State) : Res :=
  .next (if s.serving ∧ s.obj 0x7002 port = 3 then s.resend port (s.port port).unacked else s)

/-- PORT_DOWN_TIMEOUT (R381): a port of a running job that has not been up for 100 ms nominal is reported with DEGRADED; at its third
attempt in a row the end with the higher position is lost. -/
def execPortDownTimeout (port : Nat) (s : State) : Res :=
  let map := s.obj 0x7020 port
  if !s.serving ∨ !(port < s.part.ports) ∨ s.job.st ≠ 1 ∨ s.job.left ∨ !bitOf map 15 ∨ s.obj 0x7002 port = 3 then .next s
  else
    let p := s.port port
    let run := match p.downAt with
      | some a => if a = s.job.attempt then p.downRun else if (a + 1) % 16 = s.job.attempt then p.downRun + 1 else 1
      | none => 1
    let s1 := s.setPort port { p with downRun := run, downAt := some s.job.attempt }
    let s2 := (s1.record { code := 0x0502, cls := .degraded, d0 := 0x20 + port }).command s.master 0x4040 8
      (faultReportValue s.job.attempt s.position 0x0502 0xFFFF)
    .next (if 3 ≤ run ∧ bits map 0 12 < s.position then
        s2.event { code := 0x060E, cls := .fault, selfLost := true, d0 := port }
      else s2)

/-! The PCIe functions (R369, R370, R373). -/

/-- PCIE_HOT_RESET (R369): both functions act as at their own function-level resets, and the link trains anew or stays down. -/
def execPcieHotReset (s : State) : Res := .next (if s.serving then s.pcieReset.trainPcie else s)

/-- PF0_FLR (R373). -/
def execPf0Flr (s : State) : Res :=
  if s.serving then .next s.pf0Reset
  else if s.power.phase = .recovery then .next { s with pf0 := [(0x18, 1)] }
  else .next s

/-- PF1_FLR (R373). -/
def execPf1Flr (s : State) : Res := .next (if s.serving then s.pf1Reset else s)

/-- A power of two from 64 to 65,536. -/
def ringSizeOk (n : Nat) : Bool := (List.range 11).any (fun k => n = 2 ^ (6 + k))

/-- PF0_REGISTER_WRITE (*PF0 registers*): read-only registers and other offsets ignore writes, and the ring's base and size ignore
them while it is enabled. In recovery the load window alone is exposed (R353). -/
def execPf0RegisterWrite (offset value : Nat) (s : State) : Res :=
  let v := value % 2 ^ 32
  let on := bitOf (s.pf0Reg 0x2C) 0
  let base := value % 2 ^ 64 / 4096 * 4096
  let t := match offset with
    | 0x08 => s.setPf0 0x08 base
    | 0x10 => s.setPf0 0x10 (v / 4096 * 4096)
    | 0x20 => if on then s else s.setPf0 0x20 base
    | 0x28 => if on || !ringSizeOk v then s else s.setPf0 0x28 v
    | 0x2C => s.setPf0 0x2C (v % 4)
    | 0x34 => s.setPf0 0x34 v
    | 0x44 => s.setPf0 0x44 (s.pf0Reg 0x44 - (s.pf0Reg 0x44 &&& v))
    | _ => s
  if s.serving then .next t
  else if s.power.phase = .recovery ∧ (offset = 0x08 ∨ offset = 0x10) then .next t
  else .next s

/-! The management port (R277, R382). -/

/-- A frame discarded. -/
def State.mgmtDrop (s : State) : State := s.addObj 0x700A 3 64 1

/-- A frame accepted. -/
def State.mgmtTake (s : State) : State := s.addObj 0x700A 2 64 1

/-- MGMT_IPV4. -/
def State.ipv4 (s : State) : Bool := s.obField 6 1 1 = 1

/-- MGMT_IPV6, with an address that duplicate-address detection has not refused. -/
def State.ipv6 (s : State) : Bool := s.obField 6 0 1 = 1 && !bitOf (s.obj 0x700A 1) 7

/-- The link-local address that the modified EUI-64 rule forms from a MAC address, its first octet the most significant. -/
def linkLocal (mac : Nat) : Nat :=
  let first := mac / 2 ^ 24
  let toggled := if bitOf first 17 then first - 2 ^ 17 else first + 2 ^ 17
  0xFE80 * 2 ^ 112 + toggled * 2 ^ 40 + 0xFFFE * 2 ^ 24 + mac % 2 ^ 24

/-- The IPv6 management address: IPV6_ADDR, or the link-local address where it is zero (R382). -/
def State.ipv6Addr (s : State) : Nat := if fld s.ob 32 16 = 0 then linkLocal (fld s.ob 48 6) else fld s.ob 32 16

/-- The management address of a protocol (R277). -/
def State.mgmtAddr (s : State) (v6 : Bool) : Nat := if v6 then s.ipv6Addr else s.obField 7 0 32

/-- A frame accepted and answered where its protocol is in use, else discarded. -/
def State.mgmtAnswer (s : State) (ok : Bool) (f : MgmtFrame) : State :=
  if ok then s.mgmtTake.emit (.mgmt (Config.mgmtReply f)) else s.mgmtDrop

/-- MGMT_FRAME_RECEIVE (R382): the package answers ARP, neighbour solicitation, echo, and NAP over UDP, and nothing else. -/
def execMgmtFrameReceive (frame : MgmtFrame) (s : State) : Res :=
  if !s.serving ∨ !s.power.locked.contains 7 then .next s
  else match frame with
    | .tagged => .next s.mgmtDrop
    | .pause => .next s
    | .arp ip => .next (s.mgmtAnswer (s.ipv4 && ip = s.obField 7 0 32) frame)
    | .icmp4 fragmented => .next (s.mgmtAnswer (s.ipv4 && !fragmented) frame)
    | .neighbour duplicateOwn =>
      if s.ipv6 && duplicateOwn then .next (s.mgmtTake.setObj 0x700A 1 (setBitOf (s.obj 0x700A 1) 7 true))
      else .next (s.mgmtAnswer s.ipv6 frame)
    | .icmp6 fragmented => .next (s.mgmtAnswer (s.ipv6 && !fragmented) frame)
    | .udp v6 fragmented sumGood addr src dstAddr dst payload =>
      if (if v6 then s.ipv6 else s.ipv4) ∧ !fragmented ∧ sumGood ∧ dstAddr = s.mgmtAddr v6 ∧ dst = 20025 then
        .next (s.mgmtTake.enqueue (.udp addr src) payload)
      else .next s.mgmtDrop
    | .other => .next s.mgmtDrop

/-- TRST_N_ASSERT (R386): the test access port is reset, and the boundary register no longer drives the lands. -/
def execTrstNAssert (s : State) : Res := .next { s with power := { s.power with extest := false } }

end Sys2Proof.Machine
end

