-- ==== Sys2Proof/Machine/Power.lean ====
section
/-! DEFINITION. The control interval (R326 to R335): regulator readings, the power loop, the thermal loops and the VCORE commands. -/

namespace Sys2Proof.Machine

/-! Targets (*Operating profiles*). -/

/-- VCORE target in mV. -/
def profileVcore : Nat → Nat
  | 0 => 850
  | 1 => 750
  | _ => 665

/-- Junction and stack thermal targets in 0.1 °C. -/
def profileTemps : Nat → Int × Int
  | 0 => (950, 900)
  | 1 => (900, 850)
  | _ => (800, 800)

/-- Rails of the part: VCORE of its dies, VHUB, VMEM, VIO, VAUX and VHOLD. -/
def State.hasRail (s : State) (n : Nat) : Bool := n < s.part.dies || (8 ≤ n && n < 13)

/-- Rails whose regulator the package reads (R326). -/
def State.regulators (s : State) : List Nat := (List.range 11).filter s.hasRail

/-- A reading of a rail. -/
def railOf (x : Readings) (n : Nat) : Option (Nat × Nat) := x.rails.getD n none

/-! Readings. -/

/-- RAIL_MV and RAIL_W of the rails that were read. -/
def State.storeRails (s : State) (x : Readings) : State :=
  ((List.range 13).filter s.hasRail).foldl (fun (t : State) (n : Nat) => match railOf x n with
    | some (mv, w) =>
      let u := t.setObj 0xA004 n (mv % 65536)
      if n < 11 then u.setObj 0xA005 n (w % 65536) else u
    | none => t) s

/-- Temperatures of the dies, of HD (the ninth reading) and of the stacks. -/
def State.storeTemps (s : State) (x : Readings) : State :=
  let t := ((x.dieT.take 9).zipIdx).foldl (fun (t : State) (e : Int × Nat) =>
    if e.2 < t.part.dies ∨ e.2 = 8 then t.setObj 0xA010 e.2 (ux 32 e.1) else t) s
  ((x.stackT.take 16).zipIdx).foldl (fun (t : State) (e : Int × Nat) =>
    if e.2 < t.part.stacks then t.setObj 0xA011 e.2 (ux 32 e.1) else t) t

/-- A regulator's silence counted: the third control interval in a row records REGULATOR_FAULT (R326). -/
def State.countSilence (s : State) (x : Readings) (n : Nat) : State :=
  let c := if (railOf x n).isSome then 0 else Nat.min 3 (mget 0 s.power.silent n + 1)
  let t := { s with power := { s.power with silent := mset 0 s.power.silent n c } }
  if c = 3 ∧ mget 0 s.power.silent n = 2 then t.record { code := 0x0908, cls := .degraded, d0 := n } else t

/-! The power loop (R330, R331). -/

/-- Dies in service. -/
def State.activeDies (s : State) : List Nat := (List.range s.part.dies).filter s.dieUp

/-- The first row of *Power loop* that applies, to P watts under the cap C; at ISSUE_DUTY 1 a power that still exceeds the cap is
recorded once (R331). -/
def State.powerLoop (s : State) (p c : Nat) : State :=
  let off := s.obj 0xA002 4
  let duty := s.obj 0xA002 3
  let s0 :=
    if p ≤ c then { s with power := { s.power with unmet := false } }
    else if 1 < duty ∨ s.power.unmet then s
    else { s with power := { s.power with unmet := true } }.record { code := 0x0907, cls := .degraded, d0 := p }
  if 11 * c < 10 * p then s0.setObj 0xA002 4 (Nat.min 200 (off + 20))
  else if c < p ∧ s.activeDies.any (fun d => 650 < s.obj 0xA003 d) then s0.setObj 0xA002 4 (Nat.min 200 (off + 5))
  else if c < p then (if 1 < duty then s0.setObj 0xA002 3 (duty - 1) else s0)
  else if 50 * p < 49 * c ∧ duty < 16 then s0.setObj 0xA002 3 (duty + 1)
  else if 50 * p < 49 * c ∧ 0 < off then s0.setObj 0xA002 4 (off - 5)
  else s0

/-! The thermal loops (R334, R335). -/

/-- A die's excess over the profile's targets, in 0.1 °C. An HD junction above 100 °C puts every die over its target. -/
def State.excess (s : State) (d : Nat) : Int :=
  let t := profileTemps (s.obj 0xA001 2)
  let tj := sx 32 (s.obj 0xA010 d) - t.1
  let st := max (sx 32 (s.obj 0xA011 (2 * d))) (sx 32 (s.obj 0xA011 (2 * d + 1))) - t.2
  let own := max tj st
  if 1000 < sx 32 (s.obj 0xA010 8) then max own 1 else own

/-- A die's thermal loop: its offset, THERMAL_THROTTLE at the first rise from 0, and THERMAL_LIMIT while at 105 °C; the events are
to be recorded. -/
def State.thermalLoop (s : State) (d : Nat) : List Event × State :=
  let off := s.obj 0xA012 d
  let tj := sx 32 (s.obj 0xA010 d)
  let x := s.excess d
  let new :=
    if 1050 ≤ tj ∧ 650 < s.obj 0xA003 d then off + 20
    else if 0 < x then off + 5
    else if x < -20 then off - 5
    else off
  let s1 := s.setObj 0xA012 d (Nat.min 65535 new)
  let rises := decide (off = 0 ∧ 0 < new)
  let s2 := if rises then s1.addObj 0xA013 1 32 1 else s1
  let e1 : List Event := if rises then [{ code := 0x0904, cls := .note, die := d, d0 := d }] else []
  if tj < 1050 then (e1, { s2 with power := { s2.power with limited := sDel s2.power.limited d } })
  else if s2.power.limited.contains d then (e1, s2)
  else (e1 ++ [{ code := 0x0905, cls := .degraded, die := d, d0 := d, d1 := ux 32 tj }],
    { s2 with power := { s2.power with limited := sIns s2.power.limited d } })

/-- Every active die's thermal loop; what the dies report at the same moment is recorded in the order of R31. -/
def State.thermalLoops (s : State) : State :=
  let r := s.activeDies.foldl (fun (x : List Event × State) (d : Nat) => let y := x.2.thermalLoop d; (x.1 ++ y.1, y.2)) ([], s)
  r.2.recordAll r.1

/-! VCORE commands (R326, R329). -/

/-- The command that a die is to reach: 650 mV when fenced or while a reading is missing. -/
def State.vcoreTarget (s : State) (missing : Bool) (d : Nat) : Nat :=
  if missing || !s.dieUp d then 650
  else Nat.min 850 (Nat.max 650 (profileVcore (s.obj 0xA001 2) - s.obj 0xA002 4 - s.obj 0xA012 d))

/-- A command moved towards a target by at most 20 mV. -/
def slew (now target : Nat) : Nat := if now < target then Nat.min target (now + 20) else Nat.max target (now - 20)

/-- CONTROL_INTERVAL (R326 to R335): 1 ms nominal. -/
def execControlInterval (readings : Readings) (s : State) : Res :=
  if !s.serving then .next s
  else
    let s1 := (s.storeRails readings).storeTemps readings
    let s2 := s1.regulators.foldl (fun (t : State) (n : Nat) => t.countSilence readings n) s1
    let missing := s2.regulators.any (fun n => (railOf readings n).isNone)
    let held := decide (0 < s2.obj 0xA002 4) || decide (s2.obj 0xA002 3 < 16)
    let s3 := if held then s2.addObj 0xA002 5 64 1000 else s2
    let p := s3.regulators.foldl (fun (a : Nat) (n : Nat) => a + s3.obj 0xA005 n) 0
    let s4 := if missing then s3 else (s3.setObj 0xA002 2 (p % 65536)).powerLoop p (s3.obj 0xA002 1)
    let s5 := s4.thermalLoops
    .next ((List.range s5.part.dies).foldl (fun (t : State) (d : Nat) =>
      t.setObj 0xA003 d (slew (t.obj 0xA003 d) (s5.vcoreTarget missing d))) s5)

end Sys2Proof.Machine
end

