-- ==== Sys2Proof/Machine/Dict.lean ====
section
/-! DEFINITION. The dictionary as a session sees it: READ and WRITE of any object, ENUM (R264 to R272, R301), the live objects
(R299), MEM_RELEASE (R207) and EVENT_SNAPSHOT (R311). -/

namespace Sys2Proof.Machine

/-! What RO objects report. -/

/-- The number of a SEQ held in an event record. -/
def recordSeq (r : List Byte) : Nat := wd r 1 * 2 ^ 32 + wd r 0

/-- EVENT_LOG_OLDEST: the epoch with count 0 while no record is held. -/
def State.oldestSeq (s : State) : Nat := match s.log.records with
  | r :: _ => recordSeq r
  | [] => s.log.epoch * 2 ^ 32

/-- KEY_SLOT (R358): generation 0 while the slot is empty. -/
def State.keyRef (s : State) (slot : Nat) : Nat :=
  let full :=
    if slot < 3 then s.hasKey slot
    else if slot < 9 then (s.port (slot - 3)).key ≠ []
    else if 16 ≤ slot then (s.slot (slot - 16)).key.isSome
    else false
  slot + (if full then s.keyGen slot * 2 ^ 8 else 0)

/-- CORE_STATE: that of a fenced die's core as the fence found it (R317). -/
def State.coreStateObj (s : State) (c : Nat) : Nat :=
  if s.obj 0x8010 (c / 16) = 0 then (s.core c).run.code else s.obj 0x4012 c

/-- TABLE_SLOT: FUNC_ID and VERSION of the image in a slot. -/
def State.tableSlot (s : State) (slot c : Nat) : Nat := wd (mget [] (s.core c).slots slot) 0

/-- Objects whose value nothing in the model measures: a time left or held. -/
def unmeasured (i sub : Nat) : Bool :=
  (i = 0x2002 && sub = 4) || (i = 0xB110 && sub = 3) || (i = 0x8006 && sub = 5)

/-- An object reads as a measured time: WINDOW_WAIT_US is 0 until a send has waited (R235). -/
def State.unmeasured (s : State) (i sub : Nat) : Bool := Machine.unmeasured i sub && (i ≠ 0xB110 || s.obj 0xB110 3 ≠ 0)

/-- The value of a scalar object that the state holds elsewhere than in the dictionary. -/
def State.scalarShown (s : State) (r : NapReq) : Nat :=
  let i := r.index
  let n := r.sub
  if i = 0x2002 then
    match s.own.owner, n with
    | _, 5 => s.ownerEpoch
    | none, _ => 0
    | some o, 1 => o.session
    | some o, 2 => o.carrier
    | some o, 3 => o.priority
    | some _, _ => Config.freeNat s.free % 2001
  else if s.unmeasured i n then Config.freeNat s.free
  else if i = 0x2003 then (if n = 1 then r.session else s.openCount)
  else if i = 0x2006 then (s.slot (r.session % 32)).subscribe
  else if i = 0x3001 then
    match n with
    | 2 => s.weir.shown.code
    | 4 => (bankBytes s.weir.bank + 1023) / 1024
    | 5 => s.weir.waitsFor
    | _ => s.obj i n
  else if i = 0x4002 then s.job.st
  else if i = 0x4012 then s.coreStateObj n
  else if i = 0x4035 ∧ n = 2 then s.job.attempt
  else if i = 0x4035 ∧ n = 4 then (if s.job.st = 0 ∨ s.job.st = 2 then s.stateGib else s.obj i n)
  else if 0x5020 ≤ i ∧ i ≤ 0x5027 then s.tableSlot (i - 0x5020) n
  else if i = 0x6001 ∧ n = 1 then s.tieredLimit / 2 ^ 30
  else if i = 0x6020 then s.freeSectors n
  else if i = 0x6021 then s.freeSectors tierBw
  else if i = 0x7001 ∧ n = 4 then Config.vendorId.toNat + s.partCode * 2 ^ 16 + (s.partCode + 0x1000) * 2 ^ 32
  else if i = 0x8005 ∧ n = 1 then s.job.committed
  else if i = 0x8011 then s.spareCore n
  else if i = 0x8013 then (s.core n).score
  else if i = 0x801C then s.wear
  else if 0x8030 ≤ i ∧ i ≤ 0x8037 then mget 0 s.nv.repair (256 * (i - 0x8030) + n)
  else if i = 0x9001 then s.keyRef n
  else if i = 0xB001 then s.eventSeq
  else if i = 0xB002 ∧ n = 3 then s.oldestSeq
  else if i = 0xC004 then s.holdupState
  else s.obj i n

/-- STAGED_LIST: the staged objects, ascending. -/
def Weir.stagedList (w : Weir) : List Byte :=
  w.bank.flatMap (fun (e : Nat × StVal) => leBytes 2 (e.1 / 256) ++ leBytes 1 (e.1 % 256) ++ [0])

/-- A BLOB that no write has given a value reads as its table's default. -/
def orDefault (v d : List Byte) : List Byte := if v = [] then d else v

/-- The value of a BLOB object. -/
def State.blobShown (s : State) (i n : Nat) : List Byte :=
  if i = 0x2002 then
    (if n = 6 then s.own.owner.elim (List.replicate 32 0) (fun (o : Owner) => padTo 32 o.keyId)
      else orDefault (s.blob i n) (List.replicate 48 0))
  else if i = 0x1010 then
    (match n with
    | 2 => s.identityKey
    | 3 => sha3 s.identityKey
    | _ => Config.identityCert)
  else if i = 0x3001 then orDefault (s.blob i n) (List.replicate 16 0)
  else if i = 0x3002 then s.weir.stagedList
  else if i = 0x6015 then s.pageQuery (s.obj 0x6015 1)
  else if i = 0x7021 then orDefault (s.blob i n) (List.replicate 4096 0xFF)
  else if i = 0x9002 then
    (match n with
    | 1 => if s.hasKey 1 then sha3 s.manifestKey else []
    | 2 => s.manifestKey
    | _ => s.manifestCert)
  else if i = 0x9020 then s.sec.alarms.flatten
  else if i = 0x9030 then orDefault (s.blob i n) (List.replicate 32 0)
  else if i = 0xC000 then s.ob
  else if i = 0xC001 then (s.nv.selectOb s.part).1
  else if i = 0xC003 then s.nv.record
  else s.blob i n

/-- The value of a STR object. -/
def State.strShown (s : State) (i : Nat) : List Byte :=
  if i = 0x1000 then (match s.part with
    | .hn9_8x => strBytes "HN9-8X"
    | .hn9_6l => strBytes "HN9-6L")
  else Config.serial

/-! READ (R266, R269, R272). -/

/-- The value that a READ of an RW-staged object returns: the committed one, or the staged one where the request asks for it. -/
def State.stagedShown (s : State) (r : NapReq) : StVal :=
  let k := objKey r.index r.sub
  match r.staged, stGet s.weir.bank k with
  | true, some v => v
  | _, _ => s.committedAt k

/-- A computed BLOB value noted, so that its value version advances where it has changed (R272). -/
def State.noteBlob (s : State) (i n : Nat) (v : List Byte) : State := s.setBlob i n v

/-- A BLOB as a READ returns it, with the value version. -/
def State.blobRead (s : State) (r : NapReq) (v : List Byte) : Reply :=
  let t := s.noteBlob r.index r.sub v
  blobReply t r v (mget 0 t.blobVer (objKey r.index r.sub))

/-- The outcome of a READ of an object, once R275's gates are passed. -/
def readValue (o : ObjRow) (r : NapReq) (s : State) : Reply :=
  if r.index = 0x2005 then authResultReply r s
  else if o.acs = .staged then
    match s.stagedShown r with
    | .scalar v => .scalar s (leBytes o.ty.size v)
    | .blob v =>
      let shown := if r.index = 0x7021 then orDefault v (List.replicate 4096 0xFF) else v
      let k := objKey r.index r.sub
      blobReply s r shown ((mget 0 s.blobVer k + (if r.staged then mget 0 s.weir.vers k else 0)) % 2 ^ 32)
  else if o.ty = .str then .scalar s (s.strShown r.index)
  else if o.ty = .blob then s.blobRead r (s.blobShown r.index r.sub)
  else
    let t := if s.unmeasured r.index r.sub then { s with free := s.free + 1 } else s
    .scalar t (leBytes o.ty.size (s.scalarShown r))

/-- The outcome of a READ (R275). -/
def readReply (r : NapReq) (s : State) : Reply :=
  s.gated r (fun s => match s.objGate r with
    | .error e => .no s e.1 e.2
    | .ok o => readValue o r s)

/-- The outcome of a request whose opcode *NAP opcodes* does not list (R269). -/
def strangeReply (r : NapReq) (s : State) : Reply := s.gated r (fun s => .no s stType 0)

/-- READ (R269), and the answer to opcodes that are none. AUTH_CHALLENGE has its own command. -/
def execRead (r : NapReq) (s : State) : Res :=
  if r.opcode = 1 then .next (if r.index = 0x2005 ∧ r.sub = 1 then s else s.serve r (readReply r))
  else if r.opcode = 0 ∨ 5 < r.opcode then .next (s.serve r (strangeReply r))
  else .next s

/-! ENUM (R269). -/

/-- The outcome of an ENUM: the next object, its access class, and whether the part lacks its unit. -/
def enumReply (r : NapReq) (s : State) : Reply :=
  s.gated r (fun s => match nextKey (objKey r.index r.sub) with
    | none => .no s stNoObject 0
    | some k => match objRow (k / 256) (k % 256) with
      | none => .no s stNoObject 0
      | some o =>
        { Reply.ok s with
          detail := o.acs.code + b01 (!o.present s.part (k / 256) (k % 256)) * 16,
          object := some (k / 256, k % 256, o.ty.code) })

/-- ENUM (R269). -/
def execEnumObject (r : NapReq) (s : State) : Res := .next (if r.opcode = 5 then s.serve r (enumReply r) else s)

/-! Live objects (R299). -/

/-- EVENT_SUBSCRIBE's action: the writing session's own. -/
def subscribeAct (s : State) (r : NapReq) (v : List Byte) : Reply :=
  match s.sessionOf r with
  | some k => if leNat v ≤ 1 then .ok (s.setSlot k { s.slot k with subscribe := leNat v }) else .no s stRange 0
  | none => .no s stAuth 0

/-- EVENT_SUBSCRIBE (R299). -/
def execEventSubscribe (r : NapReq) (s : State) : Res := s.serveCommand 0x2006 1 r (commandReply r blobLimit byAny subscribeAct)

/-- PAGE_QUERY_ADDR (R299). -/
def execPageQueryAddr (r : NapReq) (s : State) : Res :=
  s.serveCommand 0x6015 1 r (commandReply r blobLimit byOwner (fun t _ v => .ok (t.setObj 0x6015 1 (leNat v))))

/-- The highest cap that a write may set (R332). -/
def State.capLimit (s : State) : Nat := Nat.min (profileCap (s.obj 0xA001 2)) (s.obField 1 16 16)

/-- POWER_CAP_W (R332). -/
def execPowerCapW (r : NapReq) (s : State) : Res :=
  s.serveCommand 0xA002 1 r (commandReply r blobLimit byOwner (fun t _ v =>
    if 1500 ≤ leNat v ∧ leNat v ≤ t.capLimit then .ok (t.setObj 0xA002 1 (leNat v)) else .no t stRange 0))

/-! MEM_RELEASE (R207) and EVENT_SNAPSHOT (R311). -/

/-- MEM_RELEASE's action: at once when the package is idle, else at the next step boundary (R207, R300). What lies beyond the
capacity holds no page, so that naming it is answered OK (assumption 185). -/
def releaseAct (s : State) (_ : NapReq) (v : List Byte) : Reply :=
  let base := fld v 0 6
  let len := 65536 * fld v 6 4
  if v.length ≠ 10 ∨ base % 65536 ≠ 0 then .no s stRange 0
  else if s.job.st ≠ 0 then .ok { s with mem := { s.mem with releases := s.mem.releases ++ [(base, len)] } }
  else .ok (s.releaseRange base len)

/-- MEM_RELEASE (R207). -/
def execMemRelease (r : NapReq) (s : State) : Res := s.serveCommand 0x6014 1 r (commandReply r blobLimit byOwner releaseAct)

/-- EVENT_SNAPSHOT's action: up to 1,024 of the oldest records held from a SEQ on, in a new value version of EVENT_LOG. -/
def snapshotAct (s : State) (_ : NapReq) (v : List Byte) : Reply :=
  let k := objKey 0xB002 2
  let rs := (s.log.records.filter (fun r => leNat v ≤ recordSeq r)).take 1024
  .ok { s with
    blobs := mset [] s.blobs k rs.flatten,
    blobVer := mset 0 s.blobVer k (bump 32 (mget 0 s.blobVer k)) }

/-- EVENT_SNAPSHOT (R311): any session. -/
def execEventSnapshot (r : NapReq) (s : State) : Res := s.serveCommand 0xB002 1 r (commandReply r blobLimit byAny snapshotAct)

/-! WRITE (R269, R271). -/

/-- The meaning of a write to an object that starts an action or is live. Three of them read the load window, and their commands
alone carry what the DMA read gave. -/
def writeMeaning (index sub : Nat) : Option (NapReq → State → Res) :=
  match index, sub with
  | 0x2001, 1 => some execOwnerClaim
  | 0x2001, 2 => some execOwnerHeartbeat
  | 0x2001, 3 => some execOwnerRelease
  | 0x2001, 4 => some execOwnerOffer
  | 0x2001, 5 => some execOwnerAccept
  | 0x2005, 2 => some execAuthResponse
  | 0x2006, 1 => some execEventSubscribe
  | 0x4002, 1 => some execJobStart
  | 0x4002, 2 => some execJobEnd
  | 0x4040, 0x01 => some execVoteReport
  | 0x4040, 0x02 => some execVerdict
  | 0x4040, 0x03 => some execPermuteDone
  | 0x4040, 0x04 => some execLayoutCommit
  | 0x4040, 0x05 => some execHeartbeat
  | 0x4040, 0x06 => some execTakeover
  | 0x4040, 0x07 => some execTakeoverMaster
  | 0x4040, 0x08 => some execFaultReport
  | 0x4040, 0x09 => some execCommitReady
  | 0x4040, 0x0A => some execStepCommit
  | 0x4040, 0x0B => some execRollback
  | 0x4040, 0x0C => some execRestartReady
  | 0x4040, 0x0D => some execRestart
  | 0x4040, 0x0E => some execFreshetNotice
  | 0x4040, 0x0F => some execCutAt
  | 0x4040, 0x10 => some execCkptDone
  | 0x4040, 0x11 => some execCkptCommit
  | 0x4040, 0x12 => some execCkptAbortJob
  | 0x4040, 0x13 => some execBuddyAck
  | 0x4040, 0x14 => some execRestoreReady
  | 0x4040, 0x15 => some execRestoreCommit
  | 0x4040, 0x16 => some execGroupArmed
  | 0x4040, 0x17 => some execGroupCommit
  | 0x4040, 0x18 => some execGroupReject
  | 0x6014, 1 => some execMemRelease
  | 0x6015, 1 => some execPageQueryAddr
  | 0x8001, 1 => some execFreshet
  | 0x8001, 5 => some execJobResume
  | 0x8001, 6 => some execCkptAbort
  | 0x8007, 3 => some execCkptExport
  | 0x8015, 1 => some execDieRejoin
  | 0x9003, 1 => some execManifestKeyRotate
  | 0x9021, 1 => some execAttestNonce
  | 0xA002, 1 => some execPowerCapW
  | 0xB002, 1 => some execEventSnapshot
  | 0xC001, 1 => some execObWrite
  | 0xC002, 1 => some execResetRequest
  | _, _ => none

/-- WEIR_COMMAND by its value. -/
def execWeirCommand (r : NapReq) (s : State) : Res :=
  match leNat r.value with
  | 1 => execValidate r s
  | 2 => execCommit r s
  | 3 => execDiscard r s
  | 4 => execGroupArm r s
  | _ => s.serveCommand 0x3001 1 r (commandReply r blobLimit byOwner (fun t _ _ =>
      .no t (if t.weir.busy then stBusy else stRange) 0))

/-- A write to a DMA-window command's object. -/
def windowObject (i n : Nat) : Bool := (i = 0x4010 && n = 1) || (i = 0x8007 && n = 1) || (i = 0x9003 && n = 2)

/-- The outcome of a write to any other object (R275, R290, R317). -/
def writeReply (r : NapReq) (s : State) : Reply :=
  s.gated r (fun s => match s.objGate r with
    | .error e => .no s e.1 e.2
    | .ok o =>
      if !s.isOwner r then .no s stNotOwner s.ownerSession
      else if s.fenced o r.sub then .no s stBusy 0
      else if o.acs = .staged then stageReply o r s
      else .no s stNotOwner s.ownerSession)

/-- WRITE (R269): of any object. -/
def execWrite (r : NapReq) (s : State) : Res :=
  if r.opcode ≠ 2 ∨ windowObject r.index r.sub then .next s
  else if r.index = 0x3001 ∧ r.sub = 1 then execWeirCommand r s
  else match writeMeaning r.index r.sub with
    | some act => act r s
    | none => .next (s.serve r (writeReply r))

end Sys2Proof.Machine
end

