-- ==== Sys2Proof/Machine/TileMover.lean ====
section
/-! DEFINITION. The tile mover (R11 to R13, R148, R186 to R197, R201, R206, R208): device addresses, COPY, PACK, UNPACK,
SDM_RD, SDM_WR and the merge lock. -/

namespace Sys2Proof.Machine

/-- Where an extent of device addresses lies (R11, R12). -/
inductive Place where
  | tiered (a : Nat)
  | sram (core off : Nat)
  | side (core off : Nat)
deriving DecidableEq, Repr

/-- The place of an extent, or the token code and DETAIL that refuse it (R12, R13); `word` is the address field's word. -/
def State.place (s : State) (a n word : Nat) : Except (Nat × Nat) Place :=
  if a < 2 ^ 43 then
    if a + n ≤ s.tieredLimit ∧ a + n ≤ 2 ^ 43 then .ok (.tiered a) else .error (tokAbsent, 0)
  else if 0x100000000000 ≤ a ∧ a < 0x100100000000 then
    let c := (a - 0x100000000000) / 0x2000000
    let off := (a - 0x100000000000) % 0x2000000
    if !s.part.hasCore c then .error (tokAbsent, 0)
    else if off < 0x1000000 then
      if off + n ≤ 0x1000000 then (if s.dieUp (c / 16) then .ok (.sram c off) else .error (tokDieAbsent, c / 16))
      else if off + n ≤ 0x1200000 then .error (tokRange, detailField word 0)
      else .error (tokAbsent, 0)
    else if off + n ≤ 0x1200000 then (if s.dieUp (c / 16) then .ok (.side c (off - 0x1000000)) else .error (tokDieAbsent, c / 16))
    else .error (tokAbsent, 0)
  else .error (tokAbsent, 0)

/-- What a read of a place answers: bytes, a wait for Backwater, or an error. -/
inductive Fetch where
  | bytes (bs : List Byte) (s : State)
  | wait (s : State)
  | fail (code detail : Nat) (s : State)

/-- Bytes at a place without any accounting. -/
def State.peek (s : State) : Place → Nat → List Byte
  | .tiered a, n => (s.access a n).flatMap s.pieceBytes
  | .sram c off, n => (s.core c).sramRead off n
  | .side c off, n => rdBytes (s.core c).side off n

/-- The key of a queue's descriptor among the reads of Backwater that have been counted. -/
def bwKey (q num : Nat) : Nat := 2 ^ 32 * q + num

/-- A core's read that reaches data in Backwater (R208): counted once for a descriptor, with the beats that it waits; a
descriptor that goes on waiting is remembered. -/
def State.noteBw (s : State) (c q num : Nat) (waits : Bool) : State :=
  let seen := (s.core c).bwNoted.contains (bwKey q num)
  let s1 := { s with free := s.free + 1 }.addObj 0xB109 c 64 (Config.freeNat s.free)
  let s2 := if seen then s1 else s1.addObj 0xB10A c 64 1
  s2.onCore c (fun k => { k with bwNoted := if waits then sIns k.bwNoted (bwKey q num) else k.bwNoted })

/-- A read that ends forgets that it was counted. -/
def State.endBw (s : State) (c q num : Nat) : State :=
  s.onCore c (fun k => { k with bwNoted := k.bwNoted.filter (fun x => x ≠ bwKey q num) })

/-- A read of `n` bytes by the descriptor `num` of queue `q` of core `c`, through its tile mover (R186, R196, R201, R208 to
R210). -/
def State.fetch (s0 : State) (c q num : Nat) (p : Place) (n : Nat) : Fetch :=
  match p with
  | .sram d off =>
    let s := s0.readWindow d [(off, n)]
    if (s.core d).poisoned off n then .fail tokUncorrectable 0 s else .bytes ((s.core d).sramRead off n) s
  | .side d off =>
    let s := s0.readWindow d [(0x1000000 + off, n)]
    if (s.core d).poisoned (0x1000000 + off) n then .fail tokUncorrectable 0 s else .bytes (rdBytes (s.core d).side off n) s
  | .tiered a =>
    let ps := s0.access a n
    match ps.findSome? s0.pieceFenced with
    | some d => .fail tokDieAbsent d s0
    | none =>
      let s := s0.readPieces ps
      match ps.find? s.piecePoisoned with
      | some x => .fail tokUncorrectable 0 (((s.countUe (s.tierOf x.key)).memUe x.addr).endBw c q num)
      | none => match ps.find? s.pieceDamaged with
        | some x => .fail tokUncorrectable 0 ((s.packCheck (Event.at { code := 0, cls := .degraded } c) x.addr).endBw c q num)
        | none =>
          if ps.any (s.pieceWaits (.core c)) then .wait ((s.noteBw c q num true).demandPages (.core c) ps)
          else
            let s1 := if ps.any s.pieceBelow then s.noteBw c q num false else s
            let r := (s1.endBw c q num).readTiered (.core c) a n
            .bytes r.1 r.2

/-- A core's tile-mover write of tiered memory (R191, R206). Whole tiles and plain bytes are written, or wait for a held
lock; a partial-tile write takes the lock of its tile, and lands when the lock frees. -/
def State.storeTiered (s : State) (c : Nat) (d : Desc) (a : Nat) (bs : List Byte) : Option State :=
  let ps := s.access a bs.length
  match s.mapAll (.core c) ps with
  | none => none
  | some s1 =>
    some (ps.foldl (fun t p =>
      let b := (bs.drop (p.addr - a)).take p.len
      match p.tile with
      | some (x, r) =>
        let m : Merge := ⟨.core c, some d, p.addr, b, none⟩
        if !p.whole then (t.addObj 0xB10B c 64 1).enqueueMerge x r m
        else if t.locked x then t.enqueueMerge x r m
        else t.writePiece (.core c) p b
      | none => t.writePiece (.core c) p b) s1)

/-- A tile-mover descriptor ends its own work: it retires, or waits for its merges. One that could not read a tile that it
writes in part has ended already. -/
def State.endMove (s : State) (c : Nat) (d : Desc) : State :=
  if !s.moveOpen c d.num then s
  else if s.merging c d.num then s.onCore c (fun k => k.begin 3 d.num)
  else s.okDesc c 3 d

/-- A core's tile-mover write at a place; no free frame is OUT_OF_RANGE with MEM_FULL (R206). -/
def State.deposit (s : State) (c : Nat) (d : Desc) (p : Place) (bs : List Byte) : State :=
  match p with
  | .sram x off => (s.onCore x (fun k => k.sramWrite off bs)).endMove c d
  | .side x off => (s.onCore x (fun k => k.sideWrite off bs)).endMove c d
  | .tiered a =>
    match (s.access a bs.length).findSome? s.pieceFenced with
    | some die => s.failDesc c 3 d tokDieAbsent die
    | none => match s.storeTiered c d a bs with
      | some t => t.endMove c d
      | none => (s.failDesc c 3 d tokRange (detailField 4 0)).memFull (.core c)

/-- The head of a core's tile-mover queue, if it has an opcode. -/
def State.tmHead (s : State) (c op : Nat) : Option Desc :=
  match (s.core c).tmQ.waiting with
  | d :: _ => if wb d.bytes 0 0 8 = op then some d else none
  | [] => none

/-- SRC of a tile-mover descriptor. -/
def tmSrc (b : List Byte) : Nat := fld b 8 6
/-- DST. -/
def tmDst (b : List Byte) : Nat := fld b 16 6
/-- LENGTH. -/
def tmLen (b : List Byte) : Nat := wd b 6
/-- The tile form of PACK and UNPACK. -/
def tmForm (b : List Byte) : TileFmt := ⟨wb b 7 16 4, wb b 7 23 1 = 1, wb b 7 20 2, wb b 7 22 1⟩
/-- TILE_COUNT. -/
def tmTiles (b : List Byte) : Nat := wb b 7 0 16

/-- A descriptor whose source is read in whole and whose written bytes are a function of what was read. -/
def State.moveBytes (s : State) (c : Nat) (d : Desc) (src dst : Place) (n : Nat) (f : List Byte → List Byte) : State :=
  match s.fetch c 3 d.num src n with
  | .bytes bs s1 => s1.deposit c d dst (f bs)
  | .wait s1 => s1
  | .fail code detail s1 => s1.failDesc c 3 d code detail

/-- COPY: LENGTH bytes, a multiple of 64, from SRC to DST, unchanged (R148, R190). -/
def execCopy (core : Nat) (s : State) : Res :=
  match s.tmHead core 1 with
  | none => .next s
  | some d =>
    let n := tmLen d.bytes
    if n % 64 ≠ 0 then .next (s.failDesc core 3 d tokRange (detailField 6 0))
    else match s.place (tmSrc d.bytes) n 2, s.place (tmDst d.bytes) n 4 with
    | .error e, _ => .next (s.failDesc core 3 d e.1 e.2)
    | _, .error e => .next (s.failDesc core 3 d e.1 e.2)
    | .ok src, .ok dst => .next (s.moveBytes core d src dst n id)

/-- A failing tile form of PACK or UNPACK (R68, R397). -/
def tmBadForm (b : List Byte) : Option (Nat × Nat) :=
  if !elemFormat (tmForm b).format then some (tokRange, detailField 7 16)
  else if !(tmForm b).ok then some (tokRange, detailField 7 23)
  else if tmLen b % 64 ≠ 0 then some (tokRange, detailField 6 0)
  else none

/-- The packed sequence of raw tiles at their stride (R197). -/
def packSequence (t : TileFmt) (n : Nat) (bs : List Byte) : List Byte :=
  (List.range n).flatMap (fun i => packTile t ((bs.drop (i * t.stride)).take t.raw))

/-- PACK: TILE_COUNT raw tiles at SRC become a packed sequence at DST (R197). -/
def execPack (core : Nat) (s : State) : Res :=
  match s.tmHead core 2 with
  | none => .next s
  | some d =>
    let b := d.bytes
    let t := tmForm b
    let n := tmTiles b
    match tmBadForm b with
    | some e => .next (s.failDesc core 3 d e.1 e.2)
    | none =>
      if tmLen b < n * (t.stride + 16) then .next (s.failDesc core 3 d tokRange (detailField 6 0))
      else match s.place (tmSrc b) (n * t.stride) 2, s.place (tmDst b) (tmLen b) 4 with
      | .error e, _ => .next (s.failDesc core 3 d e.1 e.2)
      | _, .error e => .next (s.failDesc core 3 d e.1 e.2)
      | .ok src, .ok dst => .next (s.moveBytes core d src dst (n * t.stride) (packSequence t n))

/-- The address walk of UNPACK: the offsets of `n` compressed tiles from `a`, and one past the last; or what refuses the
place of a header (R12, R13). -/
def State.unpackWalk (s : State) (a : Nat) : Nat → Nat → Except (Nat × Nat) (List Nat × Nat)
  | 0, off => .ok ([], off)
  | n + 1, off =>
    match s.place (a + off) 16 2 with
    | .error e => .error e
    | .ok p => match s.unpackWalk a n (off + packedSize (s.peek p 16)) with
      | .error e => .error e
      | .ok r => .ok (off :: r.1, r.2)

/-- Raw tiles written at their stride: the padding of each stride is left as it was. -/
def State.depositTiles (s : State) (c : Nat) (d : Desc) (a : Nat) (t : TileFmt) (tiles : List (List Byte)) : State :=
  let put := fun (s : State) (i : Nat) (bs : List Byte) =>
    match s.place (a + i * t.stride) t.raw 4 with
    | .error _ => some s
    | .ok (.sram x off) => some (s.onCore x (fun k => k.sramWrite off bs))
    | .ok (.side x off) => some (s.onCore x (fun k => k.sideWrite off bs))
    | .ok (.tiered b) => s.storeTiered c d b bs
  match (tiles.zipIdx).foldl (fun (o : Option State) x => match o with
    | some s => put s x.2 x.1
    | none => none) (some s) with
  | some s1 => s1.endMove c d
  | none => (s.failDesc c 3 d tokRange (detailField 4 0)).memFull (.core c)

/-- UNPACK: TILE_COUNT compressed tiles from SRC become raw tiles at stride S from DST; a tile that R196 refuses ends the
descriptor with UNCORRECTABLE and a PACK_CHECK event, and writes nothing (assumption 18). -/
def execUnpack (core : Nat) (s : State) : Res :=
  match s.tmHead core 3 with
  | none => .next s
  | some d =>
    let b := d.bytes
    let t := tmForm b
    let n := tmTiles b
    match tmBadForm b with
    | some e => .next (s.failDesc core 3 d e.1 e.2)
    | none =>
      match s.unpackWalk (tmSrc b) n 0 with
      | .error e => .next (s.failDesc core 3 d e.1 e.2)
      | .ok w =>
        match s.place (tmSrc b) w.2 2, s.place (tmDst b) (n * t.stride) 4 with
        | .error e, _ => .next (s.failDesc core 3 d e.1 e.2)
        | _, .error e => .next (s.failDesc core 3 d e.1 e.2)
        | .ok src, .ok dst =>
          match (match dst with
            | .tiered a => (s.access a (n * t.stride)).findSome? s.pieceFenced
            | _ => none) with
          | some die => .next (s.failDesc core 3 d tokDieAbsent die)
          | none =>
            match s.fetch core 3 d.num src w.2 with
            | .wait s1 => .next s1
            | .fail code detail s1 => .next (s1.failDesc core 3 d code detail)
            | .bytes bs s1 =>
              let tiles := w.1.map (fun o => (o, unpackTile t (bs.drop o)))
              match tiles.find? (fun x => x.2.isNone) with
              | some x =>
                .next ((s1.failDesc core 3 d tokUncorrectable 0).packCheck (Event.at { code := 0, cls := .degraded } core) (tmSrc b + x.1))
              | none => .next (s1.depositTiles core d (tmDst b) t (tiles.map (fun x => x.2.getD [])))

/-- The LENGTH of an SDM form: 16 to 4,096, a multiple of 16. -/
def sdmLenOk (n : Nat) : Bool := 16 ≤ n && n ≤ 4096 && n % 16 = 0

/-- SDM_RD: LENGTH bytes from the device address SRC into scalar data memory at DST [15:0]. -/
def execSdmRd (core : Nat) (s : State) : Res :=
  match s.tmHead core 4 with
  | none => .next s
  | some d =>
    let b := d.bytes
    let n := tmLen b
    let off := wb b 4 0 16
    if !sdmLenOk n then .next (s.failDesc core 3 d tokRange (detailField 6 0))
    else if 0x10000 < off + n then .next (s.failDesc core 3 d tokRange (detailField 4 0))
    else match s.place (tmSrc b) n 2 with
    | .error e => .next (s.failDesc core 3 d e.1 e.2)
    | .ok src => match s.fetch core 3 d.num src n with
      | .bytes bs s1 => .next ((s1.onCore core (fun k => k.tableWrite off bs)).okDesc core 3 d)
      | .wait s1 => .next s1
      | .fail code detail s1 => .next (s1.failDesc core 3 d code detail)

/-- SDM_WR: LENGTH bytes from scalar data memory at SRC [15:0] to the device address DST. -/
def execSdmWr (core : Nat) (s : State) : Res :=
  match s.tmHead core 5 with
  | none => .next s
  | some d =>
    let b := d.bytes
    let n := tmLen b
    let off := wb b 2 0 16
    if !sdmLenOk n then .next (s.failDesc core 3 d tokRange (detailField 6 0))
    else if 0x10000 < off + n then .next (s.failDesc core 3 d tokRange (detailField 2 0))
    else match s.place (tmDst b) n 4 with
    | .error e => .next (s.failDesc core 3 d e.1 e.2)
    | .ok dst => .next (s.deposit core d dst ((s.core core).sdmRead off n))

/-- MERGE_LOCK_GRANT (R191): the holder's merged tile is written, the lock frees, and the waiting writes proceed. A holder that
still waits for its tile reads it now. -/
def execMergeLockGrant (tileAddr : Nat) (s : State) : Res :=
  match mget [] s.mem.locks tileAddr, s.regionAt tileAddr with
  | m :: rest, some r => match m.merged with
    | some bs => .next ((((s.setLock tileAddr rest).landMerge tileAddr m bs).endMerge m).runLock tileAddr r rest)
    | none => .next (s.runLock tileAddr r (m :: rest))
  | _, _ => .next s

end Sys2Proof.Machine
end

