-- ==== Sys2Proof/Machine/Fused.lean ====
section
/-! DEFINITION. MMF, the adapter-fused product (R108, R109). -/

namespace Sys2Proof.Machine

/-- The adapter-table entry of a variant (R108). -/
def CoreState.adapterEntry (k : CoreState) (variant : Nat) : List Byte := k.sdmRead (0xEE00 + 8 * variant) 8

/-- A tensor record as an operand whose K runs along its stored columns when `trans` holds. -/
def tensorOperand (r : TensorRec) (fixed : Nat) (trans : Bool) : Operand :=
  { base := trBase r 4, form := trForm r, sexp := 0, tc := trTC r, fixed := fixed, kCols := trans }

/-- Tiles of a tensor in a version, read from tiered memory by the descriptor `num` of a core's matrix queue (R60, R109), or a
wait, or an error. -/
def State.fetchTiles (s : State) (c num : Nat) (r : TensorRec) (version : Nat) : List Nat → Except (Nat × Nat × State) (Option (List (List Byte)) × State)
  | [] => .ok (some [], s)
  | a :: rest =>
    match s.place a (trForm r).raw 12 with
    | .error e => .error (e.1, e.2, s)
    | .ok p => match s.fetch c 0 num p (trForm r).raw with
      | .fail code detail s1 => .error (code, detail, s1)
      | .wait s1 => .ok (none, s1)
      | .bytes _ s1 => match s1.fetchTiles c num r version rest with
        | .error e => .error e
        | .ok (none, s2) => .ok (none, s2)
        | .ok (some l, s2) => .ok (some (s1.bytesAt r version a (trForm r).raw :: l), s2)

/-- The k-tiles of an operand in tiered memory, loaded. -/
def Operand.loaded (o : Operand) (tiles : List (List Byte)) : Array (Array Num) := (tiles.map (loadTile o.form o.sexp)).toArray

/-- Numbers rounded into U_FORMAT by RNE with stream scale 1.0: the bits, the saturations and the NaNs written as zero (R81
to R85, R109). -/
def roundU (f : Fmt) (xs : List Num) : List Nat × Nat × Nat :=
  let os := xs.map (fun x => storeElem f x none)
  (os.map (fun o => o.bits), os.foldl (fun n o => n + b01 o.sat) 0, os.foldl (fun n o => n + b01 o.zeroed) 0)

/-- u of an adapter buffer as an operand: element (row, column) at 64 × row + column of its column's tile. -/
def uOperand (ufmt : Nat) : Operand := { base := 0, form := ⟨ufmt, false, 0, 0⟩, sexp := 0, tc := 4, fixed := 0, kCols := true }

/-- The tiles of u as loaded values, by k-tile. -/
def uTiles (a : Adapter) : Array (Array Num) :=
  let f := fmtD a.ufmt
  ((List.range ((a.rank + 63) / 64)).map (fun t => Array.ofFn (n := 4096) (fun i =>
    decodeElem f (mget 0 a.u (256 * (i.val / 64) + 64 * t + i.val % 64))))).toArray

/-- The bytes of u as a tensor of U_FORMAT, 64 × r (SAVE_U). -/
def uBytes (a : Adapter) : List Byte :=
  let t : TileFmt := ⟨a.ufmt, false, 0, 0⟩
  (List.range ((a.rank + 63) / 64)).flatMap (fun j =>
    padTo t.stride (packElems (fmtD a.ufmt).bits ((List.range 4096).map (fun i => mget 0 a.u (256 * (i / 64) + 64 * j + i % 64)))))

/-- The x tensor of a fused descriptor (R109): base and form, stream scale, tile columns, the extent of K, orientation, and
the micro-batch whose activations it is. -/
def fusedX (b : List Byte) : List Nat :=
  [wd b 2, wd b 4, wb b 6 0 16, wb b 7 0 24, wb b 8 0 24, wb b 12 28 1, wb b 1 0 16]

/-- The engine's adapter buffer holds u for these operands (R109). -/
def Adapter.matches (a : Adapter) (b : List Byte) (version : Nat) : Bool :=
  a.x = fusedX b && a.row = wb b 9 0 16 && a.variant = wb b 1 16 6 && a.version = version

/-- u = xA, from loaded x and A tiles by column tile: what the buffer then holds, its saturations and its NaNs written as
zero. -/
def computeU (split : Bool) (ox : Operand) (tx : Array (Array Num)) (oa : List (Operand × Array (Array Num))) (off n ufmt rank : Nat) :
    SMap Nat × Nat × Nat :=
  let f := fmtD ufmt
  let z : Operand × Array (Array Num) := (ox, #[])
  let xs := (List.range (64 * rank)).map (fun i =>
    let m := i / rank
    let j := i % rank
    let o := oa.getD (j / 64) z
    (contractElem split ox o.1 tx o.2 off n m (j % 64) Acc.zero).num)
  let r := roundU f xs
  ((r.1.zipIdx).filterMap (fun p => if p.1 = 0 then none else some (256 * (p.2 / rank) + p.2 % rank, p.1)), r.2)

/-- What a fused descriptor latches of its adapter: the entry's fields and the two records. -/
structure Fusion where
  rank : Nat
  ufmt : Nat
  recA : TensorRec
  recB : TensorRec
deriving DecidableEq, Repr

/-- The latched adapter of a descriptor, or its refusal (R108, R109): none with RANK 0. -/
def State.fusion (s : State) (c : Nat) (b : List Byte) : Except (Nat × Nat) (Option Fusion) :=
  let e := (s.core c).adapterEntry (wb b 1 16 6)
  let rank := wb e 0 0 9
  let ufmt := wb e 0 12 4
  if rank = 0 then .ok none
  else match s.stageOf c with
  | none => .error (tokNoObject, detailField 1 16)
  | some st => match s.tensor st.homeDie (wb e 0 16 12), s.tensor st.homeDie (wb e 1 0 12) with
    | some ra, some rb =>
      if operandClass ufmt ≠ operandClass (trForm rb).format then .error (tokRange, detailField 1 16)
      else .ok (some ⟨rank, ufmt, ra, rb⟩)
    | _, _ => .error (tokNoObject, detailField 1 16)

/-- The addresses of the k-tiles of an operand. -/
def Operand.addrs (o : Operand) (off n : Nat) : List Nat := (kTiles off n).map o.tileAt

/-- The version of its stage's weights that a fused descriptor's micro-batch holds (R60): a free value where the core has no
micro-batch of that name in flight. -/
def State.fusedVersion (s : State) (c : Nat) (b : List Byte) : Nat × State :=
  match (s.core c).flight (wb b 1 0 16) with
  | some f => (f.version, s)
  | none => (Config.freeNat s.free % 65536, { s with free := s.free + 1 })

/-- The u that an engine's adapter buffer holds for a descriptor, if it holds it (R109). -/
def CoreState.heldU (k : CoreState) (e : Nat) (b : List Byte) (version : Nat) : Option Adapter :=
  (k.engine e).adapter.filter (fun a => a.matches b version)

/-- The column tiles of A as operands of u = xA. -/
def fusedA (fu : Fusion) (b : List Byte) : List Operand :=
  (List.range ((fu.rank + 63) / 64)).map (fun j => tensorOperand fu.recA j (wb b 12 29 1 = 1))

/-- The operand B of uB. -/
def fusedB (fu : Fusion) (b : List Byte) : Operand := tensorOperand fu.recB (wb b 9 16 16) (wb b 12 29 1 = 1)

/-- What forming u leaves: the buffer, the saturations of its rounding and of A's split, its NaNs written as zero, and its
beats. -/
structure MadeU where
  buffer : Adapter
  sats   : Nat
  zeroed : Nat
  beats  : Nat
deriving DecidableEq, Repr

/-- u formed from loaded x and A (R109, step 1). -/
def makeU (fu : Fusion) (b : List Byte) (version : Nat) (split : Bool) (ox : Operand) (tx : Array (Array Num))
    (oas : List (Operand × Array (Array Num))) : MadeU :=
  let off := mmOff b
  let n := mmK b
  let u := computeU split ox tx oas off n fu.ufmt fu.rank
  let cut := oas.zipIdx.foldl (fun t p =>
    if split then t + splitSats p.1.1 p.1.2 off n (Nat.min 64 (fu.rank - 64 * p.2)) else t) 0
  { buffer := ⟨fusedX b, wb b 9 0 16, wb b 1 16 6, version, fu.ufmt, fu.rank, u.1⟩, sats := u.2.1 + cut, zeroed := u.2.2,
    beats := groupBeats (operandClass ox.form.format) split n * ((fu.rank + 63) / 64) }

/-- A fused product with an adapter run into a bank (R109): A is read and u formed only where the buffer does not hold it;
then the groups of xW, and those of uB in the same bank. -/
def State.runFused (s0 : State) (c e : Nat) (d : Desc) (fu : Fusion) (mismatches : List (List (Nat × Nat))) : State :=
  let b := d.bytes
  let bk := wb b 12 24 1
  let s := s0.readWindow c ((operandA b).reads (mmOff b) (mmK b) ++ (operandB b).reads (mmOff b) (mmK b))
  let k := s.core c
  let bank := (k.engine e).bank bk
  let ox := operandA b
  let ow := operandB b
  let off := mmOff b
  let n := mmK b
  let split := wb b 12 27 1 = 1
  let l := k.latch (wb b 10 24 8)
  let start : Bank := if wb b 12 25 1 = 1 then bank else ⟨.accumulating, 0, [], none⟩
  let ver := s.fusedVersion c b
  let held := k.heldU e b ver.1
  let cols := fusedA fu b
  let ob := fusedB fu b
  if ox.poisoned k off n || ow.poisoned k off n then ver.2.voidFail c e bk d tokUncorrectable 0
  else match (if held.isSome then .ok (some [], ver.2)
      else ver.2.fetchTiles c d.num fu.recA ver.1 (cols.flatMap (fun o => o.addrs off n))) with
  | .error x => x.2.2.voidFail c e bk d x.1 x.2.1
  | .ok (none, s1) => s1
  | .ok (some as, s1) => match s1.fetchTiles c d.num fu.recB ver.1 (ob.addrs 0 fu.rank) with
    | .error x => x.2.2.voidFail c e bk d x.1 x.2.1
    | .ok (none, s2) => s2
    | .ok (some bs, s2) =>
      let tx := ox.load k off n
      let tw := ow.load k off n
      let per := (kTiles off n).length
      let oas := if held.isSome then [] else cols.zipIdx.map (fun p => (p.1, p.1.loaded ((as.drop (p.2 * per)).take per)))
      let tb := ob.loaded bs
      match rangeBreak split ox ow tx tw off n with
      | some x => s2.rangeFail c e bk d (detailField (2 + x.1) 0) x
      | none =>
        match oas.findSome? (fun o => rangeBreak split ox o.1 tx o.2 off n) with
        | some x => s2.rangeFail c e bk d (detailField 1 16) x
        | none =>
          match rangeBreak false (uOperand fu.ufmt) ob #[] tb 0 fu.rank with
          | some x => s2.rangeFail c e bk d (detailField 1 16) x
          | none =>
            s2.tryGroups c e bk d start mismatches (fun t =>
              let made : MadeU := match held with
                | some a => ⟨a, 0, 0, 0⟩
                | none => makeU fu b ver.1 split ox tx oas
              let a := made.buffer
              let acc1 := contract split ox ow tx tw off n start.acc
              let acc2 := contract false (uOperand a.ufmt) ob (uTiles a) tb 0 a.rank acc1
              let sats := made.sats + (if split then splitSats ox tx off n 64 + splitSats ow tw off n 64 else 0)
              let t1 := ((t.onCore c (fun k =>
                let k1 := k.setEngine e { k.engine e with adapter := some a }
                if wb b 12 30 1 = 1 then k1.sramWrite (wb b 13 0 24) (uBytes a) else k1)).addObj 0x5012 c 64 sats).addObj
                  0x5011 c 64 made.zeroed
              (t1.groupsDone c e bk d l (start.groups + (n + 15) / 16 + (a.rank + 15) / 16) acc2).busy c
                (made.beats + groupBeats (operandClass ox.form.format) split n + groupBeats (operandClass a.ufmt) false a.rank))

/-- A failing field of MMF beyond MM's: the extent of u when it is saved. -/
def mmfBadField (b : List Byte) (fu : Fusion) : Option (Nat × Nat) :=
  if wb b 12 30 1 = 1 ∧ sramSize < wb b 13 0 24 + ((fu.rank + 63) / 64) * (TileFmt.stride ⟨fu.ufmt, false, 0, 0⟩) then some (13, 0) else none

/-- MMF (R109): the engine runs its oldest descriptor, which is fused with the adapter of its variant; with RANK 0 it runs as
a plain product. -/
def execMmf (core engine : Nat) (mismatches : List (List (Nat × Nat))) (s : State) : Res :=
  let k := s.core core
  match k.mxHead engine with
  | none => .next s
  | some d =>
    let b := d.bytes
    if wb b 0 0 8 ≠ 2 then .next s
    else if s.engineLost core engine then .next (s.failDesc core 0 d tokAbsent 0)
    else
      let bank := (k.engine engine).bank (wb b 12 24 1)
      if bank.st = .draining then .next s
      else match s.fusion core b with
      | .error e => .next (s.failDesc core 0 d e.1 e.2)
      | .ok none =>
        match mmRefuse k bank d ((mmK b + 15) / 16) with
        | some r => .next (s.failDesc core 0 d r.1 r.2)
        | none => .next (s.runProduct core engine d mismatches)
      | .ok (some fu) =>
        match mmRefuse k bank d ((mmK b + 15) / 16 + (fu.rank + 15) / 16), mmfBadField b fu with
        | some r, _ => .next (s.failDesc core 0 d r.1 r.2)
        | none, some f => .next (s.failDesc core 0 d tokRange (detailField f.1 f.2))
        | none, none => .next (s.runFused core engine d fu mismatches)

end Sys2Proof.Machine
end

