-- ==== Sys2Proof/Machine/Health.lean ====
section
/-! DEFINITION. Background work: beat monitors and delay counters (R26, R32), matched delays (R24, R321), patrol scrub (R320) and
row disturbance (R322). -/

namespace Sys2Proof.Machine

/-! Beats and delays. -/

/-- BEAT_WINDOW_CLOSE (R26): the completions that each core's monitor counted in 1 ms nominal, in units of 10⁶ a second. -/
def execBeatWindowClose (die : Nat) (completions : List Nat) (s : State) : Res :=
  if s.serving ∧ s.dieUp die then
    .next (((completions.take 14).zipIdx).foldl (fun (t : State) (x : Nat × Nat) =>
      t.setObj 0xA110 (16 * die + x.2) (x.1 / 1000 % 2 ^ 32)) s)
  else .next s


/-- DELAY_COUNTER_CALIBRATE (R32): a counter whose reference is locked is calibrated. -/
def execDelayCounterCalibrate (unit : Nat) (s : State) : Res :=
  .next (if s.serving ∧ (unit < s.part.dies ∨ unit = 8) ∧ s.refLocked unit then s.setObj 0xA120 unit 0 else s)

/-- The least setting of a matched delay that keeps the margin of R24 over its replica. -/
def marginOf (replica : Nat) : Nat := (11 * replica + 9) / 10

/-- MATCHED_DELAY_CALIBRATE (R24, R321): the setting proposed, lengthened where it would fall below the margin. -/
def execMatchedDelayCalibrate (path replica proposed : Nat) (s : State) : Res :=
  .next (if s.serving then
    { s with power := { s.power with delays := mset 0 s.power.delays path (Nat.max proposed (marginOf replica)) } } else s)

/-! Patrol scrub (R209, R210, R320). -/

/-- The Backwater channel of a sector, and the sector's place on it: sector k lies on channel k mod n at channel sector k div n,
where n channels are populated (R211). -/
def State.bwChannel (s : State) (sector : Nat) : Nat × Nat :=
  let n := ((List.range 12).filter (fun i => bitOf (s.obj 0x6001 2) i)).length
  (sector % n, sector / n)

/-- A line's correction recorded (R310, R320): its stack, or its Backwater channel, as the UNIT. -/
def State.ceEvent (s : State) (tier line : Nat) : Event :=
  if tier = tierBw then { code := 0x0402, cls := .corrected, die := 8, unit := (s.bwChannel (line / 64)).1, d0 := line % 2 ^ 32 }
  else { code := 0x0401, cls := .corrected, die := tier / 2, unit := tier, d0 := line % 2 ^ 32 }

/-- Lines of a tier, the system region of a stack included. -/
def State.tierLines (s : State) (tier : Nat) : Nat := if tier = tierBw then 64 * s.bwSectors else 64 * 16777216

/-- A tier that scrub reads: Backwater, or a stack whose die is in service. -/
def State.scrubs (s : State) (tier : Nat) : Bool := tier = tierBw || s.dieUp (tier / 2)

/-- A frame holds a line of a tier. -/
def Frame.holds (f : Frame) (tier line : Nat) : Bool := f.tier = tier && 64 * f.first ≤ line && line < 64 * (f.first + f.sectors)

/-- The logical address of a line of a page's frame. -/
def State.lineAddr (s : State) (key l : Nat) : Nat :=
  if key % 2 = 0 then key / 2 + 64 * l
  else match s.regionAt (key / 2) with
    | some r => key / 2 + l / ((r.form.stride + 64) / 64) * r.form.stride
    | none => key / 2

/-- An uncorrectable line of a page (R320): MEM_UE where a tensor record names the page's region, else SCRUB_UE. -/
def State.pageUe (s : State) (key l : Nat) (kept : Bool) : State :=
  let a := s.lineAddr key l
  if !kept ∧ (s.tensorDie a).isSome then s.memUe a
  else s.record { code := 0x0404, cls := .degraded, d0 := a % 2 ^ 32, d1 := a / 2 ^ 32 % 65536 }

/-- The current page whose frame holds a line. -/
def State.pageOfLine (s : State) (tier line : Nat) : Option (Nat × Page) :=
  s.mem.pages.findSome? (fun (e : Nat × Option Page) => match e.2 with
    | some p => if p.frame.holds tier line then some (e.1, p) else none
    | none => none)

/-- The shadow or snapshot-held page whose frame holds a line. -/
def State.keptOfLine (s : State) (tier line : Nat) : Option (Nat × Retained) :=
  s.mem.retained.findSome? (fun (e : Nat × Option Retained) => match e.2 with
    | some r => if r.page.frame.holds tier line then some (e.1, r) else none
    | none => none)

/-- A buddy page whose frame holds a line. -/
def heldLine (tier line : Nat) (p : BuddyPage) : Bool := p.frame.holds tier line

/-- A copy without the images that hold a line: nothing counts for its package until a full drain has come. -/
def Copy.lose (c : Copy) (tier line : Nat) : Copy :=
  { c with
    images := c.images.filter (fun (i : Nat × List BuddyPage × List Byte) => !i.2.1.any (heldLine tier line)),
    coming := c.coming.bind (fun (x : Nat × List BuddyPage) => if x.2.any (heldLine tier line) then none else some x),
    broken := true,
    asked := [],
    ending := none }

/-- A copy holds a line. -/
def Copy.hasLine (c : Copy) (tier line : Nat) : Bool :=
  c.images.any (fun (i : Nat × List BuddyPage × List Byte) => i.2.1.any (heldLine tier line))
    || c.coming.any (fun (x : Nat × List BuddyPage) => x.2.any (heldLine tier line))

/-- An uncorrectable line (R320): what follows depends on what holds it. -/
def State.scrubUe (s : State) (tier line : Nat) : State :=
  let s0 := s.countUe tier
  if s.tierSectors tier * 64 ≤ line then
    let f := s0.fresh
    f.2.event { code := 0x0403, cls := .fault, selfLost := true, d0 := Config.freeNat f.1 % 2 ^ 32 }
  else match s0.pageOfLine tier line with
    | some (k, p) =>
      let l := line - 64 * p.frame.first
      (s0.setPage k (some { p with poison := sIns p.poison l })).pageUe k l false
    | none => match s0.keptOfLine tier line with
      | some (i, r) =>
        let l := line - 64 * r.page.frame.first
        (s0.setKept i (some { r with page := { r.page with poison := sIns r.page.poison l } })).pageUe r.key l true
      | none => match s0.buddy.copies.find? (fun (c : Copy) => c.hasLine tier line) with
        | some c =>
          let s1 : State := { s0 with buddy := { s0.buddy with
            copies := s0.buddy.copies.map (fun (x : Copy) => if x.source = c.source then x.lose tier line else x) } }
          (s1.record { code := 0x0705, cls := .degraded, d0 := c.source }).command c.source 0x4040 0x13 (leBytes 8 imageLost)
        | none =>
          if s0.frames.any (fun f => f.holds tier line) then s0
          else { s0 with mem := { s0.mem with retired := mset [] s0.mem.retired tier (sIns (s0.retiredIn tier) (line / 64)) } }

/-- What a wrong resolution leaves in the page that holds a line (R209). -/
def State.damageAt (s : State) (tier line : Nat) (left : SMap Nat) : State :=
  if left = [] then s
  else match s.pageOfLine tier line, s.keptOfLine tier line with
    | some (k, p), _ =>
      let x := s.damageLine k (line - 64 * p.frame.first) (p, s.mem.cells) left
      { s with mem := { s.mem with cells := x.2 } }.setPage k (some x.1)
    | none, some (i, r) =>
      let x := s.damageLine r.key (line - 64 * r.page.frame.first) (r.page, r.cells) left
      s.setKept i (some { r with page := x.1, cells := x.2 })
    | none, none => s

/-- A correctable line that scrub has read: counted and, in two successive passes, recorded, with its sectors due to retire. -/
def State.scrubCe (s : State) (tier line : Nat) : State :=
  let id := lineId tier line
  let seen := s.mem.ceSeen.contains id
  let t : State := { s.countCe tier with mem := { s.mem with
    ceSeen := sIns s.mem.ceSeen id,
    retireDue := if seen then sIns s.mem.retireDue id else s.mem.retireDue } }
  if seen then t.record (s.ceEvent tier line) else t

/-- The pattern that scrub finds in a line: the symbol errors that stand in it, and those that have struck it since. -/
def State.patternOf (s : State) (tier line : Nat) (struck : SMap Nat) : SMap Nat :=
  addErrors (mget [] s.mem.errors (lineId tier line)) struck

/-- SCRUB_LINE (R320): patrol scrub reads a line of a tier through its code (R209); the last line ends the pass. -/
def execScrubLine (tier line : Nat) (struck : List (Nat × Nat)) (s : State) : Res :=
  if !s.serving ∨ tierBw < tier ∨ !s.scrubs tier ∨ s.tierLines tier ≤ line then .next s
  else
    let id := lineId tier line
    let s0 : State := { s with mem := { s.mem with errors := mset [] s.mem.errors id [] } }
    let fresh : State := { s0 with mem := { s0.mem with ceSeen := sDel s0.mem.ceSeen id } }
    let s1 := match (tierCode tier).decode (s.patternOf tier line struck) with
      | .clean left => fresh.damageAt tier line left
      | .corrected left => (s0.scrubCe tier line).damageAt tier line left
      | .uncorrectable => fresh.scrubUe tier line
    .next (if line + 1 = s.tierLines tier then s1.addObj 0x801A tier 32 1 else s1)

/-! Upsets (R186, R209). -/

/-- A bit of core memory, or a symbol of a line, struck. A word or line that the part lacks is none. -/
def State.strike (s : State) : Config.Upset → State
  | .core c w bit =>
    if s.part.hasCore c ∧ w < 0x240000 ∧ bit < 72 then
      s.onCore c (fun k => { k with flips := mset 0 k.flips w (mget 0 k.flips w ^^^ 2 ^ bit) })
    else s
  | .line tier line symbol pattern =>
    if tier ≤ tierBw ∧ line < s.tierLines tier ∧ symbol < (tierCode tier).n ∧ pattern < 256 then
      { s with mem := { s.mem with errors := mset [] s.mem.errors (lineId tier line) (s.patternOf tier line [(symbol, pattern)]) } }
    else s

/-- The block idles: the boundary queues drain, and what strikes its memory meanwhile is free (assumptions 171, 176). -/
def State.idle (s : State) : State :=
  let t := { s.boundaryIdle with free := s.free + 1 }
  match Config.upset s.free with
  | some u => t.strike u
  | none => t

/-- ROW_DISTURB_REFRESH (R322): the rows beside one that reached 4,096 activations are refreshed. -/
def execRowDisturbRefresh (stack : Nat) (_row : Nat) (s : State) : Res :=
  .next (if s.serving ∧ stack < s.part.stacks ∧ s.dieUp (stack / 2) then s.addObj 0x801B stack 64 1 else s)

end Sys2Proof.Machine
end

