-- ==== Sys2Proof/Machine/Row.lean ====
section
/-! DEFINITION. The row engine (R131 to R140): normalisations, soft-maximum and their backward forms, with statistics
records in side memory. -/

namespace Sys2Proof.Machine

/-! Exponential (R135). -/

/-- floor(ln 2 × 2^200). -/
def ln2Fixed : Nat := 1113844574712631719546256151097547306333272293549090750737802

/-- 2^(i/256) in 128 fraction bits, by eight square roots of 2^i. -/
def pow2Frac (i : Nat) : Nat := forN 8 (2 ^ (i + 128)) (fun v _ => Nat.sqrt (v * 2 ^ 128))

/-- c0, c1 and c2 of segment `i`, each rounded once. -/
def expCoef (i : Nat) : Nat × Nat × Nat :=
  let v := pow2Frac i
  (rne32 (.fin false v (-128)), rne32 (.fin false (v * ln2Fixed) (-336)), rne32 (.fin false (v * ln2Fixed * ln2Fixed) (-545)))

/-- exp32 (R135). -/
def exp32 (x : Nat) : Nat :=
  match f32 x with
  | .nan => qnan
  | .inf n => if n then 0 else infBits false
  | .fin _ _ _ =>
    let z := fmul x 0x3FB8AA3B
    match f32 z with
    | .nan => qnan
    | .inf n => if n then 0 else infBits false
    | .fin neg m e =>
      let d := dyOf neg m e
      let n := d.floorAt 0
      let f := d.add ⟨-n, 0⟩
      let i := (Dy.mk f.m (f.e + 8)).floorAt 0
      let u := ((Dy.mk f.m (f.e + 8)).add ⟨-i, 0⟩).num
      let c := expCoef i.toNat
      let p := ffmaN u (ffmaN u c.2.2 c.2.1) c.1
      if 400 < n then infBits false else if n < -400 then 0 else fscl p n

/-! Descriptor fields (R148). -/

/-- N. -/
def rwN (b : List Byte) : Nat := wb b 11 0 14
/-- ROWS. -/
def rwRows (b : List Byte) : Nat := wb b 11 14 13
/-- STAT_BASE. -/
def rwStat (b : List Byte) : Nat := wb b 12 0 17
/-- The source form in word `i`. -/
def rwForm (b : List Byte) (i : Nat) : TileFmt := ⟨wb b i 24 4, wb b i 28 1 = 1, wb b i 29 2, wb b i 31 1⟩
/-- The tile index of a tensor row and tile column. -/
def rwTile (b : List Byte) (row col : Nat) : Nat := (wb b 14 0 16 + row) / 64 * wb b 14 16 16 + col

/-- One past the last tile that a tensor of a row descriptor uses. -/
def rwTiles (b : List Byte) : Nat := rwTile b (rwRows b - 1) ((rwN b - 1) / 64) + 1

/-- The rows of tiles and columns of tiles that a descriptor covers. -/
def rwTileRows (b : List Byte) : List Nat :=
  (List.range ((wb b 14 0 16 + rwRows b - 1) / 64 + 1)).drop (wb b 14 0 16 / 64)

/-- The offsets of the tiles of a tensor that a descriptor covers. -/
def rwOffsets (b : List Byte) (base stride : Nat) : List Nat :=
  (rwTileRows b).flatMap (fun i => (List.range ((rwN b + 63) / 64)).map (fun j => base + (i * wb b 14 16 16 + j) * stride))

/-- A source tensor: base, form and stream scale. -/
structure RowSrc where
  base : Nat
  form : TileFmt
  scale : Nat
deriving DecidableEq, Repr

/-- The X source. -/
def rwX (b : List Byte) : RowSrc := ⟨wb b 2 0 24, rwForm b 2, wd b 3⟩
/-- The G source. -/
def rwG (b : List Byte) : RowSrc := ⟨wb b 5 0 24, rwForm b 5, wd b 6⟩

/-- A source's failing field; `word` is the word of its base. -/
def rwSrcBad (b : List Byte) (x : RowSrc) (word : Nat) : Option (Nat × Nat) :=
  if !elemFormat x.form.format then some (word, 24)
  else if !x.form.ok then some (word, 28)
  else if (streamExp x.scale).isNone then some (word + 1, 0)
  else if sramSize < x.base + rwTiles b * x.form.stride then some (word, 0)
  else none

/-- The elements of a source, row by row, as FP32 with the saturations of the load path (R86). -/
def rwLoad (k : CoreState) (b : List Byte) (x : RowSrc) : Array (Array Nat) × Nat :=
  let sexp := (streamExp x.scale).getD 0
  let tc := (rwN b + 63) / 64
  let first := wb b 14 0 16 / 64
  let tiles := ((rwOffsets b x.base x.form.stride).map (fun o => loadTile x.form sexp (k.sramRead o x.form.raw))).toArray
  let at' := fun (r j : Nat) =>
    widen ((tiles.getD (((wb b 14 0 16 + r) / 64 - first) * tc + j / 64) #[]).getD (64 * ((wb b 14 0 16 + r) % 64) + j % 64) (.fin false 0 0))
  let rows := Array.ofFn (n := rwRows b) (fun r => Array.ofFn (n := rwN b) (fun j => at' r.val j.val))
  (rows.map (fun a => a.map Prod.fst), rows.foldl (fun n a => a.foldl (fun n p => n + b01 p.2) n) 0)

/-- The extents of core SRAM that a source reads. -/
def rwReads (b : List Byte) (x : RowSrc) : List (Nat × Nat) := (rwOffsets b x.base x.form.stride).map (fun o => (o, x.form.raw))

/-- n FP32 elements from an offset of core SRAM. -/
def rwVec (k : CoreState) (off n : Nat) : Array Nat := ((chunks n 4 (k.sramRead off (4 * n))).map leNat).toArray

/-- Whether position j of row r is masked (R138): a causal bound, a valid length, a bit-mask tensor of 512-byte tiles. -/
def rwMasked (k : CoreState) (b : List Byte) (r j : Nat) : Bool :=
  (wb b 15 16 1 = 1 && decide ((r : Int) + sx 16 (wb b 15 0 16) < (j : Int)))
    || (wb b 15 17 1 = 1 && wb b 15 18 14 ≤ j)
    || (wb b 8 24 1 = 1 &&
      (let i := 64 * ((wb b 14 0 16 + r) % 64) + j % 64
       !bitOf (rdByte k.sram (wb b 8 0 24 + 512 * rwTile b r (j / 64) + i / 8)).toNat (i % 8)))

/-! Statistics records (R133). -/

/-- A statistics record. -/
structure Stat where
  a       : Nat
  b       : Nat
  c       : Nat
  k       : Nat
  empty   : Bool
  inf     : Bool
  nan     : Bool
  partial' : Bool
  kind    : Nat
deriving DecidableEq, Repr

/-- A record from its 16 bytes. -/
def statOf (x : List Byte) : Stat :=
  ⟨wd x 0, wd x 1, wd x 2, wb x 3 0 16, wb x 3 16 1 = 1, wb x 3 17 1 = 1, wb x 3 18 1 = 1, wb x 3 19 1 = 1, wb x 3 20 4⟩

/-- A record's bytes. -/
def Stat.bytes (s : Stat) : List Byte :=
  wordsLE [s.a, s.b, s.c, s.k + b01 s.empty * 2 ^ 16 + b01 s.inf * 2 ^ 17 + b01 s.nan * 2 ^ 18 + b01 s.partial' * 2 ^ 19 + s.kind * 2 ^ 20]

/-- Record `i` of a core. -/
def CoreState.stat (k : CoreState) (i : Nat) : Stat := statOf (rdBytes k.side (16 * i) 16)

/-- A record written. -/
def CoreState.setStat (k : CoreState) (i : Nat) (s : Stat) : CoreState := k.sideWrite (16 * i) s.bytes

/-! Rows. -/

/-- What a row of a descriptor gives: its output elements (none where the form writes no tensor), its record, its α or r,
and the special case that it is, if any. -/
structure RowOut where
  y     : List Nat := []
  stat  : Option Stat := none
  alpha : Option Nat := none
  nan   : Bool := false
  inf   : Bool := false
  empty : Bool := false
deriving DecidableEq, Repr

/-- The sum of a row by R132. -/
def rowSum (xs : List Nat) : Nat := laneTree (xs.map some).toArray

/-- FP32 division by an exact integer. -/
def divN (x n : Nat) : Nat := fdiv x (ofNat32 n)

/-- The ROW_ flags and counters of a row, and NF_STEP by its flag (R136, R138). -/
def State.noteRow (s : State) (c : Nat) (b : List Byte) (o : RowOut) : State :=
  let s1 := if o.nan then s.addObj 0x5017 c 64 1 else if o.inf then s.addObj 0x5016 c 64 1 else if o.empty then s.addObj 0x5015 c 64 1 else s
  if wb b 12 20 1 = 1 ∧ (o.nan ∨ o.inf ∨ o.empty) then
    s1.onSummary c (wb b 12 17 3) (fun v => ((v.flag 7 o.empty).flag 8 o.inf).flag 9 o.nan)
  else s1

/-- The rows' output tensor stored through the scale-table entry: rows in order draw in row order (R92), and the elements
that the descriptor does not cover are kept. -/
def State.storeRows (s : State) (c : Nat) (b : List Byte) (ys : List (List Nat)) : State :=
  let k := s.core c
  let l := k.latch (wb b 4 24 8)
  let n := rwN b
  let dr := s.draw c 9 (ys.flatMap (fun y => y.zipIdx.map (fun p => (p.2 % 256, l.sr))))
  let vals := (ys.flatMap id).toArray
  let draws := dr.1.toArray
  let tiles := (rwTileRows b).flatMap (fun i => (List.range ((n + 63) / 64)).map (fun j => (i, j)))
  let r := tiles.foldl (fun (x : CoreState × StoreSum) t =>
    let outs := Array.ofFn (n := 4096) (fun e =>
      let row := 64 * t.1 + e.val / 64
      let col := 64 * t.2 + e.val % 64
      let fr := wb b 14 0 16
      if fr ≤ row ∧ row < fr + rwRows b ∧ col < n then
        let ix := (row - fr) * n + col
        (VOut.val (vals.getD ix 0), draws.getD ix none)
      else (VOut.keep, none))
    let off := wb b 4 0 24 + (t.1 * wb b 14 16 16 + t.2) * l.tile.stride
    let st := storeTileSparse l.tile l.sexp (x.1.sramRead off l.tile.raw) outs
    (x.1.sramWrite off st.1, x.2.join st.2)) (dr.2.core c, {})
  let s1 := (dr.2.setCore c r.1).foldStore c l.entry r.2
  if wb b 12 20 1 = 1 ∧ r.2.sats ≠ 0 then
    s1.onSummary c (wb b 12 17 3) (fun v => v.flag 6 true)
  else s1

/-- The α or r of each row written to a vector register. -/
def CoreState.writeAlpha (k : CoreState) (b : List Byte) (outs : List RowOut) : CoreState :=
  outs.zipIdx.foldl (fun k p => match p.1.alpha with
    | some a => { k with vregs := mset 0 k.vregs (256 * wb b 12 24 5 + p.2) (BitVec.ofNat 32 a) }
    | none => k) k

/-- What a row operation is. -/
structure RowOp where
  op     : Nat
  /-- It reads G. -/
  useG   : Bool
  /-- It reads X. -/
  useX   : Bool
  /-- It writes the output tensor. -/
  store  : Bool
  /-- It is a normalisation: word 13 is ε; else σ. -/
  norm   : Bool
  /-- Its own refusal, from the core, the descriptor and the records. -/
  extra  : CoreState → List Byte → Option (Nat × Nat)
  /-- One row: the core as the descriptor found it, the descriptor, the row, x, g, the record as earlier rows left it, and two free values. -/
  row    : CoreState → List Byte → Nat → List Nat → List Nat → Stat → Nat × Nat → RowOut

/-- The oldest row descriptor, when its opcode is `op`. -/
def CoreState.rowHead (k : CoreState) (op : Nat) : Option Desc :=
  match k.rowQ.waiting with
  | d :: _ => if wb d.bytes 0 0 8 = op then some d else none
  | [] => none

/-- A positive normal FP32 value. -/
def posNormal (w : Nat) : Bool := w < 0x7F800000 && 0x00800000 ≤ w

/-- The forms that multiply by the soft-maximum scale and read the mask tensor: SMAX, SMAX_BWD and SMAX_PART (R138 to R140). -/
def RowOp.softMax (o : RowOp) : Bool := 5 ≤ o.op && o.op ≤ 7

/-- What refuses a row descriptor (R131, R134, R147, R148). -/
def RowOp.bad (o : RowOp) (k : CoreState) (b : List Byte) : Option (Nat × Nat) :=
  let n := rwN b
  let l := k.latch (wb b 4 24 8)
  if n = 0 ∨ 8192 < n then some (11, 0)
  else if rwRows b = 0 ∨ 4096 < rwRows b then some (11, 14)
  else if 131072 < rwStat b + rwRows b then some (12, 0)
  else if o.norm && !posNormal (wd b 13) then some (13, 0)
  else if o.softMax && !finB (wd b 13) then some (13, 0)
  else if 8192 < wb b 15 18 14 then some (15, 18)
  else match (if o.useX then rwSrcBad b (rwX b) 2 else none) with
  | some f => some f
  | none => match (if o.useG then rwSrcBad b (rwG b) 5 else none) with
    | some f => some f
    | none =>
      if o.store ∧ !l.ok then some (4, 24)
      else if o.store ∧ sramSize < wb b 4 0 24 + rwTiles b * l.tile.stride then some (4, 0)
      else if o.softMax ∧ wb b 8 24 1 = 1 ∧ sramSize < wb b 8 0 24 + rwTiles b * 512 then some (8, 0)
      else if o.norm ∧ wb b 7 24 1 = 1 ∧ sramSize < wb b 7 0 24 + 4 * n then some (7, 0)
      else o.extra k b

/-- The extents of the core window that a row descriptor reads: its sources, γ and β or the mask tensor, the accumulators dγ
and dβ of a backward norm, and its records. -/
def RowOp.reads (o : RowOp) (b : List Byte) : List (Nat × Nat) :=
  let vec := fun (on : Bool) (base : Nat) => if on then [(base, 4 * rwN b)] else []
  (if o.useX then rwReads b (rwX b) else []) ++ (if o.useG then rwReads b (rwG b) else [])
    ++ vec (o.norm && wb b 7 24 1 = 1) (wb b 7 0 24) ++ vec (o.op = 1 && wb b 8 24 1 = 1) (wb b 8 0 24)
    ++ vec (o.op = 3 || o.op = 4) (wb b 9 0 24) ++ vec (o.op = 3) (wb b 10 0 24)
    ++ (if o.softMax && wb b 8 24 1 = 1 then (rwOffsets b (wb b 8 0 24) 512).map (fun a => (a, 512)) else [])
    ++ [(0x1000000 + 16 * rwStat b, 16 * rwRows b)]

/-- A row descriptor run whole: rows in increasing order (R131). `after` is what the form writes beside. -/
def RowOp.run (o : RowOp) (after : List Byte → Array (Array Nat) → Array (Array Nat) → List RowOut → CoreState → CoreState)
    (c : Nat) (s : State) : Res :=
  let k := s.core c
  match k.rowHead o.op with
  | none => .next s
  | some d =>
    let b := d.bytes
    match o.bad k b with
    | some f => .next (s.failDesc c 2 d tokRange (detailField f.1 f.2))
    | none =>
      let s0 := s.readWindow c (o.reads b)
      if (o.reads b).any (fun x => k.poisoned x.1 x.2) then .next (s0.failDesc c 2 d tokUncorrectable 0)
      else
        let x : Array (Array Nat) × Nat := if o.useX then rwLoad k b (rwX b) else (#[], 0)
        let g : Array (Array Nat) × Nat := if o.useG then rwLoad k b (rwG b) else (#[], 0)
        let outs := (List.range (rwRows b)).map (fun r =>
          o.row k b r (x.1.getD r #[]).toList (g.1.getD r #[]).toList (k.stat (rwStat b + r))
            (Config.freeNat (s0.free + 2 * r) % 2 ^ 32, Config.freeNat (s0.free + 2 * r + 1) % 2 ^ 32))
        let s1 := { s0 with free := s0.free + 2 * rwRows b }.addObj 0x5012 c 64 (x.2 + g.2)
        let s2 := if o.store then s1.storeRows c b (outs.map (fun r => r.y)) else s1
        let s3 := s2.onCore c (fun k =>
          let k1 := outs.zipIdx.foldl (fun k p => match p.1.stat with
            | some st => k.setStat (rwStat b + p.2) st
            | none => k) k
          after b x.1 g.1 outs (k1.writeAlpha b outs))
        .next ((outs.foldl (fun t r => t.noteRow c b r) s3).okDesc c 2 d)

/-- Nothing written beside. -/
def noAfter (_ : List Byte) (_ _ : Array (Array Nat)) (_ : List RowOut) (k : CoreState) : CoreState := k

/-! Normalisation (R136, R137). -/

/-- γ of the descriptor: 1 where absent. -/
def rwGamma (k : CoreState) (b : List Byte) : Array Nat :=
  if wb b 7 24 1 = 1 then rwVec k (wb b 7 0 24) (rwN b) else Array.replicate (rwN b) one32

/-- β of the descriptor: 0 where absent. -/
def rwBeta (k : CoreState) (b : List Byte) : Array Nat :=
  if wb b 8 24 1 = 1 then rwVec k (wb b 8 0 24) (rwN b) else Array.replicate (rwN b) 0

/-- A norm record: STAT_C stays as it was. -/
def normStat (old : Stat) (a b kind : Nat) (nan : Bool) : Stat :=
  { a := a, b := b, c := old.c, k := 0, empty := false, inf := false, nan := nan, partial' := false, kind := kind }

/-- A forward layer-norm row. -/
def lnormRow (k : CoreState) (b : List Byte) (_r : Nat) (x _g : List Nat) (old : Stat) (_f : Nat × Nat) : RowOut :=
  let n := rwN b
  let gamma := rwGamma k b
  let beta := rwBeta k b
  let total := rowSum x
  let mu := divN total n
  let d := x.map (fun v => fsub v mu)
  let squares := rowSum (d.map (fun v => fmul v v))
  let rstd := frsq (fadd (divN squares n) (wd b 13))
  let nan := x.any (fun v => !finB v) || !finB total || !finB squares
  { y := if nan then x.map (fun _ => qnan)
      else d.zipIdx.map (fun p => ffma (fmul p.1 rstd) (gamma.getD p.2 0) (beta.getD p.2 0)),
    stat := some (normStat old mu rstd 1 nan), nan := nan }

/-- A forward RMS-norm row. -/
def rmsnormRow (k : CoreState) (b : List Byte) (_r : Nat) (x _g : List Nat) (old : Stat) (_f : Nat × Nat) : RowOut :=
  let n := rwN b
  let gamma := rwGamma k b
  let squares := rowSum (x.map (fun v => fmul v v))
  let rr := frsq (fadd (divN squares n) (wd b 13))
  let nan := x.any (fun v => !finB v) || !finB squares
  { y := if nan then x.map (fun _ => qnan) else x.zipIdx.map (fun p => fmul (fmul p.1 rr) (gamma.getD p.2 0)),
    stat := some (normStat old 0 rr 2 nan), nan := nan }

/-- x̂ of a row, as the forward formed it; NaN where the record has NAN set. -/
def xHat (layer : Bool) (st : Stat) (x : List Nat) : List Nat :=
  x.map (fun v => if st.nan then qnan else if layer then fmul (fsub v st.a) st.b else fmul v st.b)

/-- A backward norm row. -/
def normBwdRow (layer : Bool) (k : CoreState) (b : List Byte) (_r : Nat) (x dy : List Nat) (st : Stat) (_f : Nat × Nat) : RowOut :=
  let n := rwN b
  let gamma := rwGamma k b
  let xh := xHat layer st x
  let g := dy.zipIdx.map (fun p => fmul p.1 (gamma.getD p.2 0))
  let a := if layer then divN (rowSum g) n else 0
  let bb := divN (rowSum ((g.zip xh).map (fun p => fmul p.1 p.2))) n
  { y := (g.zip xh).map (fun p => if st.nan then qnan else fmul st.b (fsub (fsub p.1 a) (fmul p.2 bb))) }

/-- FP32 vectors of core SRAM with a row's terms added. -/
def addVec (k : CoreState) (off : Nat) (terms : List Nat) : CoreState :=
  let old := rwVec k off terms.length
  k.sramWrite off ((terms.zipIdx.map (fun p => fadd (old.getD p.2 0) p.1)).flatMap (leBytes 4))

/-- dγ and dβ take the rows in increasing order (R137). -/
def normBwdAfter (layer : Bool) (k0 : CoreState) (b : List Byte) (x dy : Array (Array Nat)) (_outs : List RowOut) (k : CoreState) : CoreState :=
  forN (rwRows b) k (fun k r =>
    let st := k0.stat (rwStat b + r)
    let xs := (x.getD r #[]).toList
    let ds := (dy.getD r #[]).toList
    let k1 := addVec k (wb b 9 0 24) ((ds.zip (xHat layer st xs)).map (fun p => fmul p.1 p.2))
    if layer then addVec k1 (wb b 10 0 24) ds else k1)

/-- A backward norm's refusal: a record of another KIND (R134), or an accumulator past core SRAM. -/
def normBwdBad (layer : Bool) (k : CoreState) (b : List Byte) : Option (Nat × Nat) :=
  if (List.range (rwRows b)).any (fun r => (k.stat (rwStat b + r)).kind ≠ (if layer then 1 else 2)) then some (12, 0)
  else if sramSize < wb b 9 0 24 + 4 * rwN b then some (9, 0)
  else if layer ∧ sramSize < wb b 10 0 24 + 4 * rwN b then some (10, 0)
  else none

/-- β past core SRAM. -/
def betaBad (_k : CoreState) (b : List Byte) : Option (Nat × Nat) :=
  if wb b 8 24 1 = 1 ∧ sramSize < wb b 8 0 24 + 4 * rwN b then some (8, 0) else none

/-- LNORM (R136). -/
def execLnorm (core : Nat) (s : State) : Res :=
  RowOp.run ⟨1, false, true, true, true, betaBad, lnormRow⟩ noAfter core s

/-- RMSNORM (R136). -/
def execRmsnorm (core : Nat) (s : State) : Res :=
  RowOp.run ⟨2, false, true, true, true, fun _ _ => none, rmsnormRow⟩ noAfter core s

/-- LNORM_BWD (R137). -/
def execLnormBwd (core : Nat) (s : State) : Res :=
  RowOp.run ⟨3, true, true, true, true, normBwdBad true, normBwdRow true⟩ (normBwdAfter true (s.core core)) core s

/-- RMSNORM_BWD (R137). -/
def execRmsnormBwd (core : Nat) (s : State) : Res :=
  RowOp.run ⟨4, true, true, true, true, normBwdBad false, normBwdRow false⟩ (normBwdAfter false (s.core core)) core s

/-! Soft-maximum (R138 to R140). -/

/-- The scores of a row: none at a masked position. -/
def scores (k : CoreState) (b : List Byte) (r : Nat) (x : List Nat) : List (Option Nat) :=
  x.zipIdx.map (fun p => if rwMasked k b r p.2 then none else some (fmul p.1 (wd b 13)))

/-- The largest finite score, if there is one. -/
def maxScore (zs : List (Option Nat)) : Option Nat := maxFinite id zs.toArray

/-- An unmasked score is a NaN. -/
def anyNan (zs : List (Option Nat)) : Bool := zs.any (fun z => match z with
  | some w => (f32 w).isNan
  | none => false)

/-- An unmasked score is +∞. -/
def isPosInf (z : Option Nat) : Bool := z = some 0x7F800000

/-- e or p of a row: exp32(rne32(z − m)), +0 at masked positions; exp32 gives +0 for −∞. -/
def expRow (m : Nat) (zs : List (Option Nat)) : List Nat :=
  zs.map (fun z => match z with
    | some w => exp32 (fsub w m)
    | none => 0)

/-- *Soft-maximum rows* (R138). STAT_A and STAT_B of a NaN or infinite row are free values. -/
def smaxRow (k : CoreState) (b : List Byte) (r : Nat) (x _g : List Nat) (old : Stat) (f : Nat × Nat) : RowOut :=
  let zs := scores k b r x
  let base : Stat := { a := f.1, b := f.2, c := old.c, k := 0, empty := false, inf := false, nan := false, partial' := false, kind := 3 }
  if anyNan zs then { y := x.map (fun _ => qnan), stat := some { base with nan := true }, nan := true }
  else if zs.any isPosInf then
    let n := (zs.filter isPosInf).length
    { y := zs.map (fun z => if isPosInf z then frcp (ofNat32 n) else 0), stat := some { base with inf := true, k := Nat.min n 65535 }, inf := true }
  else match maxScore zs with
  | none => { y := zs.map (fun _ => 0), stat := some { base with a := 0xFF800000, b := 0, empty := true }, empty := true }
  | some m =>
    let e := expRow m zs
    let total := rowSum e
    { y := e.map (fun v => fmul v (frcp total)), stat := some { base with a := m, b := total } }

/-- A soft-maximum backward's refusal (R134). -/
def smaxBwdBad (k : CoreState) (b : List Byte) : Option (Nat × Nat) :=
  if (List.range (rwRows b)).any (fun r =>
    let st := k.stat (rwStat b + r)
    (st.kind ≠ 3 && st.kind ≠ 4) || st.partial') then some (12, 0)
  else none

/-- A soft-maximum backward row (R138, R139). -/
def smaxBwdRow (k : CoreState) (b : List Byte) (r : Nat) (x dy : List Nat) (st : Stat) (_f : Nat × Nat) : RowOut :=
  if st.nan then { y := dy.map (fun _ => qnan) }
  else if st.inf ∨ st.empty then { y := dy.map (fun _ => 0) }
  else if dy.any (fun v => (f32 v).isNan) then { y := dy.map (fun _ => qnan) }
  else
    let y := if wb b 12 22 1 = 0 then x else (expRow st.a (scores k b r x)).map (fun v => fmul v (frcp st.b))
    let d := if wb b 12 23 1 = 0 then rowSum ((dy.zip y).map (fun p => fmul p.1 p.2)) else st.c
    { y := (dy.zip y).zipIdx.map (fun p =>
        if rwMasked k b r p.2 then 0 else fmul (fmul p.1.2 (fsub p.1.1 d)) (wd b 13)) }

/-- The record at the start of an online soft-maximum (R140). -/
def startStat (old : Stat) : Stat :=
  { a := 0xFF800000, b := 0, c := old.c, k := 0, empty := true, inf := false, nan := false, partial' := true, kind := 4 }

/-- A row of SMAX_PART (R140). -/
def smaxPartRow (k : CoreState) (b : List Byte) (r : Nat) (x _g : List Nat) (old : Stat) (_f : Nat × Nat) : RowOut :=
  let st := if wb b 12 21 1 = 1 then startStat old else old
  let zs := scores k b r x
  if st.nan ∨ anyNan zs then { y := x.map (fun _ => qnan), stat := some { st with nan := true }, alpha := some qnan }
  else if st.inf ∨ zs.any isPosInf then
    let n := Nat.min 65535 (st.k + (zs.filter isPosInf).length)
    { y := zs.map (fun z => if isPosInf z then one32 else 0), stat := some { st with inf := true, k := n },
      alpha := some (if st.inf then one32 else 0) }
  else match maxScore zs with
  | none => { y := zs.map (fun _ => 0), stat := some st, alpha := some one32 }
  | some zm =>
    let m := if st.a = 0xFF800000 then zm else fmaxB st.a zm
    let alpha := if st.empty then 0 else exp32 (fsub st.a m)
    let p := expRow m zs
    { y := p, stat := some { st with a := m, b := fadd (fmul st.b alpha) (rowSum p), empty := false }, alpha := some alpha }

/-- A row of SMAX_FINAL (R140). -/
def smaxFinalRow (_k : CoreState) (_b : List Byte) (_r : Nat) (_x _g : List Nat) (old : Stat) (_f : Nat × Nat) : RowOut :=
  let r := if old.nan then qnan else if old.inf then frcp (ofNat32 old.k) else if old.empty then 0 else frcp old.b
  { stat := some { old with partial' := false }, alpha := some r, nan := old.nan, inf := !old.nan && old.inf,
    empty := !old.nan && !old.inf && old.empty }

/-- SMAX_PART and SMAX_FINAL take at most 256 rows (R148). -/
def partBad (_k : CoreState) (b : List Byte) : Option (Nat × Nat) := if 256 < rwRows b then some (11, 14) else none

/-- A row of ROWDOT: d into STAT_C (R139). -/
def rowdotRow (_k : CoreState) (_b : List Byte) (_r : Nat) (x g : List Nat) (old : Stat) (_f : Nat × Nat) : RowOut :=
  { stat := some { old with c := rowSum ((x.zip g).map (fun p => fmul p.1 p.2)) } }

/-- SMAX (R138). -/
def execSmax (core : Nat) (s : State) : Res :=
  RowOp.run ⟨5, false, true, true, false, fun _ _ => none, smaxRow⟩ noAfter core s

/-- SMAX_BWD (R139). -/
def execSmaxBwd (core : Nat) (s : State) : Res :=
  RowOp.run ⟨6, true, true, true, false, smaxBwdBad, smaxBwdRow⟩ noAfter core s

/-- SMAX_PART (R140). -/
def execSmaxPart (core : Nat) (s : State) : Res :=
  RowOp.run ⟨7, false, true, true, false, partBad, smaxPartRow⟩ noAfter core s

/-- SMAX_FINAL (R140). -/
def execSmaxFinal (core : Nat) (s : State) : Res :=
  RowOp.run ⟨8, false, false, false, false, partBad, smaxFinalRow⟩ noAfter core s

/-- ROWDOT (R139). -/
def execRowdot (core : Nat) (s : State) : Res :=
  RowOp.run ⟨9, true, true, false, false, fun _ _ => none, rowdotRow⟩ noAfter core s

end Sys2Proof.Machine
end

