-- ==== Sys2Proof/Machine/Dispatch.lean ====
section
/-! DEFINITION. The effect of each command: one arm per constructor of `Instr`. -/

namespace Sys2Proof.Machine

/-- A command's effect on everything but the queue. -/
def exec (i : Instr) (s : State) : Host.Outcome State Fault Refusal :=
  match i with
  | .powerOnReset => Sys2Proof.Machine.execPowerOnReset s
  | .powerOnResetEnd => Sys2Proof.Machine.execPowerOnResetEnd s
  | .resetNAssert lowNs => Sys2Proof.Machine.execResetNAssert lowNs s
  | .resetStretchEnd pinLow env => Sys2Proof.Machine.execResetStretchEnd pinLow env s
  | .resetNRelease env => Sys2Proof.Machine.execResetNRelease env s
  | .pllLock domain => Sys2Proof.Machine.execPllLock domain s
  | .pllLockLoss domain => Sys2Proof.Machine.execPllLockLoss domain s
  | .supplySag source => Sys2Proof.Machine.execSupplySag source s
  | .vcoreExcursion die millivolts => Sys2Proof.Machine.execVcoreExcursion die millivolts s
  | .controlInterval readings => Sys2Proof.Machine.execControlInterval readings s
  | .thermalTrip unit deciC => Sys2Proof.Machine.execThermalTrip unit deciC s
  | .holdupTimeout => Sys2Proof.Machine.execHoldupTimeout s
  | .resetRequest r => Sys2Proof.Machine.execResetRequest r s
  | .obWrite r => Sys2Proof.Machine.execObWrite r s
  | .beatWindowClose die completions => Sys2Proof.Machine.execBeatWindowClose die completions s
  | .delayCounterCalibrate unit => Sys2Proof.Machine.execDelayCounterCalibrate unit s
  | .matchedDelayCalibrate path replica proposed => Sys2Proof.Machine.execMatchedDelayCalibrate path replica proposed s
  | .kolfinFrameSend sender => Sys2Proof.Machine.execKolfinFrameSend sender s
  | .kolfinFrameReceive link frame => Sys2Proof.Machine.execKolfinFrameReceive link frame s
  | .kolfinRetrain link cleanLanes => Sys2Proof.Machine.execKolfinRetrain link cleanLanes s
  | .laneOfferReceive link words => Sys2Proof.Machine.execLaneOfferReceive link words s
  | .laneOfferTimeout link => Sys2Proof.Machine.execLaneOfferTimeout link s
  | .keepaliveTimeout die => Sys2Proof.Machine.execKeepaliveTimeout die s
  | .dieFence die cause => Sys2Proof.Machine.execDieFence die cause s
  | .dieRejoin r => Sys2Proof.Machine.execDieRejoin r s
  | .dieRejoinComplete outcome => Sys2Proof.Machine.execDieRejoinComplete outcome s
  | .coreSubstitution core => Sys2Proof.Machine.execCoreSubstitution core s
  | .scrubLine tier line struck => Sys2Proof.Machine.execScrubLine tier line struck s
  | .rowDisturbRefresh stack row => Sys2Proof.Machine.execRowDisturbRefresh stack row s
  | .epochClose => Sys2Proof.Machine.execEpochClose s
  | .pageMoveComplete page => Sys2Proof.Machine.execPageMoveComplete page s
  | .demandPromotionComplete page => Sys2Proof.Machine.execDemandPromotionComplete page s
  | .mergeLockGrant tileAddr => Sys2Proof.Machine.execMergeLockGrant tileAddr s
  | .reservedInstruction core word => Sys2Proof.Machine.execReservedInstruction core word s
  | .add core rd ra rb => Sys2Proof.Machine.execAdd core rd ra rb s
  | .sub core rd ra rb => Sys2Proof.Machine.execSub core rd ra rb s
  | .and core rd ra rb => Sys2Proof.Machine.execAnd core rd ra rb s
  | .or core rd ra rb => Sys2Proof.Machine.execOr core rd ra rb s
  | .xor core rd ra rb => Sys2Proof.Machine.execXor core rd ra rb s
  | .shl core rd ra rb => Sys2Proof.Machine.execShl core rd ra rb s
  | .shr core rd ra rb => Sys2Proof.Machine.execShr core rd ra rb s
  | .sra core rd ra rb => Sys2Proof.Machine.execSra core rd ra rb s
  | .mul core rd ra rb => Sys2Proof.Machine.execMul core rd ra rb s
  | .mulhu core rd ra rb => Sys2Proof.Machine.execMulhu core rd ra rb s
  | .slt core rd ra rb => Sys2Proof.Machine.execSlt core rd ra rb s
  | .sltu core rd ra rb => Sys2Proof.Machine.execSltu core rd ra rb s
  | .min core rd ra rb => Sys2Proof.Machine.execMin core rd ra rb s
  | .max core rd ra rb => Sys2Proof.Machine.execMax core rd ra rb s
  | .fadd core rd ra rb => Sys2Proof.Machine.execFadd core rd ra rb s
  | .fmul core rd ra rb => Sys2Proof.Machine.execFmul core rd ra rb s
  | .fmax core rd ra rb => Sys2Proof.Machine.execFmax core rd ra rb s
  | .flt core rd ra rb => Sys2Proof.Machine.execFlt core rd ra rb s
  | .addi core rd ra imm => Sys2Proof.Machine.execAddi core rd ra imm s
  | .subi core rd ra imm => Sys2Proof.Machine.execSubi core rd ra imm s
  | .andi core rd ra imm => Sys2Proof.Machine.execAndi core rd ra imm s
  | .ori core rd ra imm => Sys2Proof.Machine.execOri core rd ra imm s
  | .xori core rd ra imm => Sys2Proof.Machine.execXori core rd ra imm s
  | .shli core rd ra imm => Sys2Proof.Machine.execShli core rd ra imm s
  | .shri core rd ra imm => Sys2Proof.Machine.execShri core rd ra imm s
  | .srai core rd ra imm => Sys2Proof.Machine.execSrai core rd ra imm s
  | .muli core rd ra imm => Sys2Proof.Machine.execMuli core rd ra imm s
  | .mulhui core rd ra imm => Sys2Proof.Machine.execMulhui core rd ra imm s
  | .slti core rd ra imm => Sys2Proof.Machine.execSlti core rd ra imm s
  | .sltui core rd ra imm => Sys2Proof.Machine.execSltui core rd ra imm s
  | .mini core rd ra imm => Sys2Proof.Machine.execMini core rd ra imm s
  | .maxi core rd ra imm => Sys2Proof.Machine.execMaxi core rd ra imm s
  | .lui core quarter rd imm => Sys2Proof.Machine.execLui core quarter rd imm s
  | .ld8 core rd ra imm => Sys2Proof.Machine.execLd8 core rd ra imm s
  | .ld16 core rd ra imm => Sys2Proof.Machine.execLd16 core rd ra imm s
  | .ld32 core rd ra imm => Sys2Proof.Machine.execLd32 core rd ra imm s
  | .ld64 core rd ra imm => Sys2Proof.Machine.execLd64 core rd ra imm s
  | .st8 core rs ra imm => Sys2Proof.Machine.execSt8 core rs ra imm s
  | .st16 core rs ra imm => Sys2Proof.Machine.execSt16 core rs ra imm s
  | .st32 core rs ra imm => Sys2Proof.Machine.execSt32 core rs ra imm s
  | .st64 core rs ra imm => Sys2Proof.Machine.execSt64 core rs ra imm s
  | .beq core ra rb offset => Sys2Proof.Machine.execBeq core ra rb offset s
  | .bne core ra rb offset => Sys2Proof.Machine.execBne core ra rb offset s
  | .blt core ra rb offset => Sys2Proof.Machine.execBlt core ra rb offset s
  | .bge core ra rb offset => Sys2Proof.Machine.execBge core ra rb offset s
  | .bltu core ra rb offset => Sys2Proof.Machine.execBltu core ra rb offset s
  | .bgeu core ra rb offset => Sys2Proof.Machine.execBgeu core ra rb offset s
  | .call core offset => Sys2Proof.Machine.execCall core offset s
  | .jr core rd ra => Sys2Proof.Machine.execJr core rd ra s
  | .desc core queue rd ra => Sys2Proof.Machine.execDesc core queue rd ra s
  | .wait core queue rd ra => Sys2Proof.Machine.execWait core queue rd ra s
  | .waitReturn core => Sys2Proof.Machine.execWaitReturn core s
  | .pick core rd => Sys2Proof.Machine.execPick core rd s
  | .pickAnswer core => Sys2Proof.Machine.execPickAnswer core s
  | .qrd core q word rd => Sys2Proof.Machine.execQrd core q word rd s
  | .ftqrd core rd => Sys2Proof.Machine.execFtqrd core rd s
  | .setvl core ra => Sys2Proof.Machine.execSetvl core ra s
  | .getvl core rd => Sys2Proof.Machine.execGetvl core rd s
  | .oxb core ra rb => Sys2Proof.Machine.execOxb core ra rb s
  | .drain core ra rb => Sys2Proof.Machine.execDrain core ra rb s
  | .stepend core rd => Sys2Proof.Machine.execStepend core rd s
  | .tokrd core rd => Sys2Proof.Machine.execTokrd core rd s
  | .halt core => Sys2Proof.Machine.execHalt core s
  | .mm core engine mismatches => Sys2Proof.Machine.execMm core engine mismatches s
  | .mmf core engine mismatches => Sys2Proof.Machine.execMmf core engine mismatches s
  | .epilogue core engine => Sys2Proof.Machine.execEpilogue core engine s
  | .vecAdd core => Sys2Proof.Machine.execVecAdd core s
  | .vecSub core => Sys2Proof.Machine.execVecSub core s
  | .vecMul core => Sys2Proof.Machine.execVecMul core s
  | .vecFma core => Sys2Proof.Machine.execVecFma core s
  | .vecMax core => Sys2Proof.Machine.execVecMax core s
  | .vecMin core => Sys2Proof.Machine.execVecMin core s
  | .vecAbs core => Sys2Proof.Machine.execVecAbs core s
  | .vecNeg core => Sys2Proof.Machine.execVecNeg core s
  | .vecScl core => Sys2Proof.Machine.execVecScl core s
  | .vecRcp core => Sys2Proof.Machine.execVecRcp core s
  | .vecRsq core => Sys2Proof.Machine.execVecRsq core s
  | .cmpEq core => Sys2Proof.Machine.execCmpEq core s
  | .cmpNe core => Sys2Proof.Machine.execCmpNe core s
  | .cmpLt core => Sys2Proof.Machine.execCmpLt core s
  | .cmpLe core => Sys2Proof.Machine.execCmpLe core s
  | .cmpGt core => Sys2Proof.Machine.execCmpGt core s
  | .cmpGe core => Sys2Proof.Machine.execCmpGe core s
  | .vecSel core => Sys2Proof.Machine.execVecSel core s
  | .vecFn core => Sys2Proof.Machine.execVecFn core s
  | .vecFnb core => Sys2Proof.Machine.execVecFnb core s
  | .mand core => Sys2Proof.Machine.execMand core s
  | .mor core => Sys2Proof.Machine.execMor core s
  | .mxor core => Sys2Proof.Machine.execMxor core s
  | .mnot core => Sys2Proof.Machine.execMnot core s
  | .mfirst core => Sys2Proof.Machine.execMfirst core s
  | .redMax core => Sys2Proof.Machine.execRedMax core s
  | .redAmax core => Sys2Proof.Machine.execRedAmax core s
  | .redSum core => Sys2Proof.Machine.execRedSum core s
  | .redCnt core => Sys2Proof.Machine.execRedCnt core s
  | .vecMov core => Sys2Proof.Machine.execVecMov core s
  | .lnorm core => Sys2Proof.Machine.execLnorm core s
  | .rmsnorm core => Sys2Proof.Machine.execRmsnorm core s
  | .lnormBwd core => Sys2Proof.Machine.execLnormBwd core s
  | .rmsnormBwd core => Sys2Proof.Machine.execRmsnormBwd core s
  | .smax core => Sys2Proof.Machine.execSmax core s
  | .smaxBwd core => Sys2Proof.Machine.execSmaxBwd core s
  | .smaxPart core => Sys2Proof.Machine.execSmaxPart core s
  | .smaxFinal core => Sys2Proof.Machine.execSmaxFinal core s
  | .rowdot core => Sys2Proof.Machine.execRowdot core s
  | .copy core => Sys2Proof.Machine.execCopy core s
  | .pack core => Sys2Proof.Machine.execPack core s
  | .unpack core => Sys2Proof.Machine.execUnpack core s
  | .sdmRd core => Sys2Proof.Machine.execSdmRd core s
  | .sdmWr core => Sys2Proof.Machine.execSdmWr core s
  | .send core => Sys2Proof.Machine.execSend core s
  | .millraceMessageSend core => Sys2Proof.Machine.execMillraceMessageSend core s
  | .rsend core => Sys2Proof.Machine.execRsend core s
  | .rsendDrainRelease core => Sys2Proof.Machine.execRsendDrainRelease core s
  | .recv core => Sys2Proof.Machine.execRecv core s
  | .rel core => Sys2Proof.Machine.execRel core s
  | .ufetch core => Sys2Proof.Machine.execUfetch core s
  | .millraceMessageReceive core message => Sys2Proof.Machine.execMillraceMessageReceive core message s
  | .creditReturnReceive streamId side count => Sys2Proof.Machine.execCreditReturnReceive streamId side count s
  | .updateTileArrive die => Sys2Proof.Machine.execUpdateTileArrive die s
  | .updateTileApply die => Sys2Proof.Machine.execUpdateTileApply die s
  | .sequencerProgramStart die tensor => Sys2Proof.Machine.execSequencerProgramStart die tensor s
  | .sequencerProgramEnd die tensor => Sys2Proof.Machine.execSequencerProgramEnd die tensor s
  | .voteReportSend => Sys2Proof.Machine.execVoteReportSend s
  | .voteReport r => Sys2Proof.Machine.execVoteReport r s
  | .verdict r => Sys2Proof.Machine.execVerdict r s
  | .stepBoundary => Sys2Proof.Machine.execStepBoundary s
  | .tributaryMessageSend collective phase dir => Sys2Proof.Machine.execTributaryMessageSend collective phase dir s
  | .tributaryMessageReceive port message => Sys2Proof.Machine.execTributaryMessageReceive port message s
  | .permuteDone r => Sys2Proof.Machine.execPermuteDone r s
  | .layoutCommit r => Sys2Proof.Machine.execLayoutCommit r s
  | .heartbeatSend => Sys2Proof.Machine.execHeartbeatSend s
  | .heartbeat r => Sys2Proof.Machine.execHeartbeat r s
  | .heartbeatTimeout position => Sys2Proof.Machine.execHeartbeatTimeout position s
  | .deputyTakeover => Sys2Proof.Machine.execDeputyTakeover s
  | .rootLossHalt => Sys2Proof.Machine.execRootLossHalt s
  | .takeoverMaster r => Sys2Proof.Machine.execTakeoverMaster r s
  | .takeover r => Sys2Proof.Machine.execTakeover r s
  | .faultReport r => Sys2Proof.Machine.execFaultReport r s
  | .commitReady r => Sys2Proof.Machine.execCommitReady r s
  | .stepCommit r => Sys2Proof.Machine.execStepCommit r s
  | .rollback r => Sys2Proof.Machine.execRollback r s
  | .restartReady r => Sys2Proof.Machine.execRestartReady r s
  | .restart r => Sys2Proof.Machine.execRestart r s
  | .buddyPageSend => Sys2Proof.Machine.execBuddyPageSend s
  | .buddyPageReceive source page => Sys2Proof.Machine.execBuddyPageReceive source page s
  | .buddyAck r => Sys2Proof.Machine.execBuddyAck r s
  | .takeoverPageReceive page => Sys2Proof.Machine.execTakeoverPageReceive page s
  | .freshetNAssert lowNs => Sys2Proof.Machine.execFreshetNAssert lowNs s
  | .freshet r => Sys2Proof.Machine.execFreshet r s
  | .freshetNotice r => Sys2Proof.Machine.execFreshetNotice r s
  | .cutAt r => Sys2Proof.Machine.execCutAt r s
  | .jobResume r => Sys2Proof.Machine.execJobResume r s
  | .ckptAbort r => Sys2Proof.Machine.execCkptAbort r s
  | .shardWriteComplete dest shard => Sys2Proof.Machine.execShardWriteComplete dest shard s
  | .shardReadbackComplete dest shard readBack => Sys2Proof.Machine.execShardReadbackComplete dest shard readBack s
  | .manifestWrite dest readBack => Sys2Proof.Machine.execManifestWrite dest readBack s
  | .ckptDone r => Sys2Proof.Machine.execCkptDone r s
  | .ckptCommit r => Sys2Proof.Machine.execCkptCommit r s
  | .ckptAbortJob r => Sys2Proof.Machine.execCkptAbortJob r s
  | .restoreCommand r window => Sys2Proof.Machine.execRestoreCommand r window s
  | .restoreReadsComplete slots => Sys2Proof.Machine.execRestoreReadsComplete slots s
  | .restoreReady r => Sys2Proof.Machine.execRestoreReady r s
  | .restoreCommit r => Sys2Proof.Machine.execRestoreCommit r s
  | .ckptExport r => Sys2Proof.Machine.execCkptExport r s
  | .read r => Sys2Proof.Machine.execRead r s
  | .write r => Sys2Proof.Machine.execWrite r s
  | .openSession r => Sys2Proof.Machine.execOpenSession r s
  | .closeSession r => Sys2Proof.Machine.execCloseSession r s
  | .enumObject r => Sys2Proof.Machine.execEnumObject r s
  | .sessionTimeout slot => Sys2Proof.Machine.execSessionTimeout slot s
  | .mailboxReqLen slot len frame => Sys2Proof.Machine.execMailboxReqLen slot len frame s
  | .ownerClaim r => Sys2Proof.Machine.execOwnerClaim r s
  | .claimWindowClose => Sys2Proof.Machine.execClaimWindowClose s
  | .leaseExpire => Sys2Proof.Machine.execLeaseExpire s
  | .ownerHeartbeat r => Sys2Proof.Machine.execOwnerHeartbeat r s
  | .ownerRelease r => Sys2Proof.Machine.execOwnerRelease r s
  | .ownerOffer r => Sys2Proof.Machine.execOwnerOffer r s
  | .offerExpire => Sys2Proof.Machine.execOfferExpire s
  | .ownerAccept r => Sys2Proof.Machine.execOwnerAccept r s
  | .authChallenge r => Sys2Proof.Machine.execAuthChallenge r s
  | .authResponse r => Sys2Proof.Machine.execAuthResponse r s
  | .validate r => Sys2Proof.Machine.execValidate r s
  | .validateComplete => Sys2Proof.Machine.execValidateComplete s
  | .commit r => Sys2Proof.Machine.execCommit r s
  | .discard r => Sys2Proof.Machine.execDiscard r s
  | .groupArm r => Sys2Proof.Machine.execGroupArm r s
  | .groupArmed r => Sys2Proof.Machine.execGroupArmed r s
  | .groupArmTimeout => Sys2Proof.Machine.execGroupArmTimeout s
  | .groupCommit r => Sys2Proof.Machine.execGroupCommit r s
  | .groupReject r => Sys2Proof.Machine.execGroupReject r s
  | .jobStart r => Sys2Proof.Machine.execJobStart r s
  | .jobEnd r => Sys2Proof.Machine.execJobEnd r s
  | .eventSubscribe r => Sys2Proof.Machine.execEventSubscribe r s
  | .pageQueryAddr r => Sys2Proof.Machine.execPageQueryAddr r s
  | .powerCapW r => Sys2Proof.Machine.execPowerCapW r s
  | .memRelease r => Sys2Proof.Machine.execMemRelease r s
  | .eventSnapshot r => Sys2Proof.Machine.execEventSnapshot r s
  | .manifestKeyRotate r => Sys2Proof.Machine.execManifestKeyRotate r s
  | .attestNonce r => Sys2Proof.Machine.execAttestNonce r s
  | .imageUpdate r window => Sys2Proof.Machine.execImageUpdate r window s
  | .recoveryDoorbell offset window => Sys2Proof.Machine.execRecoveryDoorbell offset window s
  | .alarmSensorTrip sensor source => Sys2Proof.Machine.execAlarmSensorTrip sensor source s
  | .alarmSensorClear sensor => Sys2Proof.Machine.execAlarmSensorClear sensor s
  | .portTrain port ownMask peerMask => Sys2Proof.Machine.execPortTrain port ownMask peerMask s
  | .linkAuthReceive port message => Sys2Proof.Machine.execLinkAuthReceive port message s
  | .portFrameSend port => Sys2Proof.Machine.execPortFrameSend port s
  | .portFrameReceive port frame => Sys2Proof.Machine.execPortFrameReceive port frame s
  | .portReplayTimeout port => Sys2Proof.Machine.execPortReplayTimeout port s
  | .portDownTimeout port => Sys2Proof.Machine.execPortDownTimeout port s
  | .pcieHotReset => Sys2Proof.Machine.execPcieHotReset s
  | .pf0Flr => Sys2Proof.Machine.execPf0Flr s
  | .pf1Flr => Sys2Proof.Machine.execPf1Flr s
  | .pf0RegisterWrite offset value => Sys2Proof.Machine.execPf0RegisterWrite offset value s
  | .mgmtFrameReceive frame => Sys2Proof.Machine.execMgmtFrameReceive frame s
  | .loadCommand r window => Sys2Proof.Machine.execLoadCommand r window s
  | .freshetNRelease highNs => Sys2Proof.Machine.execFreshetNRelease highNs s
  | .trstNAssert => Sys2Proof.Machine.execTrstNAssert s
  | .ckptShardReceive source shard => Sys2Proof.Machine.execCkptShardReceive source shard s

end Sys2Proof.Machine
end

