-- ==== Sys2Proof/Safety.lean ====
section
/-! DEFINITION. The terms in which statements speak of runs: what a command may change, and when a request is served. -/

namespace Sys2Proof.Safety

open Sys2Proof.Machine

/-! Frames. -/

/-- Nothing but core `c` differs. -/
def OnlyCore (c : Nat) (s t : State) : Prop := t = { s with cores := t.cores } ∧ ∀ e, e ≠ c → t.core e = s.core e

/-- Of a core, nothing but the scalar registers and the PC differs. -/
def OnlyRegsPc (k l : CoreState) : Prop := l = { k with regs := l.regs, pc := l.pc }

/-- Of a core, nothing but scalar data memory and the PC differs. -/
def OnlySdmPc (k l : CoreState) : Prop := l = { k with sdm := l.sdm, pc := l.pc }

/-- The instruction after the one at the PC lies in the loaded code (R143). -/
def GoesOn (s : State) (c : Nat) : Prop := (s.core c).pc.toNat + 1 < (s.core c).codeLen

/-- A register written and the PC moved to the next instruction; nothing else of the package changes. s0 stays 0 (R142). -/
def WroteReg (s t : State) (c : Nat) (rd : Reg) (v : Word64) : Prop :=
  OnlyCore c s t ∧ OnlyRegsPc (s.core c) (t.core c) ∧ (t.core c).pc = (s.core c).pc + 1 ∧
  ∀ q, (t.core c).reg q = if q = 0 then 0 else if q = rd then v else (s.core c).reg q

/-! The functions of R143, on 64-bit values. -/

/-- The ALU instructions with the functions that R143 gives them. The F forms act on FP32 in bits [31:0]. -/
def aluTable : List ((Nat → Reg → Reg → Reg → Instr) × (Word64 → Word64 → Word64)) :=
  [(.add, fun a b => a + b), (.sub, fun a b => a - b), (.and, fun a b => a &&& b), (.or, fun a b => a ||| b),
   (.xor, fun a b => a ^^^ b), (.shl, fun a b => a <<< (b.toNat % 64)), (.shr, fun a b => a >>> (b.toNat % 64)),
   (.sra, fun a b => a.sshiftRight (b.toNat % 64)), (.mul, fun a b => a * b),
   (.mulhu, fun a b => BitVec.ofNat 64 (a.toNat * b.toNat / 2 ^ 64)),
   (.slt, fun a b => if a.toInt < b.toInt then 1 else 0), (.sltu, fun a b => if a.toNat < b.toNat then 1 else 0),
   (.min, fun a b => if a.toInt ≤ b.toInt then a else b), (.max, fun a b => if a.toInt ≤ b.toInt then b else a),
   (.fadd, fpOp fadd), (.fmul, fpOp fmul), (.fmax, fpOp fmaxB), (.flt, fpOp (fun a b => if fltB a b then 1 else 0))]

/-- The ALUI instructions with the functions of their ALU forms (R143). -/
def aluiTable : List ((Nat → Reg → Reg → BitVec 12 → Instr) × (Word64 → Word64 → Word64)) :=
  [(.addi, fun a b => a + b), (.subi, fun a b => a - b), (.andi, fun a b => a &&& b), (.ori, fun a b => a ||| b),
   (.xori, fun a b => a ^^^ b), (.shli, fun a b => a <<< (b.toNat % 64)), (.shri, fun a b => a >>> (b.toNat % 64)),
   (.srai, fun a b => a.sshiftRight (b.toNat % 64)), (.muli, fun a b => a * b),
   (.mulhui, fun a b => BitVec.ofNat 64 (a.toNat * b.toNat / 2 ^ 64)),
   (.slti, fun a b => if a.toInt < b.toInt then 1 else 0), (.sltui, fun a b => if a.toNat < b.toNat then 1 else 0),
   (.mini, fun a b => if a.toInt ≤ b.toInt then a else b), (.maxi, fun a b => if a.toInt ≤ b.toInt then b else a)]

/-- The loads and stores with their widths in bytes (R143). -/
def loadTable : List ((Nat → Reg → Reg → BitVec 14 → Instr) × Nat) := [(.ld8, 1), (.ld16, 2), (.ld32, 4), (.ld64, 8)]

/-- The stores with their widths in bytes (R143). -/
def storeTable : List ((Nat → Reg → Reg → BitVec 14 → Instr) × Nat) := [(.st8, 1), (.st16, 2), (.st32, 4), (.st64, 8)]

/-- The conditional branches with their conditions (R143). -/
def branchTable : List ((Nat → Reg → Reg → BitVec 14 → Instr) × (Word64 → Word64 → Bool)) :=
  [(.beq, fun a b => decide (a = b)), (.bne, fun a b => decide (a ≠ b)), (.blt, fun a b => decide (a.toInt < b.toInt)),
   (.bge, fun a b => decide (b.toInt ≤ a.toInt)), (.bltu, fun a b => decide (a.toNat < b.toNat)),
   (.bgeu, fun a b => decide (b.toNat ≤ a.toNat))]

/-- The PROGRAM_FAULT event of a core (R143): the PC in DETAIL0 [15:0], the core and its die as the place, class FAULT. -/
def IsProgramFault (s : State) (c : Nat) (e : Event) : Prop :=
  e.code = 0x010B ∧ e.cls = .fault ∧ e.selfLost = false ∧ e.die = c / 16 ∧ e.core = c % 16 ∧
  e.d0 % 65536 = (s.core c).pc.toNat

/-- A core FAULTED by PROGRAM_FAULT: its control core stops, the event is recorded and reported, nothing else changes. -/
def Faults (s t : State) (c : Nat) : Prop :=
  ∃ e, IsProgramFault s c e ∧ t = (s.setCore c { s.core c with run := .faulted, waiting := .none }).event e

/-! Work queues and their units. -/

/-- Nothing differs but core `c` and counters of the dictionary. -/
def OnlyCoreDict (c : Nat) (s t : State) : Prop :=
  t = { s with cores := t.cores, dict := t.dict } ∧ ∀ e, e ≠ c → t.core e = s.core e

/-- Descriptor `d` has left queue `q` of a core, and the queue is as it was but for that. -/
def LeftQueue (s t : State) (c q : Nat) (d : Desc) : Prop :=
  (t.core c).queue q = { (s.core c).queue q with
    waiting := ((s.core c).queue q).waiting.filter (fun x => x.num ≠ d.num),
    begun := ((s.core c).queue q).begun.filter (fun x => x ≠ d.num) }

/-- A read of extents of a core's window meets no poisoned line and no flipped bit, which it would correct first (R186). -/
abbrev ReadsClean (k : CoreState) (xs : List (Nat × Nat)) : Prop :=
  ∀ x ∈ xs, k.poisoned x.1 x.2 = false ∧ ∀ w ∈ k.flips, wordIn x.1 x.2 w.1 = false

/-- What a vector descriptor can change in its core. -/
def OnlyVector (k l : CoreState) : Prop :=
  l = { k with
    vregs := l.vregs, masks := l.masks, summaries := l.summaries, vecQ := l.vecQ, sram := l.sram, poison := l.poison,
    flips := l.flips, sdm := l.sdm, riffle := l.riffle, ftq := l.ftq, item := l.item }

/-- The finished-tile entry that a vector descriptor binds: the oldest, where one of its sources is FTQ (R126). -/
def boundTile (k : CoreState) (b : List Byte) (nsrc : Nat) : Option Ftq :=
  if (List.range nsrc).any (fun i => (vSrc b i).kind = 7) then k.ftq.head? else none

/-- Source `i` of a vector descriptor that has `nsrc` can be used: its fields are good, and the finished tile that it needs is
there and agrees with them (R114, R116, R126, R397). -/
abbrev SourceGood (s : State) (c nsrc : Nat) (d : Desc) (i : Nat) : Prop :=
  vSrcBad (vVl d.bytes) (vSrc d.bytes i) = none ∧ ((vSrc d.bytes i).kind = 7 → (s.core c).ftq ≠ []) ∧
  ftqBad (boundTile (s.core c) d.bytes nsrc) (vSrc d.bytes i) = none

/-- The oldest vector descriptor has an opcode and can run: its sources can be used, and what they read is sound (R186). -/
def VecReady (s : State) (c op nsrc : Nat) (d : Desc) : Prop :=
  (s.core c).vecHead op = some d ∧ vVl d.bytes ≤ 4096 ∧
  ∀ i, i < nsrc → SourceGood s c nsrc d i ∧
    ReadsClean (s.core c) (vReads (boundTile (s.core c) d.bytes nsrc) (vVl d.bytes) (vSrc d.bytes i))

/-- RED.CNT can run: it reads no element and needs no source; one that it names must be good (R122). -/
def CntReady (s : State) (c : Nat) (d : Desc) : Prop :=
  (s.core c).vecHead 0x2B = some d ∧ vVl d.bytes ≤ 4096 ∧ noDstBad (s.core c) d.bytes = none ∧
  ((vSrc d.bytes 0).kind ≠ 0 → SourceGood s c 1 d 0)

/-- Element `i` of source `j` of a vector descriptor, as FP32 bits (R116). -/
def vecElem (k : CoreState) (d : Desc) (nsrc j i : Nat) : Nat :=
  ((vLoad k (boundTile k d.bytes nsrc) (vVl d.bytes) (vSrc d.bytes j)).getD i (0, false)).1

/-- A vector operation that writes values: its command, opcode, number of sources, own condition, and its function of the
element number and the elements of A, B and C. -/
structure VecOp where
  cmd  : Nat → Instr
  op   : Nat
  nsrc : Nat
  need : CoreState → List Byte → Prop
  f    : CoreState → List Byte → Nat → Nat → Nat → Nat → Nat

/-- The vector operations with a value destination (R88, R118, R130, R148). -/
def vecTable : List VecOp :=
  [⟨.vecAdd, 0x01, 2, fun _ _ => True, fun _ _ _ a b _ => fadd a b⟩, ⟨.vecSub, 0x02, 2, fun _ _ => True, fun _ _ _ a b _ => fsub a b⟩,
   ⟨.vecMul, 0x03, 2, fun _ _ => True, fun _ _ _ a b _ => fmul a b⟩, ⟨.vecFma, 0x04, 3, fun _ _ => True, fun _ _ _ a b c => ffma a b c⟩,
   ⟨.vecMax, 0x05, 2, fun _ _ => True, fun _ _ _ a b _ => fmaxB a b⟩, ⟨.vecMin, 0x06, 2, fun _ _ => True, fun _ _ _ a b _ => fminB a b⟩,
   ⟨.vecAbs, 0x07, 1, fun _ _ => True, fun _ _ _ a _ _ => fabsB a⟩, ⟨.vecNeg, 0x08, 1, fun _ _ => True, fun _ _ _ a _ _ => fnegB a⟩,
   ⟨.vecScl, 0x09, 1, fun _ b => wb b 11 0 9 ≠ 256, fun _ b _ x _ _ => fscl x (sx 9 (wb b 11 0 9))⟩,
   ⟨.vecRcp, 0x0A, 1, fun _ _ => True, fun _ _ _ a _ _ => frcp a⟩, ⟨.vecRsq, 0x0B, 1, fun _ _ => True, fun _ _ _ a _ _ => frsq a⟩,
   ⟨.vecSel, 0x18, 2, fun _ b => wb b 11 12 3 ≠ 0,
     fun k b i x y _ => canon (if bitOf (mget 0 k.masks (wb b 11 12 3)) i then x else y)⟩,
   ⟨.vecFn, 0x19, 1, fun k b => k.slot (wb b 11 9 3) ≠ [], fun k b _ x _ _ => tableEval (k.slot (wb b 11 9 3)) halfForward x⟩,
   ⟨.vecFnb, 0x1A, 2, fun k b => k.slot (wb b 11 9 3) ≠ [],
     fun k b _ x g _ => fmul g (tableEval (k.slot (wb b 11 9 3)) halfDerivative x)⟩,
   ⟨.vecMov, 0x30, 1, fun _ _ => True, fun _ _ _ a _ _ => canon a⟩]

/-- The result of a vector operation at element `i`. -/
def VecOp.value (p : VecOp) (k : CoreState) (d : Desc) (i : Nat) : Nat :=
  p.f k d.bytes i (vecElem k d p.nsrc 0 i) (vecElem k d p.nsrc 1 i) (vecElem k d p.nsrc 2 i)

/-- The compares with their predicates on numbers that are no NaN (R88, R120). -/
def cmpTable : List ((Nat → Instr) × Nat × (Machine.Num → Machine.Num → Bool)) :=
  [(.cmpEq, 0x10, numEq), (.cmpNe, 0x11, fun a b => !numEq a b), (.cmpLt, 0x12, numLt), (.cmpLe, 0x13, fun a b => !numLt b a),
   (.cmpGt, 0x14, fun a b => numLt b a), (.cmpGe, 0x15, fun a b => !numLt a b)]

/-- The mask operations with their number of mask sources and their functions of a bit (R120). -/
def maskTable : List ((Nat → Instr) × Nat × Nat × (Bool → Bool → Bool)) :=
  [(.mand, 0x20, 2, fun a b => a && b), (.mor, 0x21, 2, fun a b => a || b), (.mxor, 0x22, 2, fun a b => a != b),
   (.mnot, 0x23, 1, fun a _ => !a), (.mfirst, 0x24, 0, fun _ _ => true)]

/-- The maximum reductions with what the unmasked elements, in order, do to a summary register (R122). -/
def redTable : List ((Nat → Instr) × Nat × (List Nat → Summary → Summary)) :=
  [(.redMax, 0x28, fun xs v => (xs.foldl (fun v x => v.seeElem x) v).mergeMax (maxFinite id (xs.map some).toArray)),
   (.redAmax, 0x29, fun xs v => (xs.foldl (fun v x => v.seeElem x) v).mergeMax (maxFinite fabsB (xs.map some).toArray))]

/-- The flags that a bound finished tile adds to a summary register (R126). -/
def ftqFlags (e : Option Ftq) (v : Summary) : Summary :=
  match e with
  | some e => ((v.flag 3 e.nan).flag 4 e.inf).flag 5 e.sat
  | none => v

/-- The value that a summary register named by a vector descriptor starts from (R123). -/
def startSummary (k : CoreState) (b : List Byte) : Summary :=
  if wb b 10 21 1 = 1 then Summary.clear else k.summary (wb b 10 17 3)

/-- A reduction descriptor has run: the summary register that it names, if it names one, is `v` with the flags of the finished tile
that it is bound to; a bound tile is released where RELEASE says so; it has left its queue, and nothing else of the core
differs (R122, R123, R126). -/
def Reduced (s t : State) (c : Nat) (d : Desc) (v : Summary) : Prop :=
  OnlyCoreDict c s t ∧ LeftQueue s t c 1 d ∧
  t.core c = { s.core c with vecQ := (t.core c).vecQ, summaries := (t.core c).summaries, ftq := (t.core c).ftq } ∧
  (t.core c).ftq = (if wb d.bytes 10 22 1 = 1 ∧ (vSrc d.bytes 0).kind = 7 then (s.core c).ftq.drop 1 else (s.core c).ftq) ∧
  ∀ q, (t.core c).summary q = if wb d.bytes 10 20 1 = 1 ∧ q = wb d.bytes 10 17 3 then ftqFlags (boundTile (s.core c) d.bytes 1) v
    else (s.core c).summary q

/-- What a row descriptor can change in its core. -/
def OnlyRow (k l : CoreState) : Prop :=
  l = { k with
    side := l.side, vregs := l.vregs, summaries := l.summaries, rowQ := l.rowQ, sram := l.sram, poison := l.poison,
    flips := l.flips, sdm := l.sdm, riffle := l.riffle, item := l.item }

/-- The row engine's commands with their operations (R136 to R140). -/
def rowTable : List ((Nat → Instr) × RowOp) :=
  [(.lnorm, ⟨1, false, true, true, true, betaBad, lnormRow⟩), (.rmsnorm, ⟨2, false, true, true, true, fun _ _ => none, rmsnormRow⟩),
   (.lnormBwd, ⟨3, true, true, true, true, normBwdBad true, normBwdRow true⟩),
   (.rmsnormBwd, ⟨4, true, true, true, true, normBwdBad false, normBwdRow false⟩),
   (.smax, ⟨5, false, true, true, false, fun _ _ => none, smaxRow⟩), (.smaxBwd, ⟨6, true, true, true, false, smaxBwdBad, smaxBwdRow⟩),
   (.smaxPart, ⟨7, false, true, true, false, partBad, smaxPartRow⟩),
   (.smaxFinal, ⟨8, false, false, false, false, partBad, smaxFinalRow⟩),
   (.rowdot, ⟨9, true, true, false, false, fun _ _ => none, rowdotRow⟩)]

/-- The oldest row descriptor can run (R131, R134, R147, R186). -/
def RowReady (s : State) (c : Nat) (o : RowOp) (d : Desc) : Prop :=
  (s.core c).rowHead o.op = some d ∧ o.bad (s.core c) d.bytes = none ∧ ReadsClean (s.core c) (o.reads d.bytes)

/-- What row `r` of a row descriptor gives, from the core as the descriptor finds it (R131). -/
def rowOut (s : State) (c : Nat) (o : RowOp) (d : Desc) (r : Nat) : RowOut :=
  let k := s.core c
  let x := if o.useX then ((rwLoad k d.bytes (rwX d.bytes)).1.getD r #[]).toList else []
  let g := if o.useG then ((rwLoad k d.bytes (rwG d.bytes)).1.getD r #[]).toList else []
  o.row k d.bytes r x g (k.stat (rwStat d.bytes + r))
    (Config.freeNat (s.free + 2 * r) % 2 ^ 32, Config.freeNat (s.free + 2 * r + 1) % 2 ^ 32)

/-- A byte of core SRAM that a row descriptor may write: of an output tile it covers, or of dγ or dβ (R131, R137). -/
def rowWrites (k : CoreState) (o : RowOp) (b : List Byte) (a : Nat) : Prop :=
  (o.store = true ∧ ∃ x ∈ rwOffsets b (wb b 4 0 24) (k.latch (wb b 4 24 8)).tile.stride,
    x ≤ a ∧ a < x + (k.latch (wb b 4 24 8)).tile.raw) ∨
  ((o.op = 3 ∨ o.op = 4) ∧ wb b 9 0 24 ≤ a ∧ a < wb b 9 0 24 + 4 * rwN b) ∨
  (o.op = 3 ∧ wb b 10 0 24 ≤ a ∧ a < wb b 10 0 24 + 4 * rwN b)


/-! Device addresses (R11, R12). -/

/-- Byte `i` of an extent that begins at a place; a page that is not mapped reads as 0 (R187). -/
def placeByte (s : State) (p : Place) (i : Nat) : Byte :=
  match p with
  | .sram c off => rdByte (s.core c).sram (off + i)
  | .side c off => rdByte (s.core c).side (off + i)
  | .tiered a => if (s.page (s.pageKey (a + i))).isSome then rdByte s.mem.cells (a + i) else 0

/-- Byte `i` of an extent is padding of a tile, which tiered memory does not keep (R193). -/
def padding (s : State) (p : Place) (i : Nat) : Bool :=
  match p with
  | .tiered a => match s.regionAt (a + i) with
    | some r => r.form.raw ≤ (a + i - r.base) % r.form.stride
    | none => false
  | _ => false

/-- The place `k` bytes on. -/
def shift (p : Place) (k : Nat) : Place :=
  match p with
  | .sram c off => .sram c (off + k)
  | .side c off => .side c (off + k)
  | .tiered a => .tiered (a + k)

/-- A place in core SRAM or side memory. -/
def inCore : Place → Bool
  | .tiered _ => false
  | _ => true

/-- A piece of tiered memory can be read as it stands: its page is fenced off by no lost die, waits for no promotion, and its
lines hold no symbol error, no poison and no damage (R186, R201, R209, R317). -/
def PieceSound (s : State) (agent : Agent) (p : Piece) : Prop :=
  s.pieceFenced p = none ∧ s.piecePoisoned p = false ∧ s.pieceDamaged p = false ∧ s.pieceWaits agent p = false ∧
  ∀ g, s.page p.key = some g → s.errorLines g.frame (s.pieceLines p).1 (s.pieceLines p).2 = []

/-- Core `c` can read an extent at a place at once. -/
def Readable (s : State) (c : Nat) (p : Place) (n : Nat) : Prop :=
  match p with
  | .sram e off => ReadsClean (s.core e) [(off, n)]
  | .side e off => ReadsClean (s.core e) [(0x1000000 + off, n)]
  | .tiered a => ∀ x ∈ s.access a n, PieceSound s (.core c) x

/-- A read finds these bytes at a place: every one that is no padding. -/
def Holds (s : State) (p : Place) (n : Nat) (bs : List Byte) : Prop :=
  bs.length = n ∧ ∀ i, i < n → padding s p i = false → bs.getD i 0 = placeByte s p i

/-- A write of an extent waits for no lock and merges no tile: it covers whole tiles, or plain pages, none of them fenced. -/
def Direct (s : State) (p : Place) (n : Nat) : Prop :=
  match p with
  | .tiered a => ∀ x ∈ s.access a n, s.pieceFenced x = none ∧ x.whole = true ∧ ∀ y r, x.tile = some (y, r) → s.locked y = false
  | _ => True

/-- Core `c` finds frames for every page of an extent at a place. -/
def Framed (s : State) (c : Nat) (p : Place) (n : Nat) : Prop :=
  match p with
  | .tiered a => (s.mapAll (.core c) (s.access a n)).isSome = true
  | _ => True

/-- Byte `x` of core `e`'s SRAM lies in an extent of `n` bytes at a place. -/
def inSramOf (p : Place) (n e x : Nat) : Prop := ∃ off, p = .sram e off ∧ off ≤ x ∧ x < off + n

/-- Byte `x` of core `e`'s side memory lies in an extent. -/
def inSideOf (p : Place) (n e x : Nat) : Prop := ∃ off, p = .side e off ∧ off ≤ x ∧ x < off + n

/-- Address `x` of tiered memory lies in an extent. -/
def inTieredOf (p : Place) (n x : Nat) : Prop := ∃ a, p = .tiered a ∧ a ≤ x ∧ x < a + n

/-- Core `c`'s tile mover has read from `src` and written within `n` bytes at `dst`: no other byte of any memory differs, and nothing
else of the package does but the tile mover's queue, marks of damage in core memory, and, where tiered memory takes part, what
a read or a write keeps of its pages and counters. -/
def Moved (s t : State) (c : Nat) (src dst : Place) (n : Nat) : Prop :=
  t = { s with cores := t.cores, mem := t.mem, dict := t.dict, free := t.free } ∧
  (inCore src = true → inCore dst = true → t = { s with cores := t.cores }) ∧
  (∀ e x, ¬ inSramOf dst n e x → rdByte (t.core e).sram x = rdByte (s.core e).sram x) ∧
  (∀ e x, ¬ inSideOf dst n e x → rdByte (t.core e).side x = rdByte (s.core e).side x) ∧
  (∀ x, ¬ inTieredOf dst n x → rdByte t.mem.cells x = rdByte s.mem.cells x) ∧
  ∀ e, t.core e = { s.core e with
    sram := (t.core e).sram, side := (t.core e).side, poison := (t.core e).poison, flips := (t.core e).flips,
    tmQ := if e = c then (t.core e).tmQ else (s.core e).tmQ,
    bwNoted := if e = c then (t.core e).bwNoted else (s.core e).bwNoted }

/-- The bytes `bs` stand at `dst`, and nothing else has been written. -/
def Placed (s t : State) (c : Nat) (src dst : Place) (bs : List Byte) : Prop :=
  Moved s t c src dst bs.length ∧ ∀ i, i < bs.length → padding s dst i = false → placeByte t dst i = bs.getD i 0

/-- An extent of tiered memory that lies in mapped or unmapped plain pages, none fenced (R187, R206). -/
def plainExtent (s : State) (a n : Nat) : Prop := ∀ p ∈ s.access a n, p.tile = none ∧ s.pieceFenced p = none

/-! The canonical form of memory. -/

/-- A byte memory is in its canonical form: addresses strictly rising, no entry 0. -/
abbrev Memory.wf (m : List Host.Cell) : Prop := mwf 0 m = true

/-- A copy of the two tables is canonical and holds nothing below 0xEE00 (R161). -/
def tablesCanonical (m : List Host.Cell) : Prop := Memory.wf m ∧ ∀ x ∈ m, 0xEE00 ≤ x.1

/-- Every byte memory of a core is canonical. -/
def coreCanonical (k : CoreState) : Prop :=
  Memory.wf k.sdm ∧ Memory.wf k.sram ∧ Memory.wf k.side ∧ tablesCanonical k.tableCopy ∧ ∀ x ∈ k.tablePast, tablesCanonical x.2

/-- Every byte memory of the package is canonical, so that equal memories are equal data. -/
def Canonical (s : State) : Prop := Memory.wf s.mem.cells ∧ ∀ c, coreCanonical (s.core c)

/-! Matrix products. -/

/-- No cell of an engine is due to retire (R112). -/
abbrev NoCellDue (s : State) (c e : Nat) : Prop :=
  ∀ x ∈ ((s.core c).engine e).faults, 3 ≤ x.2 → s.cellOut c e (x.1 / 64) (x.1 % 64) = true

/-- Engine `e`'s oldest matrix descriptor has an opcode, the engine is not lost, its bank does not drain, and the groups start from
`start`: the bank with CONTINUE, else an empty one (R102, R103, R113). -/
def MatrixReady (s : State) (c e op : Nat) (d : Desc) (bank start : Bank) : Prop :=
  (s.core c).mxHead e = some d ∧ wb d.bytes 0 0 8 = op ∧ s.engineLost c e = false ∧
  NoCellDue s c e ∧
  bank = ((s.core c).engine e).bank (wb d.bytes 12 24 1) ∧ bank.st ≠ .draining ∧
  mwf Acc.zero bank.acc = true ∧ start = if wb d.bytes 12 25 1 = 1 then bank else ⟨.accumulating, 0, [], none⟩

/-- The operands of a matrix descriptor lie in range (R99) and are sound (R186). -/
def InRange (k : CoreState) (d : Desc) : Prop :=
  ReadsClean k ((operandA d.bytes).reads (mmOff d.bytes) (mmK d.bytes)) ∧
  ReadsClean k ((operandB d.bytes).reads (mmOff d.bytes) (mmK d.bytes)) ∧
  rangeBreak (wb d.bytes 12 27 1 = 1) (operandA d.bytes) (operandB d.bytes) ((operandA d.bytes).load k (mmOff d.bytes) (mmK d.bytes))
    ((operandB d.bytes).load k (mmOff d.bytes) (mmK d.bytes)) (mmOff d.bytes) (mmK d.bytes) = none

/-- Element (m, j) after a descriptor's groups, from what it held before (R96, R97). -/
def elementOf (k : CoreState) (d : Desc) (m j : Nat) (acc : Acc) : Acc :=
  contractElem (wb d.bytes 12 27 1 = 1) (operandA d.bytes) (operandB d.bytes) ((operandA d.bytes).load k (mmOff d.bytes) (mmK d.bytes))
    ((operandB d.bytes).load k (mmOff d.bytes) (mmK d.bytes)) (mmOff d.bytes) (mmK d.bytes) m j acc

/-- The columns of tiles of an adapter's A, as operands (R109). -/
def adapterA (d : Desc) (fu : Fusion) : List Operand :=
  (List.range ((fu.rank + 63) / 64)).map (fun j => tensorOperand fu.recA j (wb d.bytes 12 29 1 = 1))

/-- An adapter's B as an operand. -/
def adapterB (d : Desc) (fu : Fusion) : Operand := tensorOperand fu.recB (wb d.bytes 9 16 16) (wb d.bytes 12 29 1 = 1)

/-- The columns of A with their fetched tiles. -/
def adapterTiles (d : Desc) (fu : Fusion) (as : List (List Byte)) : List (Operand × Array (Array Machine.Num)) :=
  (adapterA d fu).zipIdx.map (fun p => (p.1, p.1.loaded
    ((as.drop (p.2 * (kTiles (mmOff d.bytes) (mmK d.bytes)).length)).take (kTiles (mmOff d.bytes) (mmK d.bytes)).length)))

/-- Element (m, j) of xA, before it is rounded into U_FORMAT (R109). -/
def adapterElement (k : CoreState) (d : Desc) (fu : Fusion) (as : List (List Byte)) (m j : Nat) : Machine.Num :=
  let o := (adapterTiles d fu as).getD (j / 64) (operandA d.bytes, #[])
  (contractElem (wb d.bytes 12 27 1 = 1) (operandA d.bytes) o.1 ((operandA d.bytes).load k (mmOff d.bytes) (mmK d.bytes)) o.2
    (mmOff d.bytes) (mmK d.bytes) m (j % 64) Acc.zero).num

/-- A fused product without FINISH has run with the u of the adapter buffer `a`: the bank holds what it held, the groups of xW and
those of uB; the engine keeps `a`; SAVE_U has written u; the descriptor has left its queue (R109). -/
def FusedBank (s t : State) (c e : Nat) (d : Desc) (start : Bank) (a : Adapter) (rank : Nat) (ob : Operand) (bs : List (List Byte)) : Prop :=
  ∃ b, b = ((t.core c).engine e).bank (wb d.bytes 12 24 1) ∧ b.st = .accumulating ∧
    b.groups = start.groups + (mmK d.bytes + 15) / 16 + (rank + 15) / 16 ∧ ((t.core c).engine e).adapter = some a ∧
    LeftQueue s t c 0 d ∧
    (∀ m j, m < 64 → j < 64 → mget Acc.zero b.acc (64 * m + j) =
      contractElem false (uOperand a.ufmt) ob (uTiles a) (ob.loaded bs) 0 rank m j
        (elementOf (s.core c) d m j (mget Acc.zero start.acc (64 * m + j)))) ∧
    (wb d.bytes 12 30 1 = 1 → (t.core c).sram = wrBytes (s.core c).sram (wb d.bytes 13 0 24) (uBytes a)) ∧
    (wb d.bytes 12 30 1 = 0 → (t.core c).sram = (s.core c).sram) ∧ (t.core c).regs = (s.core c).regs ∧
    (∀ x, x ≠ e → (t.core c).engine x = (s.core c).engine x) ∧ ∀ x, x ≠ c → t.core x = s.core x

/-! Requests (R268 to R281). -/

/-- A request is taken up: it stands at the front of the queue, or arrives while the queue is empty (log 23). `b` is the state that
this leaves. -/
def TakenUp (s : State) (r : NapReq) (b : State) : Prop :=
  s.power.phase = .run ∧
  ((∃ rest, s.nap.queue = r :: rest ∧ b = { s with nap := { s.nap with queue := rest } }) ∨ (s.nap.queue = [] ∧ s.arrive r = some b)) ∧
  ∀ k, r.carrier = .pf1 k → mget 0xFFFFFFFF b.nap.rspLen k = 0

/-- No stored response answers a SEQ, and it is not stale (R274). -/
def NewSeq (stored : List Stored) (seq : Nat) : Prop :=
  (∀ e ∈ stored, e.seq ≠ seq) ∧ (stored.length = 8 → ∃ e ∈ stored, newer 32 e.seq seq = false)

/-- A request is new and its tag holds (R274, R281). -/
def FreshRequest (s : State) (r : NapReq) : Prop :=
  (∀ k, s.sessionOf r = some k → badTag r (s.slot k) = false ∧ NewSeq (s.slot k).stored r.seq) ∧
  (s.sessionOf r = none → r.session = 0 → r.opcode = 2 → ∀ q, r.source = some q →
    match mget none s.nap.pos0 q with
    | none => s.nap.pos0.length < 256
    | some e => NewSeq e.stored r.seq)

/-- A request passes outcomes 1 and 2 of R275; its action begins in state `u`. -/
def Served (s : State) (r : NapReq) (u : State) : Prop :=
  ∃ b, TakenUp s r b ∧ FreshRequest b r ∧ u = b.addObj 0xB200 1 64 1 ∧ u.gate r = none

/-- The value that a write brings: its segment's bytes behind those that have been assembled (R271). -/
def valueOf (s : State) (r : NapReq) : List Byte :=
  if r.offset = 0 then r.value else match s.assembled r with
    | some b => b ++ r.value
    | none => r.value

/-- A write of a command object, with the last segment of its value, passes outcomes 3 to 6 of R275; its action begins in state
`u`, with the value `valueOf s r`. -/
def Ready (s : State) (r : NapReq) (index sub : Nat) (u : State) : Prop :=
  r.opcode = 2 ∧ r.index = index ∧ r.sub = sub ∧ ∃ w o, Served s r w ∧ w.objGate r = .ok o ∧
  ((o.ty ≠ .blob ∧ u = w) ∨ (o.ty = .blob ∧ w.takeSegment r blobLimit = (u, .whole (valueOf s r))))

/-- A write of a command object by the owner. -/
def OwnerWrites (s : State) (r : NapReq) (index sub : Nat) (u : State) : Prop := Ready s r index sub u ∧ u.isOwner r = true

/-- A response to a request has a way: it goes to UDP, to the mailbox, to the package's own position, or by a route (R216). -/
def Reaches (v : State) (r : NapReq) : Prop :=
  ∀ q, r.carrier = .sideband q → q = v.position ∨ q = v.groupPosition ∨ (v.route q).isSome = true

/-- `t` is what an action left, `v`, once it is answered: with a status, DETAIL and a value, to the request's carrier. The
response is kept with its session or source position; in the mailbox it stands in the slot's response area with its length
(R278). A response without a route is an event (R216). -/
def Answers (v t : State) (r : NapReq) (status detail : Nat) (value : List Byte) : Prop :=
  t = { v with
    nap := { v.nap with sessions := t.nap.sessions, rspLen := t.nap.rspLen, mailbox := t.nap.mailbox, pos0 := t.nap.pos0 },
    ports := t.ports, out := t.out, dict := t.dict, log := t.log, pf0 := t.pf0, nv := { v.nv with epoch := t.nv.epoch } } ∧
  (Reaches v r → t.log = v.log ∧ t.pf0 = v.pf0 ∧ t.nv = v.nv ∧
    t.dict = if status = 8 then (v.addObj 0xB200 3 64 1).dict else v.dict) ∧
  (∀ k, t.slot k = { v.slot k with stored := (t.slot k).stored, newestSeq := (t.slot k).newestSeq }) ∧
  ∃ f l m, t.out = v.out ++ l ++ .nap r.carrier f :: m ∧ (Reaches v r → l = []) ∧ wb f 0 24 8 = status ∧
    wd f 2 = r.seq % 2 ^ 32 ∧ wd f 7 = detail % 2 ^ 32 ∧ wd f 5 = value.length ∧ (f.drop 32).take value.length = value ∧
    ∀ k, r.carrier = .pf1 k → mget 0xFFFFFFFF t.nap.rspLen k = f.length ∧
      (mget Mailbox.empty t.nap.mailbox k).response.take f.length = f

/-- The answer OK. -/
def Done (v t : State) (r : NapReq) : Prop := Answers v t r 0 0 []

/-! Commands between positions (R231). -/

/-- From `s` to `t`, among what else was sent, a value was written to an object of 0x4040 at a position, in segments, each with
the sender's MASTER_EPOCH (R231). -/
def Sends (s t : State) (position sub : Nat) (v : List Byte) : Prop :=
  ∃ l, t.out = s.out ++ l ∧ ∀ i, 1024 * i < v.length →
    ∃ seq, .command position (t.obj 0x4035 3) seq 0x4040 sub (1024 * i) v.length ((v.drop (1024 * i)).take 1024) ∈ l

/-- A cascade command that is of no older MASTER_EPOCH than its receiver's (R231) reaches a package that is in its job, from a
writer that the package takes it from. -/
def Cascades (s : State) (r : NapReq) (sub : Nat) (who : State → NapReq → Bool) (u : State) : Prop :=
  Ready s r 0x4040 sub u ∧ who u r = true ∧ u.job.left = false ∧ u.obj 0x4035 3 ≤ r.epoch

/-- A cascade command from above. -/
def FromAbove (s : State) (r : NapReq) (sub : Nat) (u : State) : Prop := Cascades s r sub fromAbove u

/-- A cascade command from below, to a master. -/
def FromBelow (s : State) (r : NapReq) (sub : Nat) (u : State) : Prop := Cascades s r sub fromBelow u

/-- The newest record of the log is an event recorded in the step and at the position of `s`, unless its own record brought others:
for a NOTIFY without a route (R216), or for an epoch that the save store could not take (R30). -/
def LastEvent (s t : State) (e : Event) : Prop :=
  s.unrouted = [] → s.epochUnstored = false →
    t.log.records.getLast? = some (e.record t.log.epoch t.log.count s.job.step s.position)

/-- The job halts with an event: every core that ran is halted, and nothing else of the job or the cores changes. -/
def JobHalts (s t : State) (code d0 : Nat) : Prop :=
  LastEvent s t { code := code, cls := .halt, d0 := d0 } ∧ t.job = { s.job with st := 2 } ∧
  ∀ c, t.core c = if (s.core c).run = .running then { s.core c with run := .halted } else s.core c

/-- No command waits behind a GROUP_COMMIT that the deputy has not answered (R295). -/
def NoneHeld (s : State) : Prop := ∀ a ∈ s.cas.awaiting, ∀ p, a.holds p = false

/-! Copies, and the Freshet (R243 to R250). -/

/-- The image of a step complete at its holder (R244): it holds the pages that arrived over those of the newest image before, and the
configuration record that came, or the one before; nothing of it is awaited any more, and BUDDY_ACK goes to its package. -/
def ImageComplete (s t : State) (source step : Nat) (c : Copy) (config : List Byte) : Prop :=
  ∃ w : State, w = { s with buddy := w.buddy } ∧ (w.copyOf source).coming = none ∧ (w.copyOf source).asked = [] ∧
    (w.copyOf source).ending = none ∧
    (step, (c.comingAt step).foldl (fun l p => pageIns p l) (c.images.head?.elim [] (fun i => i.2.1)),
      if config = [] then c.images.head?.elim [] (fun i => i.2.2) else config) ∈ (w.copyOf source).images ∧
    t = w.command source 0x4040 0x13 (leBytes 8 step)

/-- The step that the root names in CUT_AT (R249): the one whose verdict it has not written, or the committed one. -/
def cutStepOf (s : State) : Nat :=
  if s.job.st = 1 then (if s.job.step ≤ s.cas.decided then s.job.step + 1 else s.job.step) else s.job.committed

/-- A Freshet with a halt flag has arrived at a package (R248, R249): acknowledged, with FRESHET_STATE 1, or joined to the one in
progress and counted. The root names the cut step to every position below; while a rollback or a layout change is in progress it
notes the Freshet for later. -/
def FreshetArrives (s t : State) (halt : Bool) : Prop :=
  t.job = s.job ∧ t.cores = s.cores ∧ t.mem = s.mem ∧
  (s.obj 0x8001 3 = 0 ∨ 4 ≤ s.obj 0x8001 3 → t.obj 0x8001 3 = 1 ∧ t.ckpt.halt = halt ∧ t.obj 0x8001 4 = s.obj 0x8001 4 ∧
    (s.isRoot = true → s.job.st ≠ 3 → s.trib.layout = false →
      ∀ p ∈ s.below false, Sends s t p 0x0F (cutAtValue (cutStepOf s) halt s.targetSlot)) ∧
    (s.isRoot = true → s.job.st = 3 ∨ s.trib.layout = true → t.ckpt.noticed = some (halt || s.ckpt.noticed.getD false))) ∧
  (1 ≤ s.obj 0x8001 3 → s.obj 0x8001 3 ≤ 3 → t.obj 0x8001 3 = s.obj 0x8001 3 ∧ t.ckpt.halt = (s.ckpt.halt || halt) ∧
    t.obj 0x8001 4 = (s.obj 0x8001 4 + 1) % 2 ^ 32)

/-- The cut that CUT_AT names can be taken at once (R249, R250): its step is the last that the package has applied, or, while no job
runs, the committed one. -/
def CutDueNow (s : State) (step : Nat) : Prop :=
  (step = s.applied ∨ (s.job.st ≠ 1 ∧ step = s.job.committed)) ∧ s.job.st ≠ 3 ∧ s.trib.layout = false

/-! The dictionary (R264 to R275). -/

/-- A request for an object passes every gate of R275 before the object's own outcome; its action begins in state `w`. -/
def Gated (s : State) (r : NapReq) (o : ObjRow) (w : State) : Prop := Served s r w ∧ w.objGate r = .ok o

/-- The commands that write an object which the owner alone writes (R266), with the object. -/
def ownerCommands : List ((NapReq → Instr) × Nat × Nat) :=
  [(.ownerHeartbeat, 0x2001, 2), (.ownerRelease, 0x2001, 3), (.ownerOffer, 0x2001, 4), (.jobStart, 0x4002, 1), (.jobEnd, 0x4002, 2),
   (.memRelease, 0x6014, 1), (.pageQueryAddr, 0x6015, 1), (.freshet, 0x8001, 1), (.jobResume, 0x8001, 5), (.ckptAbort, 0x8001, 6),
   (.ckptExport, 0x8007, 3), (.dieRejoin, 0x8015, 1), (.manifestKeyRotate, 0x9003, 1), (.powerCapW, 0xA002, 1),
   (.obWrite, 0xC001, 1), (.resetRequest, 0xC002, 1)]

/-- The commands that packages write to each other (R231, R295), with their sub-index of 0x4040 and whose write each takes. -/
def cascadeCommands : List ((NapReq → Instr) × Nat × (State → NapReq → Bool)) :=
  [(.voteReport, 0x01, fromBelow), (.verdict, 0x02, fromAbove), (.permuteDone, 0x03, fromBelow), (.layoutCommit, 0x04, fromAbove),
   (.heartbeat, 0x05, fromTree), (.takeover, 0x06, fromAbove), (.takeoverMaster, 0x07, fromDeputy), (.faultReport, 0x08, fromBelow),
   (.commitReady, 0x09, fromBelow), (.stepCommit, 0x0A, fromAbove), (.rollback, 0x0B, fromAbove), (.restartReady, 0x0C, fromBelow),
   (.restart, 0x0D, fromAbove), (.freshetNotice, 0x0E, fromBelow), (.cutAt, 0x0F, fromAbove), (.ckptDone, 0x10, fromBelow),
   (.ckptCommit, 0x11, fromAbove), (.ckptAbortJob, 0x12, fromAbove), (.buddyAck, 0x13, fromHolder), (.restoreReady, 0x14, fromBelow),
   (.restoreCommit, 0x15, fromAbove), (.groupArmed, 0x16, groupBelow), (.groupCommit, 0x17, groupAbove), (.groupReject, 0x18, groupAbove)]

/-- A value is of its object's type, and the object is RW-staged. -/
def StagedType (k : Nat) (v : StVal) : Prop :=
  ∃ o, objRow (k / 256) (k % 256) = some o ∧ o.acs = .staged ∧ ((o.ty = .blob ∧ ∃ b, v = .blob b) ∨ (o.ty ≠ .blob ∧ ∃ n, v = .scalar n))

/-- Ownership has passed to a new owner or to none: the epoch advances and the offer ends (R288, R289). -/
def OwnerBecomes (s t : State) (o : Option Owner) : Prop :=
  t.own.owner = o ∧ t.ownerEpoch = (s.ownerEpoch + 1) % 2 ^ 32 ∧ t.own.offer = none

/-! Resets (R336 to R341). -/

/-- Everything but what R341 keeps is at its reset value. -/
def Wiped (s t : State) : Prop :=
  t.part = s.part ∧ t.nv = s.nv ∧ t.ob = s.ob ∧ t.cores = [] ∧ t.streams = [] ∧ t.stages = [] ∧ t.versions = [] ∧ t.job = .reset ∧
  t.mem = { Tiered.reset with retired := s.mem.retired } ∧ t.upd = [] ∧ t.trib = .reset ∧ t.cas = .reset ∧ t.buddy = .reset ∧
  t.ckpt = .reset ∧ t.restore = none ∧ t.links = [] ∧ t.arbs = [] ∧ t.ports = [] ∧ t.bq = [] ∧ t.nap = .reset ∧ t.own = .reset ∧ t.weir = .reset ∧
  t.log = .reset ∧ t.pf0 = [] ∧ t.out = s.out ∧ t.pending = s.pending ∧ t.power.locked = [] ∧
  t.sec = { s.sec with held := t.sec.held } ∧ (∀ k, t.hasKey k = (s.hasKey k && decide (k < 2))) ∧
  ∀ i n, t.obj i n = if keptKey (objKey i n) then s.obj i n else keyDflt s.part (objKey i n)

/-- The release order has run to its first lock handshake, with no clock locked: RESET_N released, the reset counted with its cause,
the option bytes selected, and a bank accepted, or recovery begun (R340, R342, R351, R353). -/
def Released (s t : State) (env : BootEnv) : Prop :=
  t.power.resetN = false ∧ t.obj 0xC002 3 = (s.obj 0xC002 3 + 1) % 2 ^ 32 ∧ t.obj 0xC002 2 = s.power.cause ∧
  t.ob = (s.nv.selectOb s.part).1 ∧ t.obj 0xC001 3 = (s.nv.selectOb s.part).2 ∧
  (∀ n l, (s.tryBanks s.bankOrder).1 = some (n, l) → t.obj 0x1012 0x10 = n ∧ t.power.hubUp = true ∧ t.power.phase = .release ∧
    t.power.env = some env) ∧
  ((s.tryBanks s.bankOrder).1 = none → t.obj 0x1012 0x10 = 0xFF ∧ t.power.phase = .recovery ∧ t.power.faultN = true)

end Sys2Proof.Safety
end

