-- ==== Sys2Proof/Certificates/Slice0/Obligations.lean ====
section
/-! DEFINITION. The statements for the provers. -/

open Sys2Proof Sys2Proof.Machine Sys2Proof.Safety

/-- spec/06_stage_programs.md R142, R143: each ALU instruction of a running core writes its function of s[RA] and s[RB] to RD, each ALUI
form the same with the sign-extended IMM12 as the second operand, and LUI puts IMM16 into bits [16q + 15 : 16q]; the PC moves on and
nothing else changes. -/
def Obligations.AluForms : Prop :=
  (∀ (s : State) (c : Nat) (rd ra rb : Reg), s.runs c = true → GoesOn s c →
    ∀ p ∈ aluTable, ∃ t, exec (p.1 c rd ra rb) s = .next t ∧
      WroteReg s t c rd (p.2 ((s.core c).reg ra) ((s.core c).reg rb))) ∧
  (∀ (s : State) (c : Nat) (rd ra : Reg) (imm : BitVec 12), s.runs c = true → GoesOn s c →
    ∀ p ∈ aluiTable, ∃ t, exec (p.1 c rd ra imm) s = .next t ∧
      WroteReg s t c rd (p.2 ((s.core c).reg ra) (imm.signExtend 64))) ∧
  (∀ (s : State) (c : Nat) (q : BitVec 2) (rd : Reg) (imm : BitVec 16), s.runs c = true → GoesOn s c →
    ∃ t v, exec (.lui c q rd imm) s = .next t ∧ WroteReg s t c rd v ∧
      ∀ i, i < 64 → v.getLsbD i = if 16 * q.toNat ≤ i ∧ i < 16 * q.toNat + 16 then imm.getLsbD (i - 16 * q.toNat)
        else ((s.core c).reg rd).getLsbD i)

/-- R143 (MEM class): an aligned load inside 0x0000 to 0xFFFF writes the little-endian bytes at s[RA] + IMM14, zero-extended, to RD; an
aligned store below the two tables writes the low bytes of the source register there and nothing else; a store into the scale table is
judged on the whole 16-byte entry as the store would leave it, and one that breaks R75, R68, R87 or a reserved bit changes nothing. -/
def Obligations.LoadsAndStores : Prop :=
  (∀ (s : State) (c : Nat) (rd ra : Reg) (imm : BitVec 14), s.runs c = true → GoesOn s c → mwf 0 (s.core c).sdm = true →
    ∀ p ∈ loadTable, ∀ a, a = (s.core c).reg ra + imm.signExtend 64 → a.toNat % p.2 = 0 → a.toNat + p.2 ≤ 65536 →
      ∃ t, exec (p.1 c rd ra imm) s = .next t ∧
        WroteReg s t c rd (BitVec.ofNat 64 (leNat ((List.range p.2).map (fun i => rdByte (s.core c).sdm (a.toNat + i)))))) ∧
  (∀ (s : State) (c : Nat) (rs ra : Reg) (imm : BitVec 14), s.runs c = true → GoesOn s c →
    ∀ p ∈ storeTable, ∀ a, a = (s.core c).reg ra + imm.signExtend 64 → a.toNat % p.2 = 0 → a.toNat + p.2 ≤ 0xEE00 →
      ∃ t, exec (p.1 c rs ra imm) s = .next t ∧ OnlyCore c s t ∧ OnlySdmPc (s.core c) (t.core c) ∧
        (t.core c).pc = (s.core c).pc + 1 ∧
        ∀ x, rdByte (t.core c).sdm x =
          if a.toNat ≤ x ∧ x < a.toNat + p.2 then BitVec.ofNat 8 (((s.core c).reg rs).toNat / 256 ^ (x - a.toNat))
          else rdByte (s.core c).sdm x) ∧
  (∀ (s : State) (c : Nat) (rs ra : Reg) (imm : BitVec 14), s.runs c = true → GoesOn s c →
    ∀ p ∈ storeTable, ∀ a, a = (s.core c).reg ra + imm.signExtend 64 → a.toNat % p.2 = 0 → 0xF000 ≤ a.toNat →
      a.toNat + p.2 ≤ 65536 →
      ∃ t m, exec (p.1 c rs ra imm) s = .next t ∧ OnlyCore c s t ∧ OnlySdmPc (s.core c) (t.core c) ∧
        m = wrBytes (s.core c).sdm a.toNat (leBytes p.2 ((s.core c).reg rs).toNat) ∧
        (t.core c).sdm = (if scaleEntryOk (rdBytes m (a.toNat - a.toNat % 16) 16) then m else (s.core c).sdm))

/-- R143 (BR class): a branch goes to its own PC plus the signed offset when its condition holds, and to the next instruction when not;
CALL writes PC + 1 to s31 and branches; JR jumps to bits [15:0] of s[RA] and writes PC + 1 to RD. -/
def Obligations.BranchesAndCalls : Prop :=
  (∀ (s : State) (c : Nat) (ra rb : Reg) (off : BitVec 14), s.runs c = true → ∀ p ∈ branchTable, ∀ target : Int,
    target = (if p.2 ((s.core c).reg ra) ((s.core c).reg rb) then ((s.core c).pc.toNat : Int) + off.toInt
      else ((s.core c).pc.toNat : Int) + 1) →
    0 ≤ target → target < (s.core c).codeLen → (s.core c).codeLen ≤ 65536 →
    ∃ t, exec (p.1 c ra rb off) s = .next t ∧ OnlyCore c s t ∧
      t.core c = { s.core c with pc := (t.core c).pc } ∧ ((t.core c).pc.toNat : Int) = target) ∧
  (∀ (s : State) (c : Nat) (rd ra : Reg) (off : BitVec 14), s.runs c = true → (s.core c).codeLen ≤ 65536 →
    (∀ target : Int, target = ((s.core c).pc.toNat : Int) + off.toInt → 0 ≤ target → target < (s.core c).codeLen →
      ∃ t, exec (.call c off) s = .next t ∧ OnlyCore c s t ∧ OnlyRegsPc (s.core c) (t.core c) ∧
        ((t.core c).pc.toNat : Int) = target ∧
        ∀ q, (t.core c).reg q = if q = 31 then BitVec.ofNat 64 ((s.core c).pc.toNat + 1) else (s.core c).reg q) ∧
    (((s.core c).reg ra).toNat % 65536 < (s.core c).codeLen →
      ∃ t, exec (.jr c rd ra) s = .next t ∧ OnlyCore c s t ∧ OnlyRegsPc (s.core c) (t.core c) ∧
        (t.core c).pc.toNat = ((s.core c).reg ra).toNat % 65536 ∧
        ∀ q, (t.core c).reg q = if q = 0 then 0 else if q = rd then BitVec.ofNat 64 ((s.core c).pc.toNat + 1)
          else (s.core c).reg q))

/-- R143, R147: a reserved encoding, a load or store that is misaligned or runs past 0xFFFF, and a DESC from an address that is no
multiple of 16, whose 64 bytes leave scalar data memory, or with QUEUE code 7, are PROGRAM_FAULTs. -/
def Obligations.ProgramFaults : Prop :=
  (∀ (s : State) (c : Nat) (r ra : Reg) (imm : BitVec 14) (w : BitVec 32), s.runs c = true →
    (∃ t, exec (.reservedInstruction c w) s = .next t ∧ Faults s t c) ∧
    ∀ p ∈ loadTable ++ storeTable, ∀ a, a = (s.core c).reg ra + imm.signExtend 64 →
      a.toNat % p.2 ≠ 0 ∨ 65536 < a.toNat + p.2 → ∃ t, exec (p.1 c r ra imm) s = .next t ∧ Faults s t c) ∧
  (∀ (s : State) (c : Nat) (q : BitVec 3) (rd ra : Reg), s.runs c = true →
    q = 7 ∨ ((s.core c).reg ra).toNat % 16 ≠ 0 ∨ 65536 < ((s.core c).reg ra).toNat + 64 →
    ∃ t, exec (.desc c q rd ra) s = .next t ∧ Faults s t c)

/-- R114, R123, R126, R143, R151, R152: SETVL sets VL from s[RA] and faults above 4,096; GETVL reads VL; QRD reads a word of a summary
register that no pending descriptor names; TOKRD takes the oldest error token, or reads 0; FTQRD puts the oldest finished-tile entry in
RD and RD + 1, and with RD s31 is reserved; HALT leaves CORE_STATE at 2. WAIT.q makes the core wait for every descriptor numbered s[RA]
or lower; WAIT_RETURN, once none of them is waiting or begun, writes to RD the code of the lowest-numbered one that retired with an
error not yet reported, 0 for none. -/
def Obligations.ControlForms : Prop :=
  (∀ (s : State) (c : Nat) (rd ra : Reg) (q : BitVec 3) (w : BitVec 2), s.runs c = true → GoesOn s c →
    (((s.core c).reg ra).toNat ≤ 4096 → ∃ t, exec (.setvl c ra) s = .next t ∧ OnlyCore c s t ∧
      t.core c = { s.core c with vl := (t.core c).vl, pc := (s.core c).pc + 1 } ∧
      (t.core c).vl.toNat = ((s.core c).reg ra).toNat) ∧
    (4096 < ((s.core c).reg ra).toNat → ∃ t, exec (.setvl c ra) s = .next t ∧ Faults s t c) ∧
    (∃ t, exec (.getvl c rd) s = .next t ∧ WroteReg s t c rd (BitVec.ofNat 64 (s.core c).vl.toNat)) ∧
    ((∀ d ∈ (s.core c).vecQ.waiting, namesSummary false q.toNat d = false) →
      (∀ d ∈ (s.core c).rowQ.waiting, namesSummary true q.toNat d = false) →
      ∃ t, exec (.qrd c q w rd) s = .next t ∧
        WroteReg s t c rd (BitVec.ofNat 64 (((s.core c).summary q.toNat).word w.toNat))) ∧
    ((s.core c).errLog = [] → ∃ t, exec (.tokrd c rd) s = .next t ∧ WroteReg s t c rd 0) ∧
    (∀ e l, (s.core c).errLog = e :: l → ∃ t, exec (.tokrd c rd) s = .next t ∧
      WroteReg (s.setCore c { s.core c with errLog := l }) t c rd (BitVec.ofNat 64 (e.1 + e.2 * 2 ^ 32)))) ∧
  (∀ (s : State) (c : Nat) (rd : Reg), s.runs c = true →
    (∀ e l, GoesOn s c → rd ≠ 31 → rd ≠ 0 → (s.core c).ftq = e :: l → ∃ t, exec (.ftqrd c rd) s = .next t ∧ OnlyCore c s t ∧
      OnlyRegsPc (s.core c) (t.core c) ∧ (t.core c).pc = (s.core c).pc + 1 ∧
      (t.core c).reg rd = BitVec.ofNat 64 (e.words.getD 0 0 + e.words.getD 1 0 * 2 ^ 32) ∧
      (t.core c).reg (rd + 1) = BitVec.ofNat 64 (e.words.getD 2 0 + e.words.getD 3 0 * 2 ^ 32) ∧
      ∀ q, q ≠ rd → q ≠ rd + 1 → (t.core c).reg q = (s.core c).reg q) ∧
    (∀ e l, GoesOn s c → (s.core c).ftq = e :: l → ∃ t, exec (.ftqrd c 0) s = .next t ∧
      WroteReg s t c 1 (BitVec.ofNat 64 (e.words.getD 2 0 + e.words.getD 3 0 * 2 ^ 32))) ∧
    (∃ t, exec (.ftqrd c 31) s = .next t ∧ Faults s t c) ∧
    ∃ t, exec (.halt c) s = .next t ∧ OnlyCore c s t ∧ t.core c = { s.core c with run := .halted }) ∧
  ((∀ (s : State) (c : Nat) (q : BitVec 3) (rd ra : Reg), s.runs c = true →
    ∃ t, exec (.wait c q rd ra) s = .next t ∧ OnlyCore c s t ∧
      t.core c = { s.core c with waiting := .wait q.toNat ((s.core c).reg ra).toNat rd }) ∧
  ∀ (s : State) (c q n : Nat) (rd : Reg), (s.core c).run = .running → (s.core c).waiting = .wait q n rd → q < 4 ∨ q = 5 ∨ q = 6 →
    GoesOn s c → (∀ d ∈ ((s.core c).queue q).waiting, n < d.num) → (∀ x ∈ ((s.core c).queue q).begun, n < x) →
    ∃ t v, exec (.waitReturn c) s = .next t ∧ OnlyCore c s t ∧ (t.core c).waiting = .none ∧ (t.core c).pc = (s.core c).pc + 1 ∧
      (∀ r, (t.core c).reg r = if r = 0 then 0 else if r = rd then BitVec.ofNat 64 v else (s.core c).reg r) ∧
      ((∀ e ∈ ((s.core c).queue q).errs, e.num ≤ n → e.reported = true) → v = 0) ∧
      ∀ e ∈ ((s.core c).queue q).errs, e.num ≤ n → e.reported = false →
        ∃ d ∈ ((s.core c).queue q).errs, d.num ≤ e.num ∧ d.reported = false ∧ v = d.code)

/-- R147, R149, R151, R153: DESC copies the 64 bytes at s[RA] into its queue (a vector descriptor takes VL into word 10 [12:0]),
numbers the descriptor one above the last, writes the number to RD and moves on. A RECV, REL or SEND that does not carry the
picked MB_ID is marked; an RSEND is numbered on the reduction count as well. The other queues keep their contents. -/
def Obligations.DescIssues : Prop :=
  ∀ (s : State) (c : Nat) (q : BitVec 3) (rd ra : Reg) (a : Nat) (raw : List Byte), s.runs c = true → GoesOn s c → q ≠ 7 →
    a = ((s.core c).reg ra).toNat → raw = rdBytes (s.core c).sdm a 64 → a % 16 = 0 → a + 64 ≤ 65536 →
    opcodeDefined q.toNat (wb raw 0 0 8) = true →
    (s.core c).doneSpan = false ∨ (q = 4 ∧ wb raw 0 0 8 = 2) → (q = 4 → (s.core c).itemHolds = false) →
    (s.core c).queueUsed q.toNat (wb raw 0 8 3) < queueDepth q.toNat →
    ∃ t d, exec (.desc c q rd ra) s = .next t ∧ OnlyCore c s t ∧ (t.core c).pc = (s.core c).pc + 1 ∧
      ((t.core c).queue q.toNat).waiting = ((s.core c).queue q.toNat).waiting ++ [d] ∧
      d.num = ((s.core c).queue q.toNat).issued + 1 ∧ ((t.core c).queue q.toNat).issued = d.num ∧
      (q ≠ 1 → d.bytes = raw) ∧
      (q = 1 → wb d.bytes 10 0 13 = (s.core c).vl.toNat ∧ ∀ i, i ≠ 10 → wd d.bytes i = wd raw i) ∧
      (d.badItem = true ↔ (q = 5 ∨ (q = 4 ∧ wb raw 0 0 8 = 1)) ∧ (s.core c).itemMatches (wb raw 1 0 16) = false) ∧
      d.rnum = (if q = 4 ∧ wb raw 0 0 8 = 2 then (s.core c).redIssued + 1 else 0) ∧
      (∀ n, n ≠ q.toNat → n < 7 → (t.core c).queue n = (s.core c).queue n) ∧ (t.core c).sdm = (s.core c).sdm ∧
      ∀ r, (t.core c).reg r = if r = 0 then 0 else if r = rd then BitVec.ofNat 64 d.num else (s.core c).reg r

/-- R145: OXB puts an entry with layer s[RB] and the 32 bytes at s[RA] behind the Oxbow's others and counts it for its layer; DRAIN
declares s[RB] entries for layer s[RA]. Stated where the item is a forward or Oxbow item, or a backward one's first OXB. -/
def Obligations.OxbAndDrain : Prop :=
  ∀ (s : State) (c : Nat) (ra rb : Reg), s.runs c = true → GoesOn s c → (s.core c).doneSpan = false →
    (∀ i, ((s.core c).reg ra).toNat % 8 = 0 → ((s.core c).reg ra).toNat + 32 ≤ 65536 → (s.core c).item = some i →
      (s.core c).oxbTwice = false → (s.core c).oxbow.length < 256 →
      ((s.core c).layer ((s.core c).reg rb).toNat).queued < ((s.core c).layer ((s.core c).reg rb).toNat).declared →
      ∃ t, exec (.oxb c ra rb) s = .next t ∧ (t.core c).pc = (s.core c).pc + 1 ∧
        (t.core c).oxbow = (s.core c).oxbow ++
          [⟨((s.core c).reg rb).toNat, rdBytes (s.core c).sdm ((s.core c).reg ra).toNat 32, i.mbId, i.n, i.variant, i.version⟩] ∧
        ((t.core c).layer ((s.core c).reg rb).toNat).queued = ((s.core c).layer ((s.core c).reg rb).toNat).queued + 1 ∧
        (t.core c).regs = (s.core c).regs ∧ ∀ e, e ≠ c → t.core e = s.core e) ∧
    (((s.core c).layer ((s.core c).reg ra).toNat).queued = 0 →
      ∃ t, exec (.drain c ra rb) s = .next t ∧ OnlyCore c s t ∧ (t.core c).pc = (s.core c).pc + 1 ∧
        ((t.core c).layer ((s.core c).reg ra).toNat).declared = ((s.core c).reg rb).toNat ∧
        (t.core c).regs = (s.core c).regs ∧ (t.core c).sdm = (s.core c).sdm)

/-- R88, R116 to R119, R130: a vector operation that can run writes its function of the sources' elements to each unmasked element
below VL; a masked one keeps its value, or becomes +0 under ZERO. A register destination changes nothing else in the registers
and no memory; a memory destination changes only its own bytes, and with no mask, SR clear and no block scales element i's bits
are those of the store path. -/
def Obligations.VectorValues : Prop :=
  ∀ (s : State) (c : Nat) (d : Desc), ∀ p ∈ vecTable, VecReady s c p.op p.nsrc d → p.need (s.core c) d.bytes →
    vDstBad (s.core c) d.bytes = none → ∀ dst l n, dst = wb d.bytes 9 0 24 → l = (s.core c).latch (wb d.bytes 10 23 8) →
      n = (if wb d.bytes 9 24 3 = 1 then l.tile.raw else runBytes (fmtD l.format).bits (vVl d.bytes)) →
    ∃ t, exec (p.cmd c) s = .next t ∧ OnlyCoreDict c s t ∧ OnlyVector (s.core c) (t.core c) ∧ LeftQueue s t c 1 d ∧
      (t.core c).masks = (s.core c).masks ∧
      (wb d.bytes 9 24 3 = 3 → (t.core c).sram = (s.core c).sram ∧ (t.core c).sdm = (s.core c).sdm ∧
        ∀ x, mget 0 (t.core c).vregs x =
          if 256 * (dst % 32) ≤ x ∧ x < 256 * (dst % 32) + vVl d.bytes then
            if vMasked (s.core c) d.bytes (x - 256 * (dst % 32)) = false then
              BitVec.ofNat 32 (p.value (s.core c) d (x - 256 * (dst % 32)))
            else if vZero d.bytes then 0 else mget 0 (s.core c).vregs x
          else mget 0 (s.core c).vregs x) ∧
      (wb d.bytes 9 24 3 ≠ 3 → (t.core c).vregs = (s.core c).vregs ∧ ∃ bs, (t.core c).sram = wrBytes (s.core c).sram dst bs ∧
        bs.length ≤ n ∧
        (wb d.bytes 10 13 3 = 0 → l.sr = false → l.scaled = false → bs = packElems (fmtD l.format).bits
          ((List.range (vVl d.bytes)).map (fun i =>
              (storeLane (fmtD l.format) l.sexp ⟨f32 (p.value (s.core c) d i), none, false⟩).1) ++
            (unpackElems (fmtD l.format).bits (n * 8 / (fmtD l.format).bits) (rdBytes (s.core c).sram dst n)).drop (vVl d.bytes))))

/-- R88, R120: a compare sets the bits of its mask register below VL to its predicate, false on a NaN, a masked bit as R119 says,
and clears the rest; mask logic acts on each bit below VL. Other mask registers, the vector registers and memory keep their
values. A named summary register counts a compare's NaNs. -/
def Obligations.VectorMasks : Prop :=
  ∀ (s : State) (c : Nat) (d : Desc), maskDstBad (s.core c) d.bytes = none →
    (∀ p ∈ cmpTable, VecReady s c p.2.1 2 d → ∀ nan : Nat → Bool,
      nan = (fun i => (f32 (vecElem (s.core c) d 2 0 i)).isNan || (f32 (vecElem (s.core c) d 2 1 i)).isNan) →
      ∃ t n, exec (p.1 c) s = .next t ∧ OnlyCoreDict c s t ∧ OnlyVector (s.core c) (t.core c) ∧ LeftQueue s t c 1 d ∧
        (t.core c).vregs = (s.core c).vregs ∧ (t.core c).sram = (s.core c).sram ∧ (t.core c).sdm = (s.core c).sdm ∧
        (∀ m, m ≠ wb d.bytes 9 0 5 → mget 0 (t.core c).masks m = mget 0 (s.core c).masks m) ∧
        (∀ i, bitOf (mget 0 (t.core c).masks (wb d.bytes 9 0 5)) i =
          if vVl d.bytes ≤ i then false
          else if vMasked (s.core c) d.bytes i then (!vZero d.bytes && bitOf (mget 0 (s.core c).masks (wb d.bytes 9 0 5)) i)
          else !nan i && p.2.2 (f32 (vecElem (s.core c) d 2 0 i)) (f32 (vecElem (s.core c) d 2 1 i))) ∧
        n = ((List.range (vVl d.bytes)).filter (fun i => !vMasked (s.core c) d.bytes i && nan i)).length ∧
        (wb d.bytes 10 20 1 = 1 → (t.core c).summary (wb d.bytes 10 17 3) = ftqFlags (boundTile (s.core c) d.bytes 2)
          (((startSummary (s.core c) d.bytes).addNf n).flag 0 (n ≠ 0)))) ∧
    ∀ p ∈ maskTable, VecReady s c p.2.1 0 d → (∀ i, i < p.2.2.1 → maskSrcBad d.bytes i = none) →
      ∃ t, exec (p.1 c) s = .next t ∧ OnlyCoreDict c s t ∧ OnlyVector (s.core c) (t.core c) ∧ LeftQueue s t c 1 d ∧
        (t.core c).vregs = (s.core c).vregs ∧ (t.core c).sram = (s.core c).sram ∧ (t.core c).sdm = (s.core c).sdm ∧
        (∀ m, m ≠ wb d.bytes 9 0 5 → mget 0 (t.core c).masks m = mget 0 (s.core c).masks m) ∧
        ∀ i, bitOf (mget 0 (t.core c).masks (wb d.bytes 9 0 5)) i =
          if vVl d.bytes ≤ i then false
          else p.2.2.2 (bitOf (mget 0 (s.core c).masks ((vSrc d.bytes 0).addr % 32)) i)
            (bitOf (mget 0 (s.core c).masks ((vSrc d.bytes 1).addr % 32)) i)

/-- R122, R123, R126: a maximum or a sum merges the unmasked elements below VL into the summary register that it names, which CLEAR
first makes empty, and RED.CNT adds their number without reading one, so that it needs no source. A bound finished tile adds
its flags; without a named register none changes. Nothing but the summary registers, the finished-tile queue where the tile is
released, and its own queue changes in the core's data. -/
def Obligations.VectorReductions : Prop :=
  ∀ (s : State) (c : Nat) (d : Desc) (xs : List Nat) (v : Summary),
    xs = ((List.range (vVl d.bytes)).filter (fun i => !vMasked (s.core c) d.bytes i)).map (vecElem (s.core c) d 1 0) →
    v = startSummary (s.core c) d.bytes →
    (∀ p ∈ redTable, VecReady s c p.2.1 1 d → noDstBad (s.core c) d.bytes = none →
      ∃ t, exec (p.1 c) s = .next t ∧ Reduced s t c d (p.2.2 xs v)) ∧
    (VecReady s c 0x2A 1 d → noDstBad (s.core c) d.bytes = none → ∃ t, exec (.redSum c) s = .next t ∧
      Reduced s t c d { xs.foldl (fun v x => v.seeElem x) v with
        sum := BitVec.ofNat 32 (fadd v.sum.toNat (laneTree (Array.ofFn (n := vVl d.bytes) (fun i =>
          if vMasked (s.core c) d.bytes i.val = false ∧ finB (vecElem (s.core c) d 1 0 i.val) = true then
            some (vecElem (s.core c) d 1 0 i.val) else none)))) }) ∧
    (CntReady s c d → ∃ t, exec (.redCnt c) s = .next t ∧ Reduced s t c d { v with
      nf := if v.nf + xs.length < 2 ^ 32 then v.nf + xs.length else 2 ^ 32 - 1 })

/-- R131 to R140: a row operation that can run takes its rows in increasing order, writes each row's statistics record and α or r,
stores through its scale-table entry only into the tiles that it covers (and dγ and dβ for the backward norms), and retires. -/
def Obligations.RowOperations : Prop :=
  ∀ (s : State) (c : Nat) (d : Desc), Canonical s → ∀ p ∈ rowTable, RowReady s c p.2 d → ∃ t, exec (p.1 c) s = .next t ∧
    t = { s with cores := t.cores, dict := t.dict, free := t.free } ∧ (∀ e, e ≠ c → t.core e = s.core e) ∧
    OnlyRow (s.core c) (t.core c) ∧ LeftQueue s t c 2 d ∧
    (∀ r, r < rwRows d.bytes → rdBytes (t.core c).side (16 * (rwStat d.bytes + r)) 16 =
      match (rowOut s c p.2 d r).stat with
      | some st => st.bytes
      | none => rdBytes (s.core c).side (16 * (rwStat d.bytes + r)) 16) ∧
    (∀ x, x < 16 * rwStat d.bytes ∨ 16 * (rwStat d.bytes + rwRows d.bytes) ≤ x →
      rdByte (t.core c).side x = rdByte (s.core c).side x) ∧
    (∀ r, r < rwRows d.bytes → ∀ a, (rowOut s c p.2 d r).alpha = some a →
      mget 0 (t.core c).vregs (256 * wb d.bytes 12 24 5 + r) = BitVec.ofNat 32 a) ∧
    (∀ x, x < 256 * wb d.bytes 12 24 5 ∨ 256 * wb d.bytes 12 24 5 + rwRows d.bytes ≤ x →
      mget 0 (t.core c).vregs x = mget 0 (s.core c).vregs x) ∧
    ∀ x, ¬ rowWrites (s.core c) p.2 d.bytes x → rdByte (t.core c).sram x = rdByte (s.core c).sram x

/-- R192 to R196: a raw tile of any tile form, packed, unpacks to itself. -/
def Obligations.PackedTilesAreLossless : Prop :=
  ∀ (t : TileFmt) (raw : List Byte), t.ok = true → t.size < 4 → t.dir < 2 → raw.length = t.raw →
    unpackTile t (packTile t raw) = some raw

/-- R11, R148, R190, R197: COPY moves LENGTH bytes unchanged, PACK writes the packed sequence of the raw tiles, UNPACK writes the raw
tiles at their stride, SDM_RD and SDM_WR move bytes to and from scalar data memory, between core memories and tiered memory alike;
each source is read whole before anything is written, no other byte changes, and the descriptor retires. Stated where the
source can be read at once, and for a destination in tiered memory where it is written in whole tiles or plain pages. -/
def Obligations.TileMoverMoves : Prop :=
  ∀ (s : State) (c : Nat) (d : Desc) (src dst : Place) (n : Nat), Canonical s → s.merging c d.num = false →
    (s.tmHead c 1 = some d → Readable s c src n → n = tmLen d.bytes → n % 64 = 0 → s.place (tmSrc d.bytes) n 2 = .ok src →
      s.place (tmDst d.bytes) n 4 = .ok dst → Direct s dst n → (∀ bs u, s.fetch c 3 d.num src n = .bytes bs u → Framed u c dst n) →
      ∃ t bs, exec (.copy c) s = .next t ∧ Holds s src n bs ∧ Placed s t c src dst bs ∧ LeftQueue s t c 3 d) ∧
    (s.tmHead c 2 = some d → Readable s c src n → tmBadForm d.bytes = none → n = tmTiles d.bytes * (tmForm d.bytes).stride →
      tmTiles d.bytes * ((tmForm d.bytes).stride + 16) ≤ tmLen d.bytes → s.place (tmSrc d.bytes) n 2 = .ok src →
      s.place (tmDst d.bytes) (tmLen d.bytes) 4 = .ok dst →
      (∀ bs u m, s.fetch c 3 d.num src n = .bytes bs u → m ≤ tmLen d.bytes → Direct s dst m ∧ Framed u c dst m) →
      ∃ t bs, exec (.pack c) s = .next t ∧ Holds s src n bs ∧ LeftQueue s t c 3 d ∧
        Placed s t c src dst ((List.range (tmTiles d.bytes)).flatMap (fun i =>
          packTile (tmForm d.bytes) ((bs.drop (i * (tmForm d.bytes).stride)).take (tmForm d.bytes).raw)))) ∧
    (∀ offs, s.tmHead c 3 = some d → Readable s c src n → tmBadForm d.bytes = none → s.unpackWalk (tmSrc d.bytes) (tmTiles d.bytes) 0 = .ok (offs, n) →
      s.place (tmSrc d.bytes) n 2 = .ok src → s.place (tmDst d.bytes) (tmTiles d.bytes * (tmForm d.bytes).stride) 4 = .ok dst →
      (∀ bs, Holds s src n bs → ∀ o ∈ offs, (unpackTile (tmForm d.bytes) (bs.drop o)).isSome = true) →
      (∀ i, i < tmTiles d.bytes → Direct s (shift dst (i * (tmForm d.bytes).stride)) (tmForm d.bytes).raw) →
      (∀ a, dst = .tiered a → ∀ x ∈ s.access a (tmTiles d.bytes * (tmForm d.bytes).stride),
        s.pieceFenced x = none ∧ (s.page x.key).isSome = true) →
      ∃ t bs, exec (.unpack c) s = .next t ∧ Holds s src n bs ∧ LeftQueue s t c 3 d ∧
        Moved s t c src dst (tmTiles d.bytes * (tmForm d.bytes).stride) ∧
        ∀ i raw j x, i < tmTiles d.bytes → unpackTile (tmForm d.bytes) (bs.drop (offs.getD i 0)) = some raw →
          j < (tmForm d.bytes).stride → x = i * (tmForm d.bytes).stride + j → padding s dst x = false →
            placeByte t dst x = if j < raw.length then raw.getD j 0 else placeByte s dst x) ∧
    (s.tmHead c 4 = some d → Readable s c src n → n = tmLen d.bytes → sdmLenOk n = true → wb d.bytes 4 0 16 + n ≤ 65536 →
      s.place (tmSrc d.bytes) n 2 = .ok src →
      ∃ t bs, exec (.sdmRd c) s = .next t ∧ Holds s src n bs ∧ LeftQueue s t c 3 d ∧
        t = { s with cores := t.cores, mem := t.mem, dict := t.dict, free := t.free } ∧ (∀ e, e ≠ c → t.core e = s.core e) ∧
        t.core c = { s.core c with sdm := (t.core c).sdm, tmQ := (t.core c).tmQ, bwNoted := (t.core c).bwNoted } ∧
        (t.core c).sdm = ((s.core c).tableWrite (wb d.bytes 4 0 16) bs).sdm ∧
        (wb d.bytes 4 0 16 + n ≤ 0xEE00 → ∀ x, rdByte (t.core c).sdm x =
          if wb d.bytes 4 0 16 ≤ x ∧ x < wb d.bytes 4 0 16 + n then bs.getD (x - wb d.bytes 4 0 16) 0
          else rdByte (s.core c).sdm x)) ∧
    (s.tmHead c 5 = some d → n = tmLen d.bytes → sdmLenOk n = true → wb d.bytes 2 0 16 + n ≤ 65536 →
      s.place (tmDst d.bytes) n 4 = .ok dst → Direct s dst n → Framed s c dst n →
      ∃ t, exec (.sdmWr c) s = .next t ∧ LeftQueue s t c 3 d ∧ Placed s t c (.sram c 0) dst (rdBytes (s.core c).sdm (wb d.bytes 2 0 16) n))

/-- R187, R206: a tile-mover write of plain tiered memory that finds frames maps the pages, leaves its bytes there and no others
changed; a read of mapped plain pages that waits for nothing and meets no poison gives the bytes that stand there, and of
unmapped pages zeros. -/
def Obligations.TieredMoves : Prop :=
  ∀ (s : State) (c : Nat) (d : Desc) (n a : Nat), Canonical s → s.merging c d.num = false → n = tmLen d.bytes → sdmLenOk n = true →
    plainExtent s a n →
    (s.tmHead c 5 = some d → wb d.bytes 2 0 16 + n ≤ 65536 → s.place (tmDst d.bytes) n 4 = .ok (.tiered a) →
      (s.mapAll (.core c) (s.access a n)).isSome = true →
      ∃ t, exec (.sdmWr c) s = .next t ∧ LeftQueue s t c 3 d ∧ (∀ p ∈ s.access a n, (t.page p.key).isSome = true) ∧
        ∀ x, rdByte t.mem.cells x = if a ≤ x ∧ x < a + n then rdByte (s.core c).sdm (wb d.bytes 2 0 16 + (x - a))
          else rdByte s.mem.cells x) ∧
    (s.tmHead c 4 = some d → wb d.bytes 4 0 16 + n ≤ 0xEE00 → s.place (tmSrc d.bytes) n 2 = .ok (.tiered a) →
      (∀ p ∈ s.access a n, PieceSound s (.core c) p) →
      ∃ t, exec (.sdmRd c) s = .next t ∧ LeftQueue s t c 3 d ∧ t.mem.cells = s.mem.cells ∧
        ((∀ p ∈ s.access a n, (s.page p.key).isSome = true) → ∀ i, i < n →
          rdByte (t.core c).sdm (wb d.bytes 4 0 16 + i) = rdByte s.mem.cells (a + i)) ∧
        ((∀ p ∈ s.access a n, s.page p.key = none) → ∀ i, i < n → rdByte (t.core c).sdm (wb d.bytes 4 0 16 + i) = 0))

/-- R94 to R103: an MM that can run, whose bank is not draining, whose operands are in range and unpoisoned, and whose first
attempt meets no residue mismatch, leaves in each element of its bank the groups of its K products added to what the bank held
(or to 0 without CONTINUE), counts the groups, and retires; with FINISH the bank drains with the settings latched from its
scale-table entry. Other banks and engines keep their contents. -/
def Obligations.MatrixProduct : Prop :=
  ∀ (s : State) (c e : Nat) (d : Desc) (mm : List (List (Nat × Nat))) (bank start : Bank) (l : Latch) (g : Nat),
    MatrixReady s c e 1 d bank start → mm.headD [] = [] → g = (mmK d.bytes + 15) / 16 → mmRefuse (s.core c) bank d g = none →
    l = (s.core c).latch (wb d.bytes 10 24 8) → InRange (s.core c) d →
    ∃ t b, exec (.mm c e mm) s = .next t ∧ OnlyCoreDict c s t ∧ b = ((t.core c).engine e).bank (wb d.bytes 12 24 1) ∧
      t.core c = { s.core c with engines := (t.core c).engines, mxQ := (t.core c).mxQ } ∧
      (∀ m j, m < 64 → j < 64 → mget Acc.zero b.acc (64 * m + j) = elementOf (s.core c) d m j (mget Acc.zero start.acc (64 * m + j))) ∧
      b.groups = start.groups + g ∧
      (t.core c).mxQ.waiting = (s.core c).mxQ.waiting.filter (fun x => x.num ≠ d.num) ∧
      (wb d.bytes 12 26 1 = 0 → b.st = .accumulating ∧ LeftQueue s t c 0 d) ∧
      (wb d.bytes 12 26 1 = 1 → b.st = .draining ∧ b.finish = some (d, l) ∧ d.num ∈ (t.core c).mxQ.begun) ∧
      ((t.core c).engine e).bank (1 - wb d.bytes 12 24 1) = ((s.core c).engine e).bank (1 - wb d.bytes 12 24 1) ∧
      ((t.core c).engine e).faults = ((s.core c).engine e).faults ∧ ((t.core c).engine e).adapter = ((s.core c).engine e).adapter ∧
      ∀ x, x ≠ e → (t.core c).engine x = (s.core c).engine x

/-- R108, R109: an MMF whose variant has RANK 0 is the plain product. One with an adapter whose buffer does not hold its u, and whose
tiles of A and B have been fetched, forms u = xA in U_FORMAT and keeps it in the engine's adapter buffer; one whose buffer holds u
fetches no tile of A and uses that u. Both add the groups of xW and then those of uB to the bank. -/
def Obligations.FusedProduct : Prop :=
  ∀ (s : State) (c e : Nat) (d : Desc) (mm : List (List (Nat × Nat))) (bank start : Bank) (g : Nat), MatrixReady s c e 2 d bank start →
    mm.headD [] = [] → g = (mmK d.bytes + 15) / 16 → InRange (s.core c) d → wb d.bytes 12 26 1 = 0 →
    (s.fusion c d.bytes = .ok none → mmRefuse (s.core c) bank d g = none →
      ∃ t b, exec (.mmf c e mm) s = .next t ∧ OnlyCoreDict c s t ∧ b = ((t.core c).engine e).bank (wb d.bytes 12 24 1) ∧
        LeftQueue s t c 0 d ∧ b.st = .accumulating ∧ b.groups = start.groups + g ∧
        ∀ m j, m < 64 → j < 64 → mget Acc.zero b.acc (64 * m + j) = elementOf (s.core c) d m j (mget Acc.zero start.acc (64 * m + j))) ∧
    ∀ fu f bs s2, fu.rank ≤ 256 → s.fusion c d.bytes = .ok (some fu) → mmRefuse (s.core c) bank d (g + (fu.rank + 15) / 16) = none →
      mmfBadField d.bytes fu = none → (s.core c).flight (wb d.bytes 1 0 16) = some f →
      rangeBreak false (uOperand fu.ufmt) (adapterB d fu) #[] ((adapterB d fu).loaded bs) 0 fu.rank = none →
      (∀ as s1, (s.core c).heldU e d.bytes f.version = none →
        s.fetchTiles c d.num fu.recA f.version ((adapterA d fu).flatMap (fun o => o.addrs (mmOff d.bytes) (mmK d.bytes))) =
          .ok (some as, s1) →
        s1.fetchTiles c d.num fu.recB f.version ((adapterB d fu).addrs 0 fu.rank) = .ok (some bs, s2) →
        (∀ o ∈ adapterTiles d fu as, rangeBreak (wb d.bytes 12 27 1 = 1) (operandA d.bytes) o.1
          ((operandA d.bytes).load (s.core c) (mmOff d.bytes) (mmK d.bytes)) o.2 (mmOff d.bytes) (mmK d.bytes) = none) →
        ∃ t a, exec (.mmf c e mm) s = .next t ∧ FusedBank s t c e d start a fu.rank (adapterB d fu) bs ∧
          a.rank = fu.rank ∧ a.ufmt = fu.ufmt ∧ a.matches d.bytes f.version = true ∧
          ∀ m j, m < 64 → j < fu.rank → mget 0 a.u (256 * m + j) =
            (storeElem (fmtD fu.ufmt) (adapterElement (s.core c) d fu as m j) none).bits) ∧
      ∀ a, (s.core c).heldU e d.bytes f.version = some a → a.rank = fu.rank → a.ufmt = fu.ufmt →
        s.fetchTiles c d.num fu.recB f.version ((adapterB d fu).addrs 0 fu.rank) = .ok (some bs, s2) →
        ∃ t, exec (.mmf c e mm) s = .next t ∧ FusedBank s t c e d start a fu.rank (adapterB d fu) bs

/-- R99, R110 to R112: a first residue mismatch in one cell is counted against the cell and the descriptor is replayed from the bank as
it stood; the bank then holds what an undisturbed attempt leaves. -/
def Obligations.ReplayedProduct : Prop :=
  ∀ (s : State) (c e row col : Nat) (d : Desc) (bank start : Bank) (g : Nat), MatrixReady s c e 1 d bank start →
    g = (mmK d.bytes + 15) / 16 → mmRefuse (s.core c) bank d g = none → InRange (s.core c) d → s.part.hasCore c = true → row < 64 → col < 64 →
    mget 0 ((s.core c).engine e).faults (64 * row + col) = 0 →
    ∃ t b, exec (.mm c e [[(row, col)], []]) s = .next t ∧ b = ((t.core c).engine e).bank (wb d.bytes 12 24 1) ∧
      (∀ m j, m < 64 → j < 64 → mget Acc.zero b.acc (64 * m + j) = elementOf (s.core c) d m j (mget Acc.zero start.acc (64 * m + j))) ∧
      mget 0 ((t.core c).engine e).faults (64 * row + col) = 1 ∧
      t.obj 0x8038 c = (s.obj 0x8038 c + 1) % 2 ^ 32

/-- R104, R125, R127: EPILOGUE converts the older draining bank through the latched settings, writes the raw tile at the descriptor's
address, posts the finished-tile entry, empties the bank and retires the descriptor; while the finished-tile queue holds 32 entries
the bank keeps draining. -/
def Obligations.Epilogue : Prop :=
  ∀ (s : State) (c e bk : Nat) (d : Desc) (l : Latch), ((s.core c).engine e).drainingBank = some (bk, d, l) →
    ((s.core c).ftq.length < 32 → ∀ draws, draws = (s.draw c e ((List.range 4096).map (fun i => (i % 64, l.sr)))).1 →
      ∃ t f r, exec (.epilogue c e) s = .next t ∧ OnlyCoreDict c s t ∧ LeftQueue s t c 0 d ∧
        r = storeTile l.tile l.sexp (Array.ofFn (n := 4096) (fun i =>
          if i.val / 64 ≤ wb d.bytes 12 12 6 ∧ i.val % 64 ≤ wb d.bytes 12 18 6 then
            (⟨((accArray (((s.core c).engine e).bank bk).acc).getD i.val Acc.zero).num, draws.getD i.val none, false⟩ : StElem)
          else ⟨.fin false 0 0, draws.getD i.val none, true⟩)) ∧
        (t.core c).sram = wrBytes (s.core c).sram (wb d.bytes 10 0 24) r.1 ∧ (t.core c).ftq = (s.core c).ftq ++ [f] ∧
        f.words = [wb d.bytes 10 0 24 + e * 2 ^ 24 + bk * 2 ^ 27 + b01 r.2.nan * 2 ^ 28 + b01 r.2.inf * 2 ^ 29 + b01 (r.2.sats ≠ 0) * 2 ^ 30,
          wb d.bytes 11 0 16 + wb d.bytes 11 16 16 * 2 ^ 16,
          wb d.bytes 12 0 12 + l.format * 2 ^ 12 + wb d.bytes 12 12 6 * 2 ^ 16 + wb d.bytes 12 18 6 * 2 ^ 22,
          wb d.bytes 1 0 16 + wb d.bytes 0 16 16 * 2 ^ 16] ∧
        ((t.core c).engine e).bank bk = .empty ∧ (t.core c).regs = (s.core c).regs ∧ (t.core c).pc = (s.core c).pc ∧
        (t.core c).vregs = (s.core c).vregs) ∧
    (32 ≤ (s.core c).ftq.length → ∃ t, exec (.epilogue c e) s = .next t ∧ t.cores = s.cores ∧ t.mem = s.mem)

/-- R144, R146, R154, R155: PICK, once the item's descriptors have retired and it holds no Sluice tile, ends the item and makes the core
wait for an answer; a core with no stage entry gets KIND 3 at once. STEPEND, in the span after KIND 3, makes it wait for the step
boundary, and outside that span faults. Neither changes a register, nor scalar data memory below the scale table but for the pick
record. -/
def Obligations.PickAndStepend : Prop :=
  ∀ (s : State) (c : Nat) (rd : Reg), s.runs c = true →
    ((s.core c).item = none ∨ (s.core c).itemRetired = true) → (s.core c).itemHolds = false →
    (∀ e, s.stageOf c = some e → ∃ t, exec (.pick c rd) s = .next t ∧ (t.core c).waiting = .pick rd ∧ (t.core c).item = none ∧
      (t.core c).doneSpan = false ∧ (t.core c).run = .running ∧ (t.core c).pc = (s.core c).pc ∧ (t.core c).regs = (s.core c).regs ∧
      (∀ x, x < 0xF000 → rdByte (t.core c).sdm x = rdByte (s.core c).sdm x) ∧
      ∀ x, x ≠ c → t.core x = { s.core x with inflight := (t.core x).inflight }) ∧
    (s.stageOf c = none → GoesOn s c → ∃ t, exec (.pick c rd) s = .next t ∧ (t.core c).waiting = .none ∧ (t.core c).doneSpan = true ∧
      (t.core c).pc = (s.core c).pc + 1 ∧ rdByte (t.core c).sdm 0xED00 = 3 ∧
      ∀ q, (t.core c).reg q = if q = 0 then 0 else if q = rd then 3 else (s.core c).reg q) ∧
    ((s.core c).doneSpan = true → (s.core c).itemRetired = true → ∃ t, exec (.stepend c rd) s = .next t ∧
      (t.core c).waiting = .stepend rd ∧ (t.core c).item = none ∧ (t.core c).run = .running ∧ (t.core c).pc = (s.core c).pc ∧
      (t.core c).regs = (s.core c).regs ∧ (∀ x, x < 0xF000 → rdByte (t.core c).sdm x = rdByte (s.core c).sdm x) ∧
      ∀ x, x ≠ c → t.core x = { s.core x with inflight := (t.core x).inflight }) ∧
    ((s.core c).doneSpan = false → ∃ t, exec (.stepend c rd) s = .next t ∧ Faults s t c)

/-- R42, R52, R60, R144: a waiting pick is answered with the pick function's choice: KIND to RD and to the pick record at 0xED00, the item
and its block; an Oxbow entry leaves the Oxbow with its payload in the record; a first forward item enters the micro-batch's
in-flight record. With nothing allowed it goes on waiting. -/
def Obligations.PickAnswers : Prop :=
  ∀ (s : State) (c : Nat) (rd : Reg), (s.core c).run = .running → (s.core c).waiting = .pick rd → GoesOn s c →
    (∀ kind, (s.choose c = .done → kind = 3) → (∀ i, s.choose c = .oxbow i → kind = 2 ∧ i < (s.core c).oxbow.length) →
      (∀ m n, s.choose c = .backward m n → kind = 1 ∧ ((s.core c).flight m).isSome = true) →
      (∀ m n, s.choose c = .forward m n → kind = 0) → (∀ b, s.choose c ≠ .wait b) →
      ∃ t i, exec (.pickAnswer c) s = .next t ∧ (t.core c).waiting = .none ∧ (t.core c).pc = (s.core c).pc + 1 ∧
        (t.core c).item = some i ∧ i.kind.code = kind ∧ (t.core c).doneSpan = decide (kind = 3) ∧
        rdByte (t.core c).sdm 0xED00 = BitVec.ofNat 8 kind ∧
        (∀ q, (t.core c).reg q = if q = 0 then 0 else if q = rd then BitVec.ofNat 64 kind else (s.core c).reg q) ∧
        (∀ x, x < 0xED00 ∨ 0xED40 ≤ x → rdByte (t.core c).sdm x = rdByte (s.core c).sdm x) ∧
        (∀ j x, s.choose c = .oxbow j → (s.core c).oxbow[j]? = some x → x.payload.length = 32 →
          (t.core c).oxbow = (s.core c).oxbow.eraseIdx j ∧ i.mbId = x.mbId ∧ i.layer = x.layer ∧ i.version = x.version ∧
          ∀ k, k < 32 → rdByte (t.core c).sdm (0xED20 + k) = x.payload.getD k 0) ∧
        (∀ m n e r, s.choose c = .backward m n → s.stageOf c = some e → (s.core c).flight m = some r →
          i.mbId = m ∧ i.block = e.blocks - 1 - r.bwdDone ∧ i.version = r.version) ∧
        (∀ m n e r, s.choose c = .forward m n → s.stageOf c = some e → (s.core c).flight m = some r →
          i.mbId = m ∧ i.block = r.fwdDone ∧ i.version = r.version) ∧
        (∀ m n e, s.choose c = .forward m n → s.stageOf c = some e → (s.core c).flight m = none →
          i.mbId = m ∧ i.block = 0 ∧ ∃ r, (t.core c).flight m = some r ∧ r.n = n ∧ r.fwdDone = 0 ∧ r.version = i.version)) ∧
    ∀ b, s.choose c = .wait b → ∃ t, exec (.pickAnswer c) s = .next t ∧ t = { s with dict := t.dict, free := s.free + 1 }

/-- R52, R53, R56, R57: the pick function chooses a forward item only when no layer has a pending drain point with a queued entry, the
Oxbow is not full, every downstream side has credit, and, under the default policy, no backward item is allowed; under policy 1
the older of the two goes first. An Oxbow item is the oldest entry of its layer. -/
def Obligations.PickOrder : Prop :=
  ∀ (s : State) (c : Nat),
    (∀ m n, s.choose c = .forward m n → ∃ e, s.stageOf c = some e ∧ m = n % 65536 ∧ (s.core c).rank1 = none ∧
      (s.core c).oxbow.length < 256 ∧ s.forwardPick c e = some n ∧ s.forwardCredit c e = true ∧
      (s.obj 0x4001 4 ≠ 1 → s.backwardPick c e = none) ∧ ∀ x, s.backwardPick c e = some x → n < x) ∧
    (∀ m n, s.choose c = .backward m n → ∃ e, s.stageOf c = some e ∧ m = n % 65536 ∧ (s.core c).rank1 = none ∧
      (s.core c).oxbow.length < 256 ∧ s.backwardPick c e = some n) ∧
    (∀ i, s.choose c = .oxbow i → ∀ x, (s.core c).oxbow[i]? = some x →
      ∀ j y, j < i → (s.core c).oxbow[j]? = some y → y.layer ≠ x.layer) ∧
    (s.choose c = .done → s.stageOf c = none ∨ ∃ e, s.stageOf c = some e ∧ s.stepDone e = true) ∧
    ∀ b, s.choose c = .wait b → (s.core c).oxbow = []

/-- R39, R46, R48, R149: a SEND that is not refused has its header built, with the message index that its micro-batch has reached on the
side; it leaves once the side's credit covers its tiles, taking that credit, as header, CRC and payload on the stream's port;
until then nothing changes; and when its stream has gone to FAULT it completes with STREAM_FAULT and nothing is sent. -/
def Obligations.SendsAndCredit : Prop :=
  ∀ (s : State) (c i side : Nat) (v : Stream),
    (∀ d l, (s.core c).ready = none → (s.core c).sendQ.waiting = d :: l → wb d.bytes 0 0 8 = 1 → i = wb d.bytes 2 0 12 →
      side = wb d.bytes 2 12 1 → s.sendRefuse c d = none → s.coreStream c i = some v →
      (wb d.bytes 7 17 1 = 1 → ReadsClean (s.core c) [(wb d.bytes 3 0 24, wb d.bytes 7 0 17)]) →
      ∃ t r w, exec (.send c) s = .next t ∧ (t.core c).ready = some r ∧ r.desc = d ∧ r.stream = i ∧ r.side = side ∧
        r.tiles = wb d.bytes 2 14 4 + 1 ∧ wb r.header 0 0 16 = i + s.attempt * 4096 ∧ wb r.header 0 16 16 = wb d.bytes 1 0 16 ∧
        wb r.header 3 16 16 = mget 0 (v.side side).sent (wb d.bytes 1 0 16) % 65536 ∧ t.stream i = some w ∧
        mget 0 (w.side side).sent (wb d.bytes 1 0 16) = mget 0 (v.side side).sent (wb d.bytes 1 0 16) + 1 ∧
        (w.side side).credit = (v.side side).credit ∧ (t.core c).sendQ = (s.core c).sendQ ∧ t.out = s.out) ∧
    ∀ r, (s.core c).ready = some r → s.stream r.stream = some v →
      (v.fault = true → ∃ t, exec (.millraceMessageSend c) s = .next t ∧ t.out = s.out ∧ t.streams = s.streams ∧
        t = (s.onCore c (fun k => { k with ready := none })).failDesc c 4 r.desc 0x14 (detailField 2 0)) ∧
      (v.fault = false → ReadsClean (s.core c) [(wb r.desc.bytes 3 0 24, wb r.header 6 0 17)] → (v.side r.side).credit < r.tiles →
        exec (.millraceMessageSend c) s = .next s) ∧
      (v.fault = false → r.tiles ≤ (v.side r.side).credit → ∀ payload,
        ReadsClean (s.core c) [(wb r.desc.bytes 3 0 24, wb r.header 6 0 17)] →
        payload = rdBytes (s.core c).sram (wb r.desc.bytes 3 0 24) (wb r.header 6 0 17) →
        ∃ t w, exec (.millraceMessageSend c) s = .next t ∧ (t.core c).ready = none ∧ LeftQueue s t c 4 r.desc ∧
          t.out = s.out ++ [.millrace (v.record.portHere (r.side = 0)) (r.header ++ leBytes 4 (crc32 (r.header ++ payload)) ++ payload)] ∧
          t.stream r.stream = some w ∧ (w.side r.side).credit = (v.side r.side).credit - r.tiles ∧ (t.core c).sram = (s.core c).sram)

/-- R49, R54, R150: RECV writes the oldest accepted message's header to scalar data memory, with the first slot's offset in word 7, and
its tiles are then held; it waits while there is none. REL frees the COUNT oldest held tiles and returns their credit once 8 are
freed or the side is empty; the last of a closed micro-batch's backward tiles frees its entry. -/
def Obligations.ReceiveAndRelease : Prop :=
  ∀ (s : State) (c : Nat) (d : Desc) (l : List Desc) (v : Stream) (side m : Nat) (e : MbEntry), (s.core c).recvQ.waiting = d :: l →
    s.recvStream c d = .ok v → side = wb d.bytes 2 12 1 → m = wb d.bytes 1 0 16 → e = (v.side side).entry (mbIx m) →
    (wb d.bytes 0 0 8 = 1 → wb d.bytes 3 0 16 % 32 = 0 → v.liveFor side m = true →
      (e.arrived = [] → exec (.recv c) s = .next s) ∧
      ∀ a rest, e.arrived = a :: rest → ∃ t w, exec (.recv c) s = .next t ∧ LeftQueue s t c 5 d ∧
        t.stream (wb d.bytes 2 0 12) = some w ∧ ((w.side side).entry (mbIx m)).arrived = rest ∧
        ((w.side side).entry (mbIx m)).held = e.held ++ a.slots ∧ (w.side side).used = (v.side side).used ∧
        (t.core c).sdm = ((s.core c).tableWrite (wb d.bytes 3 0 16)
          (a.header.take 28 ++ leBytes 4 (v.record.slotAt side (a.slots.headD 0)))).sdm ∧
        (∀ i, (s.core c).item = some i → ∃ j, (t.core c).item = some j ∧ j.recvs = i.recvs.filter (fun x => x ≠ d.num) ∧
          mget 0 j.got (sideKey (wb d.bytes 2 0 12) side) = mget 0 i.got (sideKey (wb d.bytes 2 0 12) side) + a.slots.length) ∧
        (t.core c).regs = (s.core c).regs ∧ (t.core c).sram = (s.core c).sram) ∧
    (wb d.bytes 0 0 8 = 2 → v.liveFor side m = true → 0 < wb d.bytes 2 13 10 → wb d.bytes 2 13 10 ≤ 512 →
      wb d.bytes 2 13 10 ≤ e.held.length →
      ∃ t w, exec (.rel c) s = .next t ∧ LeftQueue s t c 5 d ∧ t.stream (wb d.bytes 2 0 12) = some w ∧
        (w.side side).used = (v.side side).used.filter (fun u => !(e.held.take (wb d.bytes 2 13 10)).contains u) ∧
        (8 ≤ (v.side side).freed + wb d.bytes 2 13 10 ∨ (w.side side).used = [] → (w.side side).freed = 0 ∧
          t.out = s.out ++ [.credit (v.record.portHere (side = 1)) (s.streamId (wb d.bytes 2 0 12)) side
            ((v.side side).freed + wb d.bytes 2 13 10)]) ∧
        ((v.side side).freed + wb d.bytes 2 13 10 < 8 → (w.side side).used ≠ [] →
          (w.side side).freed = (v.side side).freed + wb d.bytes 2 13 10 ∧ t.out = s.out) ∧
        (side = 1 ∧ e.lastIn = true ∧ e.held.length = wb d.bytes 2 13 10 ∧ e.arrived = [] →
          ((w.side side).entry (mbIx m)).live = false) ∧
        (side = 0 → ((w.side side).entry (mbIx m)).held = e.held.drop (wb d.bytes 2 13 10)))

/-- R42 to R46: an accepted message's tiles fill free slots of its side and its entry expects the next message; a late one changes no
slot, is counted and recorded; a message that a check faults puts its stream in FAULT with that check's event, and a stream in
FAULT accepts nothing. -/
def Obligations.MessageArrives : Prop :=
  ∀ (s : State) (c : Nat) (msg : List Byte) (i side ix : Nat) (v : Stream), s.part.hasCore c = true → i = wb msg 0 0 12 →
    side = wb msg 1 22 1 → ix = mbIx (wb msg 0 16 16) → s.stream i = some v →
    (s.arrival c msg = .accept → ∃ t w slots, exec (.millraceMessageReceive c msg) s = .next t ∧ t.stream i = some w ∧
      slots.length = headerTiles msg ∧ slots.Nodup ∧ (∀ x ∈ slots, x < v.record.slots side ∧ x ∉ (v.side side).used) ∧
      (∀ x, x ∈ (w.side side).used ↔ x ∈ (v.side side).used ∨ x ∈ slots) ∧ ((w.side side).entry ix).live = true ∧
      ((w.side side).entry ix).arrived = (if ((v.side side).entry ix).live then ((v.side side).entry ix).arrived else []) ++ [⟨msg.take 32, slots⟩] ∧
      (((v.side side).entry ix).live = true → ((w.side side).entry ix).rxNext = ((v.side side).entry ix).rxNext + 1) ∧
      (((v.side side).entry ix).live = false → ((w.side side).entry ix).rxNext = 1 ∧ ((w.side side).entry ix).version = wb msg 1 0 16) ∧
      (∀ j k, j < headerTiles msg → k < ((payloadTiles msg (msg.drop 32)).getD j []).length →
        rdByte (t.core c).sram (v.record.slotAt side (slots.getD j 0) + k) = ((payloadTiles msg (msg.drop 32)).getD j []).getD k 0) ∧
      (∀ e, e ≠ c → t.core e = s.core e) ∧
      t.core c = { s.core c with sram := (t.core c).sram, poison := (t.core c).poison, flips := (t.core c).flips }) ∧
    (s.arrival c msg = .late false → ∃ t, exec (.millraceMessageReceive c msg) s = .next t ∧ t.streams = s.streams ∧ t.cores = s.cores ∧
      t = (s.addObj 0xB104 c 32 1).event (streamEvent c 0x0206 .note msg 0)) ∧
    (s.arrival c msg = .late true → ∃ t w, exec (.millraceMessageReceive c msg) s = .next t ∧ t.cores = s.cores ∧ t.stream i = some w ∧
      (w.side side).used = (v.side side).used ∧ (w.side side).entries = (v.side side).entries ∧
      ((v.side side).freed + headerTiles msg < 8 → (v.side side).used ≠ [] →
        (w.side side).freed = (v.side side).freed + headerTiles msg)) ∧
    (∀ code d1, s.arrival c msg = .fault code d1 → ∃ (t u : State), exec (.millraceMessageReceive c msg) s = .next t ∧
      t = u.event (streamEvent c code .fault msg d1) ∧ u.stream i = some { v with fault := true } ∧ u.cores = s.cores) ∧
    (s.arrival c msg = .ignored ↔ v.fault = true) ∧
    (v.fault = true → exec (.millraceMessageReceive c msg) s = .next s)

/-- R50: a credit return of the stream's generation raises the sender's counter; one that would pass the side's capacity, or names a
side that this package does not send, puts the stream in FAULT with STREAM_CREDIT; one of another generation changes nothing; one
for no record is STREAM_UNKNOWN. -/
def Obligations.CreditReturns : Prop :=
  ∀ (s : State) (id side n : Nat),
    (s.stream (id % 4096) = none → exec (.creditReturnReceive id side n) s = .next (s.event { code := 0x0202, cls := .fault, d0 := id % 65536 })) ∧
    ∀ v, s.stream (id % 4096) = some v →
      (id / 4096 % 16 ≠ s.attempt → exec (.creditReturnReceive id side n) s = .next s) ∧
      (id / 4096 % 16 = s.attempt → v.record.txPkg side = s.position → (v.side side).credit + n ≤ v.record.slots side →
        ∃ t w, exec (.creditReturnReceive id side n) s = .next t ∧ t = { s with streams := t.streams } ∧ t.stream (id % 4096) = some w ∧
          (w.side side).credit = (v.side side).credit + n ∧ w.fault = v.fault ∧ w.side (1 - side) = v.side (1 - side) ∧
          ∀ j, j ≠ id % 4096 → t.stream j = s.stream j) ∧
      (id / 4096 % 16 = s.attempt → v.record.slots side < (v.side side).credit + n ∨ v.record.txPkg side ≠ s.position →
        ∃ (t u : State), exec (.creditReturnReceive id side n) s = .next t ∧ u.stream (id % 4096) = some { v with fault := true } ∧
          t = u.event { code := 0x0207, cls := .fault, die := v.record.txCore side / 16, core := v.record.txCore side % 16, d0 := id % 65536 })

/-- R57, R149, R219: a reduction send that is not refused leaves its queue: while its layer's run count is below the drain point it is
held; at the drain point it waits for lower tiles, or, when its first tile is the collective's next and no other waits, its tiles
are contributed, the collective's next tile moves past them, and it retires. RSEND_DRAIN_RELEASE does the same for the oldest held
send whose drain point is met. -/
def Obligations.ReductionSends : Prop :=
  ∀ (s : State) (c : Nat) (d : Desc) (m : Member), s.member (wb d.bytes 2 12 9) = some m → m.col.index = wb d.bytes 2 12 9 →
    (∀ l, (s.core c).ready = none → (s.core c).sendQ.waiting = d :: l → wb d.bytes 0 0 8 = 2 → s.rsendRefuse d.bytes = none →
      ((s.core c).drained (wb d.bytes 2 0 12) = false → ∃ t, exec (.rsend c) s = .next t ∧ OnlyCore c s t ∧
        (t.core c).drainHold = (s.core c).drainHold ++ [d] ∧ d.num ∈ (t.core c).sendQ.begun ∧
        (t.core c).sendQ.waiting = (s.core c).sendQ.waiting.filter (fun x => x.num ≠ d.num)) ∧
      ((s.core c).drained (wb d.bytes 2 0 12) = true → (s.coll m.col.index).next < s.rsendFirst m d.bytes →
        ∃ t, exec (.rsend c) s = .next t ∧ OnlyCoreDict c s t ∧ (t.core c).orderHold = (s.core c).orderHold ++ [d]) ∧
      ((s.core c).drained (wb d.bytes 2 0 12) = true → s.rsendFirst m d.bytes = (s.coll m.col.index).next → s.orderWaits = 0 →
        ReadsClean (s.core c) [(wb d.bytes 3 0 24, rsendLength d.bytes)] → (rsendTiles (s.core c) d.bytes).isSome = true →
        ∃ t, exec (.rsend c) s = .next t ∧ LeftQueue s t c 4 d ∧
          (t.coll m.col.index).next = s.rsendFirst m d.bytes + wb d.bytes 8 0 16 ∧ ∀ e, e ≠ c → t.core e = s.core e)) ∧
    ((s.core c).drainHold.find? (fun d => (s.core c).drained (wb d.bytes 2 0 12)) = some d → s.rsendRefuse d.bytes = none →
      s.rsendFirst m d.bytes = (s.coll m.col.index).next → s.orderWaits = 0 →
      ReadsClean (s.core c) [(wb d.bytes 3 0 24, rsendLength d.bytes)] → (rsendTiles (s.core c) d.bytes).isSome = true →
      ∃ t, exec (.rsendDrainRelease c) s = .next t ∧ (t.core c).drainHold = (s.core c).drainHold.filter (fun x => x.num ≠ d.num) ∧
        LeftQueue s t c 4 d ∧ (t.coll m.col.index).next = s.rsendFirst m d.bytes + wb d.bytes 8 0 16)

/-- R168, R169, R184: UPDATE_TILE_ARRIVE moves the oldest tile for a die into its arrival buffer while that holds fewer than 512;
UPDATE_TILE_APPLY discards a head tile of an unknown or frozen tensor or one already applied, with what its row records, holds
it unchanged where a row says so, keeps it waiting for a page in Backwater or behind a damaged line, and otherwise makes its
version PENDING and counts it applied; UFETCH holds the range's pages and retires once they are resident. -/
def Obligations.UpdateArrivals : Prop :=
  ∀ (s : State) (die : Nat) (g : GradTile) (l : List GradTile),
    (∀ i m, s.trib.deliver.findIdx? (fun p => p.1 = die) = some i → s.trib.deliver[i]? = some (die, g) →
      (s.unit die).buffer.length < 512 → s.dieUp die = true → s.member g.coll = m →
      ∃ t, exec (.updateTileArrive die) s = .next t ∧ (t.unit die).buffer = (s.unit die).buffer ++ [g] ∧
        t.trib.deliver = s.trib.deliver.eraseIdx i ∧ t.cores = s.cores ∧ t.mem = s.mem) ∧
    ((s.unit die).buffer = g :: l →
      (s.fate die g = .unknown → ∃ (t u : State), exec (.updateTileApply die) s = .next t ∧ (u.unit die).buffer = l ∧ u = { s with upd := u.upd } ∧
        t = u.event { code := 0x0301, cls := .fault, die := die, d0 := g.tensor, d1 := g.tile }) ∧
      (s.fate die g = .overrun → ∃ (t u : State), exec (.updateTileApply die) s = .next t ∧ (u.unit die).buffer = l ∧ u = { s with upd := u.upd } ∧
        t = u.event { code := 0x0302, cls := .fault, die := die, d0 := g.tensor, d1 := g.tile }) ∧
      (∀ r, s.fate die g = .frozen r → ∃ t, exec (.updateTileApply die) s = .next t ∧ (t.unit die).buffer = l ∧
        t.obj 0x5033 die = (s.obj 0x5033 die + 1) % 2 ^ 64 ∧ t.mem = s.mem ∧ t.job.vote = (s.job.vote || gradNonFinite r g)) ∧
      (s.fate die g = .held ∨ s.fate die g = .noVersion → exec (.updateTileApply die) s = .next s) ∧
      (∀ ps, s.fate die g = .miss ps → ∃ t, exec (.updateTileApply die) s = .next t ∧ (t.unit die).buffer = g :: l ∧
        t.cores = s.cores ∧ t.mem.cells = s.mem.cells) ∧
      (∀ a, (∃ tier, s.fate die g = .ue a tier) ∨ s.fate die g = .refused a → ∃ t, exec (.updateTileApply die) s = .next t ∧
        t.upd = s.upd ∧ t.mem = s.mem) ∧
      (∀ r v, s.fate die g = .apply r v → (∀ p ∈ s.piecesOf (tileState r g.tile), PieceSound s (.update die) p) → (s.freshenAll die (s.piecesOf (tileWrites r g.tile))).isSome = true →
        ∃ t, exec (.updateTileApply die) s = .next t ∧ (t.unit die).buffer = l ∧ t.vtable (trStage r) (trVariant r) = v ∧
          (v.any (fun x => x.st = .pending)) = true ∧ 2 ^ 32 * g.tensor + g.tile ∈ (t.unit die).applied ∧
          mget 0 (t.unit die).dealt g.tensor = mget 0 (s.unit die).dealt g.tensor + 1 ∧
          (gradNonFinite r g = true → t.job.vote = true) ∧ t.cores = s.cores)) ∧
    ∀ c d ds home r ps, (s.core c).updQ.waiting = d :: ds → s.ufetchTarget c d.bytes = .ok (home, r) →
      ps = s.ufetchPieces r (wd d.bytes 3) (wd d.bytes 4) →
      (trRule r = 0 → ∃ t, exec (.ufetch c) s = .next t ∧ LeftQueue s t c 6 d ∧ OnlyCore c s t) ∧
      (trRule r ≠ 0 → (∀ p ∈ ps, s.pieceWaits (.update home) p = false) → ∃ t, exec (.ufetch c) s = .next t ∧ LeftQueue s t c 6 d ∧
        (∀ p ∈ ps, ∀ pg, t.page p.key = some pg → pg.held = true) ∧ t.mem.cells = s.mem.cells) ∧
      (trRule r ≠ 0 → (∃ p ∈ ps, s.pieceWaits (.update home) p = true) → ∃ t, exec (.ufetch c) s = .next t ∧ t.cores = s.cores ∧
        ∀ p ∈ ps, ∀ pg, t.page p.key = some pg → pg.held = true)

/-- R176 to R178: a program starts when its tensor is the first of its home core that waits, none runs on that core, and the core is
idle or waits in STEPEND with nothing left to send; it ends, once its pages are resident and fresh, with its tensor no longer
running and its vote given; one whose descriptors found an engine of the home core lost is abandoned with a vote to skip. The end
is stated for programs that no residue mismatch meets: which cells mismatch is free (assumption 189). -/
def Obligations.SequencerPrograms : Prop :=
  ∀ (s : State) (die tensor : Nat) (r : TensorRec), s.tensor die tensor = some r →
    ((s.unit die).waiting.find? (fun x => match s.tensor die x with | some y => trHome y = trHome r | none => false) = some tensor →
      (∀ x ∈ (s.unit die).running, ∀ y, s.tensor die x = some y → trHome y ≠ trHome r) → (s.core (trHome r)).sequencerReady = true →
      s.obj 0x4103 die + trHome r * s.obj 0x4104 die + scratchBytes r ≤ s.tieredLimit →
      (∀ u : State, u = { s with free := s.free + 2 }.onCore (trHome r) (fun k => k.sramWrite (s.obj 0x4102 1) (freeRun (1024 * s.obj 0x4102 2) s.free)) →
        (u.writeTiered (.core (trHome r)) (s.obj 0x4103 die + trHome r * s.obj 0x4104 die) (freeRun (scratchBytes r) (s.free + 1))).isSome = true) →
      ∃ t, exec (.sequencerProgramStart die tensor) s = .next t ∧ (t.unit die).running = (s.unit die).running ++ [tensor] ∧
        tensor ∉ (t.unit die).waiting ∧ (t.core (trHome r)).regs = (s.core (trHome r)).regs ∧
        ∀ e, e ≠ trHome r → t.core e = s.core e) ∧
    ((s.unit die).running.contains tensor = true → programFaults s.free = [] → (∀ e, e < 8 → s.engineLost (trHome r) e = false) →
      (∀ p ∈ s.piecesOf (programExtents r), PieceSound s (.update die) p ∧ ∀ y q, p.tile = some (y, q) → s.locked y = false) →
      (s.freshenAll die (s.piecesOf (programExtents r))).isSome = true →
      ∃ t, exec (.sequencerProgramEnd die tensor) s = .next t ∧ tensor ∉ (t.unit die).running ∧ t.cores = s.cores ∧
        ∀ u h p, u = { s with free := s.free + 1 } → h = ((u.freshenAll die (u.piecesOf (programExtents r))).getD u).stateRead die (trBase r 8) 64 →
          p = h.2.program die r (wd h.1 3) → p.1.nf = true → t.job.vote = true) ∧
    ((s.unit die).running.contains tensor = true → programFaults s.free = [] → (∀ e, e < 8 → s.engineLost (trHome r) e = false) →
      (∃ p ∈ s.piecesOf (programExtents r), s.pieceWaits (.update die) p = true) →
      ∃ t, exec (.sequencerProgramEnd die tensor) s = .next t ∧ t.upd = s.upd ∧ t.mem.cells = s.mem.cells) ∧
    ((s.unit die).running.contains tensor = true → programFaults s.free = [] → (∃ e, e < 8 ∧ s.engineLost (trHome r) e = true) →
      ∃ t, exec (.sequencerProgramEnd die tensor) s = .next t ∧ tensor ∉ (t.unit die).running ∧ t.job.vote = true ∧
        t.cores = s.cores ∧ t.mem = s.mem)

/-- R221, R224, R225: a ring message of ready tiles inside the neighbour's window leaves on the port to that neighbour and its tiles
leave the phase; an arriving message is refused, counted as late, or taken: a window base only rises, and an arriving chain tile
waits for this package's contribution or is added to it and made ready for the next hop. -/
def Obligations.RingMessages : Prop :=
  ∀ (s : State) (m : Member) (x dir port : Nat), m.col.index = x → s.member x = some m → s.job.left = false →
    (∀ i a l, dir < 2 → m.col.op ≠ 3 → carried (s.coll x) dir (s.coll x).chainOut = (i, a) :: l → s.portTo (m.ring.getD (m.hop m.me dir) 0) = some port →
      ∃ t msg rest, exec (.tributaryMessageSend x 0 dir) s = .next t ∧ t.out = s.out ++ .tributary port msg :: rest ∧
        wd msg 1 = i % 2 ^ 32 ∧ i ∈ (t.coll x).chainFin ∧ mget none (t.coll x).chainOut i = none ∧ t.cores = s.cores ∧ t.mem = s.mem) ∧
    (∀ msg, (s.tribCheck msg = .crc → exec (.tributaryMessageReceive port msg) s = .next (s.event { code := 0x0605, cls := .fault, d0 := port })) ∧
      (s.tribCheck msg = .route → exec (.tributaryMessageReceive port msg) s =
        .next (s.event { code := 0x0606, cls := .fault, d0 := wb (msg.take 32) 0 0 12 })) ∧
      (s.tribCheck msg = .late → exec (.tributaryMessageReceive port msg) s =
        .next ((s.addObj 0xB110 1 64 1).event { code := 0x0607, cls := .note, d0 := wb (msg.take 32) 0 0 12 }))) ∧
    (∀ msg h, h = msg.take 32 → wb h 0 0 12 = x → s.tribCheck msg = .window m →
      ∃ t, exec (.tributaryMessageReceive port msg) s = .next t ∧ t = { s with trib := t.trib } ∧
        ∀ w, w = windowDir (wb h 4 10 1) →
          mget 0 (t.coll x).peer w = Nat.max (mget 0 (s.coll x).peer w) (wd h 1)) ∧
    ∀ msg h i, h = msg.take 32 → wb h 0 0 12 = x → wb h 0 12 3 = 0 → s.tribCheck msg = .tiles m → messageTiles h = [i] →
      (s.coll x).fits 0 i = true → m.col.op ≠ 3 →
      (mget none (s.coll x).own i = none → ∃ t a, exec (.tributaryMessageReceive port msg) s = .next t ∧
        mget none (t.coll x).chainIn i = some a ∧ a.data = msg.drop 32 ∧ t.cores = s.cores ∧ t.mem = s.mem) ∧
      (∀ o, mget none (s.coll x).own i = some o → m.owns i = false → m.first i = false → 1 < m.n →
        ∃ t a, exec (.tributaryMessageReceive port msg) s = .next t ∧ mget none (t.coll x).chainOut i = some a ∧
          a.data = addTiles (msg.drop 32) o.data ∧ a.nf = (decide (wb h 0 15 1 = 1) || o.nf) ∧
          mget none (t.coll x).own i = none ∧ mget none (t.coll x).chainIn i = none ∧ t.cores = s.cores ∧ t.mem = s.mem)

/-- R179, R181, R231, R394: once the step's reductions are applied the vote report goes to the group master, once; a master that
has every report of a step sends its group's report to its parent or, at the root, VERDICT to every position below: SKIP where
any vote bit is set, with the halt flag where SKIP_RUN would reach SKIP_HALT_LIMIT. -/
def Obligations.VoteReports : Prop :=
  ∀ (s u : State) (r : NapReq) (x : Vote) (l : List Vote),
    (s.job.st = 1 → s.job.left = false → s.job.voted = false → s.job.verdict = none → s.stepApplied = true →
      ∃ t, exec .voteReportSend s = .next t ∧ t.job = { s.job with voted := true } ∧ t.cores = s.cores ∧ t.mem = s.mem ∧
        Sends s t s.master 1 (voteValue s.job.step s.position s.job.vote false s.mbLog)) ∧
    (FromBelow s r 1 u → voteOk (valueOf s r) = true → u.job.st = 1 → x.step = stepOf (valueOf s r) → x.sender = wb (valueOf s r) 2 0 12 →
      x.vote = decide (wb (valueOf s r) 2 12 1 = 1) → x.entries = (List.range (wb (valueOf s r) 3 0 16)).map (fun i => wd (valueOf s r) (4 + i)) →
      u.cas.decided < x.step → (∀ y ∈ u.cas.votes, ¬ (y.step = x.step ∧ y.sender = x.sender)) → l = voteIns x u.cas.votes →
      ((∃ p ∈ u.reporters, ∀ y ∈ l, y.step = x.step → y.sender ≠ p) →
        ∃ t, exec (.voteReport r) s = .next t ∧ Done { u with cas := { u.cas with votes := l } } t r) ∧
      ((∀ p ∈ u.reporters, ∃ y ∈ l, y.step = x.step ∧ y.sender = p) → ∃ t v, exec (.voteReport r) s = .next t ∧ Done v t r ∧
        v.cas.decided = x.step ∧
        (u.isRoot = false → Sends u v u.parent 1 (voteValue x.step u.position
          ((l.filter (fun y => y.step = x.step)).any (fun y => y.vote)) true ((l.filter (fun y => y.step = x.step)).flatMap (fun y => y.entries)))) ∧
        (u.isRoot = true → NoneHeld u → ∀ p ∈ u.below false, ∀ skip, skip = (l.filter (fun y => y.step = x.step)).any (fun y => y.vote) →
          Sends u v p 2 (verdictValue x.step skip (skip && decide (u.obj 0x4020 1 ≠ 0) && decide (u.obj 0x4020 1 ≤ u.obj 0x4020 2 + 1))))))

/-- R59, R179, R180, R231: a package acts once on the verdict of its step. SKIP returns every PENDING version slot to FREE, counts
the skipped step and records STEP_SKIPPED; APPLY makes PENDING slots CURRENT and ends the run of skips. A child master passes the
verdict on. -/
def Obligations.Verdicts : Prop :=
  ∀ (s u : State) (r : NapReq), FromAbove s r 2 u → atLeast 12 (valueOf s r) = true →
    (u.isMaster = true → u.isRoot = false → NoneHeld u → ∃ t v, exec (.verdict r) s = .next t ∧ Done v t r ∧
      ∀ p ∈ u.below false, Sends u v p 2 (valueOf s r)) ∧
    (u.job.st = 1 → stepOf (valueOf s r) = u.job.step → u.job.verdict = none →
      (wb (valueOf s r) 2 0 1 = 1 → ∃ (t v w : State), exec (.verdict r) s = .next t ∧ Done v t r ∧
        v = w.record { code := 0x0304, cls := .note, d0 := u.mbLog.length } ∧
        w.job = { u.job with verdict := some true, haltAfter := decide (wb (valueOf s r) 2 1 1 = 1) } ∧
        (∀ st va, w.vtable st va = freePending (u.vtable st va)) ∧ w.obj 0x4020 2 = (u.obj 0x4020 2 + 1) % 2 ^ 16 ∧
        w.obj 0x4020 3 = (u.obj 0x4020 3 + 1) % 2 ^ 32 ∧ w.obj 0x4020 4 = u.job.step ∧ w.cores = u.cores) ∧
      (wb (valueOf s r) 2 0 1 = 0 → ∃ (t v : State), exec (.verdict r) s = .next t ∧ Done v t r ∧
        v.job = { u.job with verdict := some false, haltAfter := decide (wb (valueOf s r) 2 1 1 = 1) } ∧
        (∀ st va, v.vtable st va = applyVersion (u.vtable st va)) ∧ v.obj 0x4020 2 = 0 ∧ v.cores = u.cores ∧
        v.mem = { u.mem with past := v.mem.past })) ∧
    (u.isMaster = false → u.job.st ≠ 1 ∨ stepOf (valueOf s r) ≠ u.job.step ∨ u.job.verdict ≠ none →
      ∃ t, exec (.verdict r) s = .next t ∧ Done u t r)

/-- R90, R146, R182, R236: with no substitution due, a package whose step is applied and decided passes the step's boundary: the next
step begins without vote or verdict and with the micro-batch counter moved on; with the halt flag the job halts; else, where nothing
else waits for the boundary, every core's STEPEND returns the new step. -/
def Obligations.StepBoundaries : Prop :=
  ∀ (s : State), s.job.st = 1 → s.job.left = false → s.job.verdict ≠ none → s.stepApplied = true → s.trib.layout = false →
    s.dueCores = [] →
    ∃ t, exec .stepBoundary s = .next t ∧ t.job.step = s.job.step + 1 ∧ t.job.mbBase = s.job.mbBase + s.perStep ∧
      t.job.vote = false ∧ t.job.voted = false ∧ t.job.verdict = none ∧ t.job.committed = s.job.committed ∧
      (s.job.haltAfter = true → t.job.st = 2 ∧ t.job.haltAfter = false) ∧
      (s.job.haltAfter = false → s.weir.st ≠ .pending → s.weir.replays = [] → s.load = [] → s.ckpt.due = none → s.layoutPending = false →
        s.cas.ending = none → (s.cores.map Prod.fst).Nodup → t.job.st = 1 ∧
        ∀ c rd, (s.core c).run = .running → (s.core c).waiting = .stepend rd → GoesOn s c → (t.core c).waiting = .none ∧
          (t.core c).run = .running ∧ (t.core c).pc = (s.core c).pc + 1 ∧ (t.core c).layers = [] ∧
          (t.core c).score = (s.core c).score - (s.core c).score / 8 ∧
          ∀ q, (t.core c).reg q = if q = 0 then 0 else if q = rd then BitVec.ofNat 64 (s.job.step + 1) else (s.core c).reg q)

/-- R237, R238, R263: a COMMIT_READY is held until every report that a master awaits for the step has come; then a child master
reports for its group, and the root writes STEP_COMMIT, to its deputy first. STEP_COMMIT of a later step commits it with an entry in
the commit journal; one of a committed step leaves COMMITTED_STEP and the journal as they are. -/
def Obligations.StepCommits : Prop :=
  ∀ (s u : State) (r : NapReq) (x : Nat × Nat) (l : List (Nat × Nat)), atLeast 12 (valueOf s r) = true → x = (stepOf (valueOf s r), wb (valueOf s r) 2 0 12) →
    (FromBelow s r 9 u → u.job.committed < x.1 → u.job.st = 1 ∨ u.job.st = 2 → x ∉ u.cas.readies → l = u.cas.readies ++ [x] →
      ((∃ p ∈ u.reporters, (x.1, p) ∉ l) →
        ∃ t, exec (.commitReady r) s = .next t ∧ Done { u with cas := { u.cas with readies := l } } t r) ∧
      ((∀ p ∈ u.reporters, (x.1, p) ∈ l) → ∃ t v, exec (.commitReady r) s = .next t ∧ Done v t r ∧
        v.cas.readies = l.filter (fun y => y.1 ≠ x.1) ∧
        (u.isRoot = false → Sends u v u.parent 9 (commitReadyValue x.1 u.position true)) ∧
        (u.isRoot = true → ∀ p, (u.below false).head? = some p →
          Sends u v p 0x0A (stepCommitValue x.1 (u.cas.skipped.contains x.1))))) ∧
    (FromAbove s r 0x0A u → u.job.st = 1 ∨ u.job.st = 2 → u.job.committed < x.1 → u.nv.journal.length ≤ 65536 → ∃ t v, exec (.stepCommit r) s = .next t ∧ Done v t r ∧
      v.job.committed = x.1 ∧ v.job.step = u.job.step ∧
      v.nv.journal.getLast? = some (journalEntry x.1 (u.obj 0x4035 1) u.job.attempt (decide (wb (valueOf s r) 2 0 1 = 1))) ∧
      v.nv.journal.length = Nat.min 65536 (u.nv.journal.length + 1)) ∧
    (FromAbove s r 0x0A u → x.1 ≤ u.job.committed → ∃ t v, exec (.stepCommit r) s = .next t ∧ Done v t r ∧
      v.job.committed = u.job.committed ∧ v.nv.journal = u.nv.journal)

/-- R228, R394: PERMUTE_DONEs of the attempt are held until every one that a master awaits has come; then a child master reports for
its group, and the root writes LAYOUT_COMMIT to every position below, spares included. On LAYOUT_COMMIT in the layout phase the
generation takes force, the attempt advances, every version table starts anew with version 0 CURRENT and the phase ends. -/
def Obligations.LayoutChanges : Prop :=
  ∀ (s u : State) (r : NapReq),
    (FromBelow s r 3 u → atLeast 8 (valueOf s r) = true → ∀ p l, p = wb (valueOf s r) 1 16 12 → l = u.cas.permDone ++ [p] →
      (u.job.st ≠ 1 ∨ wb (valueOf s r) 1 0 4 ≠ u.job.attempt % 16 ∨ wd (valueOf s r) 0 ≠ u.obj 0x4034 1 ∨ p ∈ u.cas.permDone →
        ∃ t, exec (.permuteDone r) s = .next t ∧ Done u t r) ∧
      (u.job.st = 1 → wb (valueOf s r) 1 0 4 = u.job.attempt % 16 → wd (valueOf s r) 0 = u.obj 0x4034 1 → p ∉ u.cas.permDone →
        ((∃ q ∈ u.reporters, q ∉ l) →
          ∃ t, exec (.permuteDone r) s = .next t ∧ Done { u with cas := { u.cas with permDone := l } } t r) ∧
        ((∀ q ∈ u.reporters, q ∈ l) → ∃ t v, exec (.permuteDone r) s = .next t ∧ Done v t r ∧ v.cas.permDone = [] ∧
          (u.isRoot = false → Sends u v u.parent 3 (permuteDoneValue (wd (valueOf s r) 0) u.job.attempt u.position true)) ∧
          (u.isRoot = true → ∀ q ∈ u.below true, Sends u v q 4 (wordsLE [wd (valueOf s r) 0]))))) ∧
    (FromAbove s r 4 u → atLeast 4 (valueOf s r) = true →
      (u.isSpare = true → ∃ t v, exec (.layoutCommit r) s = .next t ∧ Done v t r ∧ v.obj 0x4035 1 = wd (valueOf s r) 0) ∧
      (u.isSpare = false → u.job.st = 1 → u.trib.layout = true → wd (valueOf s r) 0 = u.obj 0x4034 1 → u.ckpt.due = none →
        ∃ t v, exec (.layoutCommit r) s = .next t ∧ Done v t r ∧ v.trib.layout = false ∧ v.job.attempt = (u.job.attempt + 1) % 16 ∧
          v.job.step = u.job.step ∧ ∀ st va, v.vtable st va = oneVersion))

/-- R231 to R233: every cascade command of an older MASTER_EPOCH than its receiver's changes nothing. Heartbeats go where R232 says with
the epoch and ROOT_LIVE; a child master takes ROOT_LIVE from its parent. A member missed by its master is lost and named in a
FAULT_REPORT; a child group missed a second time, or the root missed, halts the job. A deputy takes over in a new epoch; a package
obeys the deputy that tells it so; a spare adopts the position that TAKEOVER gives it, and carries no traffic until its ports' peers
pass R215. -/
def Obligations.Masters : Prop :=
  ∀ (s u : State) (r : NapReq) (p : Nat),
    (s.power.phase = .run → s.job.left = false →
      (∃ t, exec .heartbeatSend s = .next t ∧ t.cas = s.cas ∧ t.job = s.job ∧ ∀ q ∈ s.heartbeatTo,
        Sends s t q 5 (leBytes 4 (s.obj 0x4035 3 % 2 ^ 31 + b01 s.rootLive * 2 ^ 31))) ∧
      (s.isMaster = true → p ∈ s.liveMembers → ∃ (t w : State), exec (.heartbeatTimeout p) s = .next t ∧ p ∈ w.cas.lost ∧ w.job = s.job ∧
        LastEvent s w { code := 0x0608, cls := .note, d0 := p } ∧
        t = w.command s.upward 0x4040 8 (faultReportValue s.job.attempt s.position 0x0608 p)) ∧
      (s.isMaster = true → p ∉ s.liveMembers → p ∈ s.childMasters → p ∉ s.cas.lost → p ∈ positionsOf (s.blob 0x4030 7) →
        exec (.heartbeatTimeout p) s = .next { s with cas := { s.cas with lost := sIns s.cas.lost p } }) ∧
      (s.isMaster = true → p ∉ s.liveMembers → p ∈ s.childMasters → p ∈ s.cas.lost →
        ∃ t, exec (.heartbeatTimeout p) s = .next t ∧ JobHalts s t 0x0609 0) ∧
      (s.isRoot = false → s.job.st = 1 ∨ s.job.st = 3 → ∃ t, exec .rootLossHalt s = .next t ∧ JobHalts s t 0x0609 0) ∧
      (s.obj 0x4030 4 = s.position → s.isMaster = false → s.isSpare = false → ∃ t, exec .deputyTakeover s = .next t ∧
        t.isMaster = true ∧ t.obj 0x4035 3 = (s.obj 0x4035 3 + 1) % 2 ^ 31 ∧ s.master ∈ t.cas.lost ∧ t.job = s.job ∧
        (∀ q ∈ s.liveMembers, q ≠ s.master → Sends s t q 7 (leBytes 4 ((s.obj 0x4035 3 + 1) % 2 ^ 31))) ∧
        (s.obj 0x4030 5 ≠ 0xFFFF → Sends s t s.parent 7 (leBytes 4 ((s.obj 0x4035 3 + 1) % 2 ^ 31))) ∧
        (s.obj 0x4030 5 = 0xFFFF → s.job.st = 3 → t.cas.rolling = some ⟨s.job.step - 1, s.job.attempt % 16, []⟩))) ∧
    (∀ c ∈ cascadeCommands, Ready s r 0x4040 c.2.1 u → c.2.2 u r = true → c.2.1 < 0x16 → r.epoch < u.obj 0x4035 3 →
      ∃ t, exec (c.1 r) s = .next t ∧ (Done u t r ∨ Answers u t r 4 0 [])) ∧
    (Cascades s r 5 fromTree u → atLeast 4 (valueOf s r) = true → ∃ t, exec (.heartbeat r) s = .next t ∧
      Done { u with cas := { u.cas with rootLive := u.cas.rootLive ||
        (decide (u.obj 0x4035 3 ≤ wb (valueOf s r) 0 0 31) && u.isMaster && !u.isRoot && decide (r.source = some u.parent) && decide (wb (valueOf s r) 0 31 1 = 1)) } } t r) ∧
    (Cascades s r 7 fromDeputy u → atLeast 4 (valueOf s r) = true → r.source = some p →
      (wb (valueOf s r) 0 0 31 < u.obj 0x4035 3 → ∃ t, exec (.takeoverMaster r) s = .next t ∧ Done u t r) ∧
      (u.obj 0x4035 3 ≤ wb (valueOf s r) 0 0 31 → ∃ t v, exec (.takeoverMaster r) s = .next t ∧ Done v t r ∧
        v.obj 0x4035 3 = wb (valueOf s r) 0 0 31 ∧ v.job = u.job ∧ v.cores = u.cores ∧
        (p = u.obj 0x4030 4 → p ∈ u.groupMembers → v.master = p) ∧
        (p ≠ u.obj 0x4030 4 → u.isRoot = true → v.cas.kids = some (sIns u.childMasters p)) ∧
        (p ≠ u.obj 0x4030 4 → u.isRoot = false → v.parent = p))) ∧
    (FromAbove s r 6 u → atLeast 4124 (valueOf s r) = true →
      (u.isSpare = false → ∃ t, exec (.takeover r) s = .next t ∧ Done u t r) ∧
      (u.isSpare = true → ∃ t v, exec (.takeover r) s = .next t ∧ Done v t r ∧ v.position = wb (valueOf s r) 0 0 12 ∧ v.isSpare = false ∧
        v.holder = wb (valueOf s r) 0 16 16 ∧ (∀ n, n < u.part.ports → v.obj 0x7020 n = wd (valueOf s r) (1 + n)) ∧
        v.blob 0x7021 0 = ((valueOf s r).drop 28).take 4096 ∧ v.job.st = 3 ∧ v.buddy.arriving = some [] ∧
        v.cas.adopting = !v.peersPass))

/-- R239: a fault report that names the root's attempt starts one rollback to the committed step in the next attempt, written to every
position below; a stale one changes nothing; a child master passes each report on unchanged. -/
def Obligations.FaultReports : Prop :=
  ∀ (s u : State) (r : NapReq) (lost : Nat), FromBelow s r 8 u → atLeast 8 (valueOf s r) = true → lost = wb (valueOf s r) 1 16 16 →
    (u.isRoot = false → ∃ t v, exec (.faultReport r) s = .next t ∧ Done v t r ∧ v.job = u.job ∧ v.cores = u.cores ∧
      Sends u v u.parent 8 (valueOf s r)) ∧
    (u.isRoot = true → lost ∉ u.childMasters → wb (valueOf s r) 0 0 4 ≠ u.job.attempt % 16 → wb (valueOf s r) 0 0 4 ≠ u.rootAttempt →
      ∃ t, exec (.faultReport r) s = .next t ∧ Done u t r) ∧
    (u.isRoot = true → lost ∉ u.childMasters → wb (valueOf s r) 0 0 4 = u.job.attempt % 16 → u.cas.rolling = none → u.rollable = true →
      ∀ R, R = (⟨u.job.committed, (u.job.attempt + 1) % 16, if lost = 0xFFFF then [] else [lost]⟩ : Rollback) →
      ∃ t v, exec (.faultReport r) s = .next t ∧ Done v t r ∧ v.cas.rolling = some R ∧ v.job = u.job ∧
        ∀ p ∈ u.below true, Sends u v p 0x0B (rollbackValue R.target R.attempt R.lost))

/-- R161, R225, R240: a running package that acts on ROLLBACK(T, A) restarts every core, discards what followed T, stands before T + 1
in attempt A with JOB_STATE 3 and reports itself ready; a spare keeps the step and the attempt. -/
def Obligations.Rollbacks : Prop :=
  ∀ (s u : State) (r : NapReq) (T A : Nat), FromAbove s r 0x0B u → rollbackOk (valueOf s r) = true → T = stepOf (valueOf s r) → A = wb (valueOf s r) 2 0 4 →
    (u.isSpare = true → ∃ t v, exec (.rollback r) s = .next t ∧ Done v t r ∧ v.job.step = T + 1 ∧ v.job.attempt = A ∧ v.job.committed = T) ∧
    (u.isSpare = false → u.job.st = 1 → u.dueCores = [] → (∀ c ∈ u.buddy.copies, c.source ∉ rollbackLost (valueOf s r)) →
      u.isMaster = false ∨ rollbackLost (valueOf s r) = [] → u.isMaster = false ∨ u.cas.lost = [] →
      u.trib.layout = false ∨ u.cas.layoutFails < 2 →
      ∃ (t v w : State), exec (.rollback r) s = .next t ∧ Done v t r ∧ v.job.step = T + 1 ∧ v.job.attempt = A ∧ v.job.st = 3 ∧
        v.job.committed = Nat.max u.job.committed T ∧ v.job.verdict = none ∧ v.job.vote = false ∧ v.obj 0x8005 3 = T ∧
        (∀ c, (v.core c).run = .idle ∧ (v.core c).waiting = .none ∧ (v.core c).ftq = [] ∧
          ∀ q, q < 7 → ((v.core c).queue q).waiting = []) ∧
        v = w.command w.master 0x4040 0x0C (restartReadyValue A w.position w.job.committed false))

/-- R240, R242, R250, R251, R300: a RESTART_READY that counts is held until every one that a master awaits has come; then a child
master reports for its group, and the root writes RESTART for the step after the rollback's or, for a halted job, the ROLLBACK to
the highest step reported. RESTART has a rolled-back package go on with every image's core at its ENTRY, or stay halted where a cut
holds it, resumes a job that a cut held, starts a job where none runs, and changes nothing on a spare or a job that runs. JOB_START
and JOB_END act at the root alone, as the job's state says. -/
def Obligations.Restarts : Prop :=
  ∀ (s u : State) (r : NapReq),
    (FromBelow s r 0x0C u → atLeast 12 (valueOf s r) = true → ∀ l,
      l = (u.cas.restarts.filter (fun x => x.1 ≠ wb (valueOf s r) 0 16 12)) ++ [(wb (valueOf s r) 0 16 12, fld (valueOf s r) 4 8)] →
      (u.readyCounts (wb (valueOf s r) 0 0 4) = false → ∃ t, exec (.restartReady r) s = .next t ∧ Done u t r) ∧
      (u.readyCounts (wb (valueOf s r) 0 0 4) = true →
        ((∃ p ∈ u.reporters, ∀ x ∈ l, x.1 ≠ p) →
          ∃ t, exec (.restartReady r) s = .next t ∧ Done { u with cas := { u.cas with restarts := l } } t r) ∧
        ((∀ p ∈ u.reporters, ∃ x ∈ l, x.1 = p) → ∃ t v, exec (.restartReady r) s = .next t ∧ Done v t r ∧ v.cas.restarts = [] ∧
          v.job = u.job ∧
          (u.isRoot = false → Sends u v u.parent 0x0C (restartReadyValue u.job.attempt u.position (lowestOf l) true)) ∧
          (∀ R, u.isRoot = true → u.cas.rolling = some R → v.cas.rolling = none ∧
            ∀ p ∈ u.below false, Sends u v p 0x0D (restartValue (R.target + 1) R.attempt)) ∧
          (∀ R, u.isRoot = true → u.cas.rolling = none → R = (⟨highestOf l, (u.job.attempt + 1) % 16, []⟩ : Rollback) →
            v.cas.rolling = some R ∧ ∀ p ∈ u.below true, Sends u v p 0x0B (rollbackValue R.target R.attempt []))))) ∧
    (FromAbove s r 0x0D u → atLeast 12 (valueOf s r) = true → ∀ step attempt, step = stepOf (valueOf s r) → attempt = wb (valueOf s r) 2 0 4 →
      (u.isSpare = true → ∃ t v, exec (.restart r) s = .next t ∧ Done v t r ∧ v.job = u.job ∧ v.cores = u.cores) ∧
      (u.isSpare = false → u.job.st = 1 ∨ (u.job.st = 3 ∧ attempt ≠ u.job.attempt % 16) →
        ∃ t v, exec (.restart r) s = .next t ∧ Done v t r ∧ v.job = u.job ∧ v.cores = u.cores) ∧
      (u.isSpare = false → u.job.st = 3 → attempt = u.job.attempt % 16 → u.ckpt.held = true →
        ∃ t v, exec (.restart r) s = .next t ∧ Done v t r ∧ v.job = { u.job with st := 2 } ∧
          ∀ c, (u.core c).image ≠ [] → v.core c = { u.core c with run := .halted }) ∧
      (u.isSpare = false → u.layoutPending = false → u.ckpt.noticed = none →
        (u.job.st = 3 → attempt = u.job.attempt % 16 → u.ckpt.held = false →
          ∃ t v, exec (.restart r) s = .next t ∧ Done v t r ∧ v.job = { u.job with st := 1 } ∧
            ∀ c, v.core c = if u.dieUp (c / 16) then (u.core c).start u.job.step else u.core c) ∧
        (u.job.st = 2 → u.ckpt.held = true → step = u.job.step →
          ∃ t v, exec (.restart r) s = .next t ∧ Done v t r ∧ v.job = { u.job with st := 1 } ∧ v.ckpt.held = false ∧
            ∀ c, (u.core c).image ≠ [] → v.core c = if u.dieUp (c / 16) then (u.core c).restart.start u.job.step else (u.core c).restart)) ∧
      (u.isSpare = false → u.job.st = 0 ∨ (u.job.st = 2 ∧ (u.ckpt.held = false ∨ step ≠ u.job.step)) →
        ∃ t v, exec (.restart r) s = .next t ∧ Done v t r ∧ v.job.st = 1 ∧ v.job.step = step ∧ v.job.attempt = attempt ∧
          v.job.mbBase = 0 ∧ v.job.committed = step - 1 ∧ v.obj 0x8005 2 = 0 ∧ v.obj 0x4020 3 = 0)) ∧
    (OwnerWrites s r 0x4002 1 u → ∀ busy, busy = decide (u.job.st = 1 ∨ u.job.st = 3 ∨ u.commitWaits = true) →
      (busy = true → ∃ t, exec (.jobStart r) s = .next t ∧ Answers u t r 8 0 []) ∧
      (busy = false → leNat (valueOf s r) ≠ 1 ∨ u.isRoot = false → ∃ t, exec (.jobStart r) s = .next t ∧ Answers u t r 4 0 []) ∧
      (busy = false → leNat (valueOf s r) = 1 → u.isRoot = true →
        ∃ t v, exec (.jobStart r) s = .next t ∧ Done v t r ∧ v.job = u.job ∧ v.cores = u.cores ∧
          ∀ p ∈ u.below false, Sends u v p 0x0D (restartValue (u.job.restored.getD 0 + 1) 0))) ∧
    (OwnerWrites s r 0x4002 2 u →
      (leNat (valueOf s r) ≠ 1 ∨ u.isRoot = false → ∃ t, exec (.jobEnd r) s = .next t ∧ Answers u t r 4 0 []) ∧
      (leNat (valueOf s r) = 1 → u.isRoot = true →
        (u.job.st = 0 → ∃ t, exec (.jobEnd r) s = .next t ∧ Done u t r) ∧
        (u.job.st = 2 → ∃ t v, exec (.jobEnd r) s = .next t ∧ Done v t r ∧ v.job.st = 0 ∧ v.job.step = u.job.step) ∧
        (u.job.st = 1 ∨ u.job.st = 3 → ∃ t, exec (.jobEnd r) s = .next t ∧
          Done { u with cas := { u.cas with ending := some u.job.step } } t r)))

/-- R210, R243 to R247, R376: a drain sends its next page to the holder, but none with a lost line, and, after the last, the record
that ends the image; a takeover transfer goes first, each stripe on its port. A holder asks again for a record whose CRC fails,
keeps each good page in a Backwater frame, or lets it wait for one with BUDDY_FULL, completes the image with its last record once
no record is missing and acknowledges it; the newest acknowledged image opens the commit gate, and a holder that tells that it lost
the copy (the value is the model's choice, assumption 200) makes a full drain due. A spare asks again too, keeps arriving pages and,
with the whole image, reports itself ready. -/
def Obligations.BuddyReplication : Prop :=
  ∀ (s u : State) (r : NapReq) (g : PageRecord) (source : Nat),
    (s.power.phase = .run → s.job.left = false →
      (∀ step k ks config rest p b, s.buddy.transfer = none → s.job.st ≠ 3 → s.buddy.queue = (step, k :: ks, config) :: rest → s.page k = some p →
        b = { s.buddy with queue := (step, ks, config) :: rest } →
        (({ s with buddy := b } : State).judgePage step k = (false, { s with buddy := b }) →
          ∃ t l, exec .buddyPageSend s = .next t ∧ t.buddy = b ∧ t.mem = s.mem ∧
            t.out = s.out ++ l ∧ .bkg s.holder 3 (pageRecord step (k / 2) (k % 2) (s.keyTiles k) (s.pageAtStep k step)) ∈ l) ∧
        ∀ w, ({ s with buddy := b } : State).judgePage step k = (true, w) → exec .buddyPageSend s = .next w) ∧
      (∀ step config rest, s.buddy.transfer = none → s.job.st ≠ 3 → s.buddy.queue = (step, [], config) :: rest →
        ∃ t l, exec .buddyPageSend s = .next t ∧ t.buddy = { s.buddy with queue := rest } ∧ t.out = s.out ++ l ∧
          .bkg s.holder 3 (pageRecord step 0 2 0 config) ∈ l) ∧
      (∀ p step n y rest others config, s.buddy.transfer = some ⟨p, step, (n, y :: rest) :: others, config⟩ →
        ∃ t l, exec .buddyPageSend s = .next t ∧
          t.buddy = { s.buddy with transfer := some ⟨p, step, if rest = [] then others else others ++ [(n, rest)], config⟩ } ∧
          t.out = s.out ++ l ∧ .bkg p 3 (pageRecord step y.address (b01 y.tile) y.count y.bytes) ∈ l) ∧
      (∀ p step config, s.buddy.transfer = some ⟨p, step, [], config⟩ → ∃ t l, exec .buddyPageSend s = .next t ∧
        t.buddy = { s.buddy with transfer := none } ∧ t.out = s.out ++ l ∧ .bkg p 3 (pageRecord step 0 2 0 config) ∈ l) ∧
      (s.buddy.transfer = none → s.job.st = 3 ∨ s.buddy.queue = [] → exec .buddyPageSend s = .next s)) ∧
    (s.job.left = false → ∀ w c asked, w = s.retryHeld → c = w.copyOf source → asked = c.asked.filter (fun x => x ≠ pageAsk g) →
      (pageGood g = false → ∃ t, exec (.buddyPageReceive source g) s = .next t ∧ t.out = w.out ++ [.resend source g.step g.address (pageKind g)] ∧
        pageAsk g ∈ (t.copyOf source).asked ∧ (t.copyOf source).images = c.images ∧ t.mem = w.mem) ∧
      (pageGood g = true → (∃ x ∈ w.buddy.held, x.1 = source) → exec (.buddyPageReceive source g) s =
        .next { w with buddy := { w.buddy with held := w.buddy.held ++ [(source, g)] } }) ∧
      (pageGood g = true → (∀ x ∈ w.buddy.held, x.1 ≠ source) →
        (g.lastPage = false → w.allocIn tierBw (sectorsOf g.bytes.length) 0 = none → ∃ t, exec (.buddyPageReceive source g) s = .next t ∧
          t.buddy = { w.buddy with held := w.buddy.held ++ [(source, g)] } ∧ t.mem = w.mem ∧
          LastEvent w t { code := 0x0704, cls := .degraded, d0 := source }) ∧
        (∀ f v c1, g.lastPage = false → w.allocIn tierBw (sectorsOf g.bytes.length) 0 = some (f, v) → c1 = { c with
            asked := asked,
            coming := some (g.step, pageIns ⟨g.address, g.tilePage, g.tileCount, g.bytes, f⟩ (c.comingAt g.step)) } →
          (asked ≠ [] ∨ c.ending = none → ∃ t, exec (.buddyPageReceive source g) s = .next t ∧ t = { v with buddy := t.buddy } ∧
            t.copyOf source = c1) ∧
          ∀ config, asked = [] → c.ending = some config → ∃ t, exec (.buddyPageReceive source g) s = .next t ∧
            ImageComplete v t source g.step c1 config) ∧
        (g.lastPage = true → c.broken = false ∨ g.config ≠ [] →
          (asked = [] → ∃ t, exec (.buddyPageReceive source g) s = .next t ∧ ImageComplete w t source g.step c g.config) ∧
          (asked ≠ [] → ∃ t, exec (.buddyPageReceive source g) s = .next t ∧ t = { w with buddy := t.buddy } ∧
            t.copyOf source = { c with asked := asked, ending := some g.config })) ∧
        (g.lastPage = true → c.broken = true → g.config = [] → ∃ t, exec (.buddyPageReceive source g) s = .next t ∧
          t = { w with buddy := t.buddy } ∧ t.copyOf source = { c with coming := none, asked := [], ending := none }))) ∧
    (Cascades s r 0x13 fromHolder u → atLeast 8 (valueOf s r) = true → ∀ n, n = fld (valueOf s r) 0 8 →
      (n = imageLost → ∃ t, exec (.buddyAck r) s = .next t ∧ Done (u.fullDrain u.applied) t r) ∧
      (n ≠ imageLost → n ≤ u.applied → (∀ e ∈ u.buddy.queue, n < e.1) → u.hasImage = false ∨ u.obj 0x8006 3 < n →
        ∃ t v, exec (.buddyAck r) s = .next t ∧ Done v t r ∧ v.obj 0x8006 3 = n ∧ v.obj 0x8006 4 = u.applied - n) ∧
      (n ≠ imageLost → u.applied < n ∨ (∃ e ∈ u.buddy.queue, e.1 ≤ n) ∨ (u.hasImage = true ∧ n ≤ u.obj 0x8006 3) →
        ∃ t, exec (.buddyAck r) s = .next t ∧ Done u t r)) ∧
    (s.buddy.arriving = none → exec (.takeoverPageReceive g) s = .next s) ∧
    (∀ l asked, s.buddy.arriving = some l → asked = s.buddy.asked.filter (fun x => x ≠ pageAsk g) →
      (pageGood g = false → ∃ t, exec (.takeoverPageReceive g) s = .next t ∧ t.buddy.arriving = some l ∧ pageAsk g ∈ t.buddy.asked ∧
        t.out = s.out ++ [.resend s.position g.step g.address (pageKind g)] ∧ t.mem = s.mem) ∧
      (pageGood g = true → g.lastPage = false →
        (asked ≠ [] ∨ s.buddy.ending = none → ∃ t, exec (.takeoverPageReceive g) s = .next t ∧
          t.buddy = { s.buddy with
            asked := asked,
            arriving := some (pageIns ⟨g.address, g.tilePage, g.tileCount, g.bytes, ⟨tierBw, 0, 0⟩⟩ l) } ∧ t.mem = s.mem ∧
          t.obj 0x8006 6 = (s.obj 0x8006 6 + g.bytes.length) % 2 ^ 64) ∧
        (asked = [] → s.buddy.ending ≠ none → ∃ (t w : State), exec (.takeoverPageReceive g) s = .next t ∧ w.buddy.arriving = none ∧
          t = w.sayRestart)) ∧
      (pageGood g = true → g.lastPage = true →
        (asked = [] → ∃ (t w : State), exec (.takeoverPageReceive g) s = .next t ∧ w.buddy.arriving = none ∧ t = w.sayRestart) ∧
        (asked ≠ [] → ∃ t, exec (.takeoverPageReceive g) s = .next t ∧ t.mem = s.mem ∧
          t.buddy = { s.buddy with asked := asked, ending := some (g.step, g.config) })))

/-- R248 to R250, R386: a Freshet by pin (low for 10 µs, once for each 10 µs high), by the owner or by notice sets FRESHET_STATE 1,
goes to the master with its halt flag, and at the root fixes the cut step, which CUT_AT takes down the tree; while one is in
progress another only joins it. CUT_AT joins too, and has a package take the cut once it has applied the step and no more; a spare
takes none. JOB_RESUME has the root go on after a halting cut, and CKPT_ABORT fails the open cut. -/
def Obligations.Freshets : Prop :=
  ∀ (s u : State) (r : NapReq) (ns : Nat),
    (exec (.freshetNRelease ns) s = .next (if 10000 ≤ ns then { s with power := { s.power with freshetArmed := true } } else s)) ∧
    (ns < 10000 ∨ s.power.freshetArmed = false ∨ s.power.phase ≠ .run → exec (.freshetNAssert ns) s = .next s) ∧
    (s.power.phase = .run → s.power.freshetArmed = true → 10000 ≤ ns → ∀ halt, halt = decide (s.obj 0x8001 2 = 1) →
      ∃ t, exec (.freshetNAssert ns) s = .next t ∧ FreshetArrives s t halt ∧ t.power = { s.power with freshetArmed := false } ∧
        (s.isRoot = false → Sends s t s.upward 0x0E (wordsLE [s.position + b01 halt * 2 ^ 16]))) ∧
    (OwnerWrites s r 0x8001 1 u → ∀ halt, halt = bitOf (leNat (valueOf s r)) 0 →
      ∃ t v, exec (.freshet r) s = .next t ∧ Done v t r ∧ FreshetArrives u v halt ∧
        (u.isRoot = false → Sends u v u.upward 0x0E (wordsLE [u.position + b01 halt * 2 ^ 16]))) ∧
    (FromBelow s r 0x0E u → atLeast 4 (valueOf s r) = true →
      ∃ t v, exec (.freshetNotice r) s = .next t ∧ Done v t r ∧ FreshetArrives u v (decide (wb (valueOf s r) 0 16 1 = 1)) ∧
        (u.isRoot = false → Sends u v u.parent 0x0E (valueOf s r))) ∧
    (FromAbove s r 0x0F u → atLeast 12 (valueOf s r) = true → ∀ step slot flag halt going, step = stepOf (valueOf s r) →
      slot = wb (valueOf s r) 2 8 1 → flag = decide (wb (valueOf s r) 2 0 1 = 1) →
      going = decide (1 ≤ u.obj 0x8001 3 ∧ u.obj 0x8001 3 ≤ 3) → halt = ((going && u.ckpt.halt) || flag) →
      (u.isMaster = true → u.isRoot = false → ∃ t v, exec (.cutAt r) s = .next t ∧ Done v t r ∧
        ∀ p ∈ u.below false, Sends u v p 0x0F (valueOf s r)) ∧
      (u.isSpare = true ∨ u.ckpt.cut ≠ none → ∃ t v, exec (.cutAt r) s = .next t ∧ Done v t r ∧ v.ckpt.halt = halt ∧
        v.ckpt.due = u.ckpt.due ∧ v.ckpt.cut = u.ckpt.cut ∧ v.job = u.job) ∧
      (u.isSpare = false → u.ckpt.cut = none → ¬ CutDueNow u step → ∃ t v, exec (.cutAt r) s = .next t ∧ Done v t r ∧
        v.ckpt.due = some (step, halt, slot) ∧ v.ckpt.halt = halt ∧ v.ckpt.cut = none ∧ v.job = u.job ∧
        v.obj 0x8001 3 = (if going then u.obj 0x8001 3 else 1) ∧
        v.obj 0x8001 4 = (if going ∧ r.source ≠ some u.position then (u.obj 0x8001 4 + 1) % 2 ^ 32 else u.obj 0x8001 4)) ∧
      (u.isSpare = false → u.ckpt.cut = none → CutDueNow u step → ∃ t v c, exec (.cutAt r) s = .next t ∧ Done v t r ∧
        v.ckpt.due = none ∧ v.ckpt.cut = some c ∧ c.step = step ∧ c.slot = slot ∧ v.obj 0x8004 1 = step ∧
        v.obj 0x8001 3 = 2 ∧ (halt = true → u.job.st = 1 → v.job.st = 2 ∧ v.ckpt.held = true))) ∧
    (OwnerWrites s r 0x8001 5 u →
      (u.isRoot = false → ∃ t, exec (.jobResume r) s = .next t ∧ Answers u t r 4 0 []) ∧
      (u.isRoot = true → u.job.st ≠ 2 ∨ u.ckpt.held = false → ∃ t, exec (.jobResume r) s = .next t ∧ Done u t r) ∧
      (u.isRoot = true → u.job.st = 2 → u.ckpt.held = true → ∃ t v, exec (.jobResume r) s = .next t ∧ Done v t r ∧ v.job = u.job ∧
        ∀ p ∈ u.below false, Sends u v p 0x0D (restartValue (u.applied + 1) u.job.attempt))) ∧
    (OwnerWrites s r 0x8001 6 u →
      (∀ c, u.ckpt.cut = some c → c.done = false → ∃ (t v w : State), exec (.ckptAbort r) s = .next t ∧ Done v t r ∧
        w = { u with ckpt := { u.ckpt with cut := some { c with done := true } } } ∧ v = w.cutResult c.step 7) ∧
      (u.ckpt.cut = none ∨ (∃ c, u.ckpt.cut = some c ∧ c.done = true) → ∃ t, exec (.ckptAbort r) s = .next t ∧ Done u t r))

/-- R210, R253, R254, R257, R258: a shard without a lost line is written to a destination and read back; one that comes back as it was
is verified there, another is written again, and the third failure fails the cut, as does a holder without a frame. With every shard
verified and the step committed the manifest is written and read back, and with the last destination's CKPT_DONE is written; a
package without its manifest key fails the cut. The root commits the checkpoint once every position has reported,
or aborts it at the first failure; the first abort of a Freshet has the cut taken again. -/
def Obligations.Checkpoints : Prop :=
  ∀ (s u : State) (r : NapReq) (c : Cut) (h : Shard) (dest n : Nat) (back : DmaRead),
    (s.ckpt.cut = some c → c.done = false → c.shards[n]? = some h →
      (c.goes dest = true → dest ∉ h.written → dest ∉ h.verified → ∀ ps, ps = h.extents.flatMap (fun e => s.access e.1 e.2) →
        (s.judgePieces c.step ps = (false, s) → ∃ t c2 h2 l, exec (.shardWriteComplete dest n) s = .next t ∧
          t.ckpt.cut = some c2 ∧ c2 = { c with shards := c2.shards } ∧ c2.shards[n]? = some h2 ∧ dest ∈ h2.written ∧ t.out = s.out ++ l ∧
          (dest = 0 → .hostWrite (c.hostAt + h.offset) h.bytes ∈ l) ∧ (dest = 1 → .bkg s.holder 4 h.bytes ∈ l)) ∧
        ∀ w, s.judgePieces c.step ps = (true, w) → exec (.shardWriteComplete dest n) s = .next w) ∧
      (dest ∈ h.written → dmaBytes back = some h.bytes → sha3 h.payload = (h.header.drop 80).take 32 → h.header.length = 128 →
        ∃ t c2 h2, exec (.shardReadbackComplete dest n back) s = .next t ∧ t.ckpt.cut = some c2 ∧ c2.shards[n]? = some h2 ∧
          dest ∈ h2.verified ∧ dest ∉ h2.written) ∧
      (dest = 1 → dest ∈ h.written → dmaBytes back = none → ∃ t, exec (.shardReadbackComplete dest n back) s = .next t ∧
        t.ckpt.cut = some { c with done := true } ∧
        Sends s t s.master 0x10 (wordsLE [c.step % 2 ^ 32, c.step / 2 ^ 32, s.position + 7 * 2 ^ 24])) ∧
      (dest ∈ h.written → dest ≠ 1 ∨ dmaBytes back ≠ none → (∀ b, dmaBytes back = some b → h.matches b = false) → ∃ t c2 h2, exec (.shardReadbackComplete dest n back) s = .next t ∧
        t.ckpt.cut = some c2 ∧ c2.shards[n]? = some h2 ∧ dest ∉ h2.written ∧ h2.verified = h.verified ∧
        (mget 0 h.fails dest + 1 < 3 → c2.done = false ∧ t.obj 0x8004 3 = (s.obj 0x8004 3 + 1) % 2 ^ 32) ∧
        (3 ≤ mget 0 h.fails dest + 1 → c2.done = true))) ∧
    (s.ckpt.cut = some c → c.done = false → c.goes dest = true → c.sure = true → dest ∉ c.manifests →
      (∀ x ∈ c.shards, dest ∈ x.verified) →
      (s.hasKey 1 = false → ∃ t, exec (.manifestWrite dest back) s = .next t ∧ t.ckpt.cut = some { c with done := true }) ∧
      (s.hasKey 1 = true → dmaBytes back = some (s.manifest c) → ∃ t c2 l, exec (.manifestWrite dest back) s = .next t ∧ t.ckpt.cut = some c2 ∧
        dest ∈ c2.manifests ∧ (c2.done = true ↔ ∀ d ∈ c.destList, d = dest ∨ d ∈ c.manifests) ∧ t.out = s.out ++ l ∧
        (dest = 0 → .hostWrite c.hostAt (s.manifest c) ∈ l) ∧
        (c2.done = true → Sends s t s.master 0x10 (wordsLE [c.step % 2 ^ 32, c.step / 2 ^ 32, s.position]))) ∧
      (s.hasKey 1 = true → dmaBytes back ≠ some (s.manifest c) → ∃ t c2, exec (.manifestWrite dest back) s = .next t ∧ t.ckpt.cut = some c2 ∧ c2.done = true)) ∧
    (FromBelow s r 0x10 u → atLeast 12 (valueOf s r) = true →
      (u.isRoot = false → ∃ t v, exec (.ckptDone r) s = .next t ∧ Done v t r ∧ Sends u v u.parent 0x10 (valueOf s r)) ∧
      (u.isRoot = true → stepOf (valueOf s r) = u.obj 0x8004 1 → u.ckpt.cut = some c → (∀ x ∈ u.cas.ckptDone, x.2 = 0) →
        (wb (valueOf s r) 2 24 8 ≠ 0 → ∃ t v, exec (.ckptDone r) s = .next t ∧ Done v t r ∧
          ∀ p ∈ u.below false, Sends u v p 0x12 (stepFlagValue (stepOf (valueOf s r)) 0)) ∧
        (wb (valueOf s r) 2 24 8 = 0 → ∀ l, l = (u.cas.ckptDone.filter (fun x => x.1 ≠ wb (valueOf s r) 2 0 12)) ++ [(wb (valueOf s r) 2 0 12, 0)] →
          (l.length < u.jobPositions → ∃ t, exec (.ckptDone r) s = .next t ∧ Done { u with cas := { u.cas with ckptDone := l } } t r) ∧
          (u.jobPositions ≤ l.length → ∃ t v, exec (.ckptDone r) s = .next t ∧ Done v t r ∧
            ∀ p ∈ u.below false, Sends u v p 0x11 (stepFlagValue (stepOf (valueOf s r)) c.slot))))) ∧
    (FromAbove s r 0x11 u → atLeast 12 (valueOf s r) = true → ∃ t v, exec (.ckptCommit r) s = .next t ∧ Done v t r ∧
      v.obj 0x8004 4 = stepOf (valueOf s r) ∧ v.obj 0x8004 5 = wb (valueOf s r) 2 0 1 ∧
      v.obj 0x8001 3 = (if u.isSpare then 0 else 4) ∧ v.ckpt.cut = (if u.isSpare then u.ckpt.cut else none)) ∧
    (FromAbove s r 0x12 u → atLeast 12 (valueOf s r) = true → ∃ t v, exec (.ckptAbortJob r) s = .next t ∧ Done v t r ∧
      v.cas.aborts = u.cas.aborts + 1 ∧ v.ckpt.cut = none ∧ v.obj 0x8001 3 = (if u.cas.aborts = 0 then 1 else 5)) ∧
    (∀ bs f w, s.allocIn tierBw (sectorsOf bs.length) 0 = some (f, w) → (∀ k ∈ s.ckpt.kept, k.position ≠ n) →
      ∃ t, exec (.ckptShardReceive n bs) s = .next t ∧ t = { w with ckpt := t.ckpt } ∧
        t.ckpt = { s.ckpt with kept := s.ckpt.kept ++ [⟨n, s.slotFor bs, keptNumber bs, bs, f⟩] }) ∧
    (∀ bs, s.allocIn tierBw (sectorsOf bs.length) 0 = none → (∀ k ∈ s.ckpt.kept, k.position ≠ n) →
      exec (.ckptShardReceive n bs) s = .next ((s.record { code := 0x0703, cls := .degraded, d0 := 1 }).emit (.kept n false))) ∧
    (OwnerWrites s r 0x8007 3 u → ∀ ps, ps = slotParts (u.ckpt.kept.filter (fun k => k.position = fld (valueOf s r) 0 2 && k.slot = fld (valueOf s r) 2 1)) →
      ((valueOf s r).length ≠ 20 ∨ ps = [] ∨ (∃ p ∈ ps, fld (valueOf s r) 12 8 < p.1 + p.2.length) →
        ∃ t, exec (.ckptExport r) s = .next t ∧ Answers u t r 4 0 []) ∧
      ((valueOf s r).length = 20 → ps ≠ [] → (∀ p ∈ ps, p.1 + p.2.length ≤ fld (valueOf s r) 12 8) → ∃ t v l, exec (.ckptExport r) s = .next t ∧
        Done v t r ∧ v = { u with out := u.out ++ l } ∧ ∀ p ∈ ps, .hostWrite (fld (valueOf s r) 4 8 + p.1) p.2 ∈ l))

/-- R160, R161, R226, R260, R261, R371: a load set that checks takes effect at once where no job runs, else it waits; one that fails
leaves every core alone and is named by LOAD_STATUS. A restore reads its list and both slots of each entry, writes the highest
candidate step and reports; the root commits or retries; a commit makes the restored step the committed one. -/
def Obligations.LoadsAndRestores : Prop :=
  ∀ (s u : State) (r : NapReq) (bs : List Byte) (x : Restore) (n : Nat),
    (OwnerWrites s r 0x4010 1 u → u.load = [] →
      (u.loadFail (bs.take (u.pf0Reg 0x10 - leNat (valueOf s r))) = none → ∃ t v, exec (.loadCommand r (.data bs)) s = .next t ∧ Done v t r ∧
        v.obj 0x4010 2 = 0 ∧
        (u.job.st = 1 ∨ u.job.st = 3 → v.load = bs.take (u.pf0Reg 0x10 - leNat (valueOf s r)) ∧ v.cores = u.cores) ∧
        (u.job.st = 0 ∨ u.job.st = 2 → ∀ i ∈ (loadSetOf (bs.take (u.pf0Reg 0x10 - leNat (valueOf s r)))).1, ∀ c ∈ i.cores, i.desc = false →
          (v.core c).run = .idle)) ∧
      (∀ e, u.loadFail (bs.take (u.pf0Reg 0x10 - leNat (valueOf s r))) = some e → ∃ t v, exec (.loadCommand r (.data bs)) s = .next t ∧ Done v t r ∧
        v.obj 0x4010 2 = e.1 + e.2 % 2 ^ 24 * 2 ^ 8 ∧ v.cores = u.cores ∧ v.load = [])) ∧
    (OwnerWrites s r 0x4010 1 u → u.load ≠ [] → ∃ t, exec (.loadCommand r (.data bs)) s = .next t ∧ Answers u t r 8 0 []) ∧
    (OwnerWrites s r 0x8007 1 u →
      (u.job.st = 1 ∨ u.job.st = 3 → ∃ t, exec (.restoreCommand r (.data bs)) s = .next t ∧ Answers u t r 8 0 []) ∧
      (u.job.st ≠ 1 → u.job.st ≠ 3 → u.restore = none → ∀ b, b = bs.take (u.pf0Reg 0x10 - leNat (valueOf s r)) →
        (b.length < 16 + 24 * wd b 0 → ∃ t v, exec (.restoreCommand r (.data bs)) s = .next t ∧ Done v t r ∧ v.obj 0x8007 2 = 4 ∧ v.restore = none) ∧
        (16 + 24 * wd b 0 ≤ b.length → ∃ t v l y, exec (.restoreCommand r (.data bs)) s = .next t ∧ Done v t r ∧ v.restore = some y ∧
          y.requested = fld b 8 8 ∧ y.images = [] ∧ y.entries.length = wd b 0 ∧ v.out = u.out ++ l ∧
          ∀ e ∈ y.entries, .hostRead e.2.1 128 ∈ l ∧ .hostRead e.2.2 128 ∈ l))) ∧
    (s.restore = some x → x.images = [] → x.reported = false → ∀ slots l, l = slots.filter (fun i => x.entries.any (fun e => e.1 = i.position)) →
      (∀ i ∈ l, ∃ b, i.image = .data b) →
      (({ x with images := l } : Restore).choose (s.oldManifests { x with images := l }) = none → ∃ t, exec (.restoreReadsComplete slots) s = .next t ∧
        t.restore = none ∧ t.obj 0x8007 2 = 7 ∧ t.mem = s.mem) ∧
      (({ x with images := l } : Restore).choose (s.oldManifests { x with images := l }) = some n → ∃ (t v : State) (y : Restore) (res : Nat),
        exec (.restoreReadsComplete slots) s = .next t ∧ v.restore = some y ∧ y.chosen = some n ∧ y.reported = true ∧ v.job = s.job ∧
        t = v.command v.master 0x4040 0x14 (wordsLE (stepWords n ++ [v.position + res * 2 ^ 24])))) ∧
    (FromBelow s r 0x14 u → atLeast 12 (valueOf s r) = true → n = stepOf (valueOf s r) →
      (u.isRoot = false → ∃ t v, exec (.restoreReady r) s = .next t ∧ Done v t r ∧ Sends u v u.parent 0x14 (valueOf s r)) ∧
      (u.isRoot = true → (∀ y ∈ u.cas.restoreReady, y.1 / 4096 = n → y.2 = 0) → wb (valueOf s r) 2 24 8 ≠ 0 → ∃ t v, exec (.restoreReady r) s = .next t ∧
        Done v t r ∧ ∀ p ∈ u.below false, Sends u v p 0x15 (stepFlagValue n 1)) ∧
      (u.isRoot = true → u.cas.restoreReady = [] → wb (valueOf s r) 2 24 8 = 0 →
        (u.jobPositions ≤ 1 → ∃ t v, exec (.restoreReady r) s = .next t ∧ Done v t r ∧ ∀ p ∈ u.below false, Sends u v p 0x15 (stepFlagValue n 0)) ∧
        (1 < u.jobPositions → ∃ t, exec (.restoreReady r) s = .next t ∧
          Done { u with cas := { u.cas with restoreReady := [(n * 4096 + wb (valueOf s r) 2 0 12, 0)] } } t r))) ∧
    (FromAbove s r 0x15 u → atLeast 12 (valueOf s r) = true → u.restore = some x → n = stepOf (valueOf s r) →
      (wb (valueOf s r) 2 0 1 = 0 → x.chosen = some n → ∃ t v, exec (.restoreCommit r) s = .next t ∧ Done v t r ∧ v.restore = none ∧
        v.job.committed = n ∧ v.job.step = n + 1 ∧ v.job.restored = some n ∧ v.obj 0x8007 2 = 0) ∧
      (wb (valueOf s r) 2 0 1 = 1 → x.chosen ≠ some n → ∃ t v, exec (.restoreCommit r) s = .next t ∧ Done v t r ∧
        v.restore = some { x with failed := sIns x.failed n }))

/-- R264 to R275, R299: READ answers the object's value, in segments with its value version for a BLOB; ENUM names the next object;
WRITE stages the owner's value, does what the object's own command does, or is refused by the first outcome that applies; a
mailbox write queues the frame in its slot. A command between positions is refused with NOT_OWNER from any other sender, and a segment
that does not complete its value is only kept. The live objects and MEM_RELEASE act as their rules say. -/
def Obligations.Dictionary : Prop :=
  ∀ (s w u : State) (r : NapReq) (o : ObjRow),
    (∀ b e, TakenUp s r b → FreshRequest b r → w = b.addObj 0xB200 1 64 1 → r.opcode = 1 → ¬ (r.index = 0x2005 ∧ r.sub = 1) →
      (w.gate r = some e → ∃ t, exec (.read r) s = .next t ∧ Answers w t r e.1 e.2 []) ∧
      (w.gate r = none → w.objGate r = .error e → ∃ t, exec (.read r) s = .next t ∧ Answers w t r e.1 e.2 [])) ∧
    (Gated s r o w → r.opcode = 1 → r.index ≠ 0x2005 →
      (o.acs ≠ .staged → o.ty ≠ .blob → o.ty ≠ .str → w.unmeasured r.index r.sub = false →
        ∃ t, exec (.read r) s = .next t ∧ Answers w t r 0 0 (leBytes o.ty.size (w.scalarShown r))) ∧
      (∀ n, o.acs = .staged → w.stagedShown r = .scalar n → ∃ t, exec (.read r) s = .next t ∧ Answers w t r 0 0 (leBytes o.ty.size n)) ∧
      (o.acs ≠ .staged → o.ty = .blob → r.offset ≤ (w.blobShown r.index r.sub).length → ∃ t v, exec (.read r) s = .next t ∧
        v.blob r.index r.sub = w.blobShown r.index r.sub ∧
        Answers v t r 0 (mget 0 v.blobVer (objKey r.index r.sub)) (((w.blobShown r.index r.sub).drop r.offset).take 1024) ∧
        (w.blob r.index r.sub = w.blobShown r.index r.sub → v = w))) ∧
    (Served s r w → r.opcode = 0 ∨ 5 < r.opcode → ∃ t, exec (.read r) s = .next t ∧ Answers w t r 3 0 []) ∧
    (∀ k, Served s r w → r.opcode = 5 → nextKey (objKey r.index r.sub) = some k → objRow (k / 256) (k % 256) = some o →
      ∃ t, exec (.enumObject r) s = .next t ∧
        Answers w t r 0 (o.acs.code + b01 (!o.present w.part (k / 256) (k % 256)) * 16) [] ∧
        ∃ f, .nap r.carrier f ∈ t.out.drop w.out.length ∧ wb f 3 0 16 = k / 256 ∧ wb f 3 16 8 = k % 256 ∧ wb f 3 24 4 = o.ty.code) ∧
    (Served s r w → r.opcode = 5 → nextKey (objKey r.index r.sub) = none → ∃ t, exec (.enumObject r) s = .next t ∧ Answers w t r 2 0 []) ∧
    (∀ act, writeMeaning r.index r.sub = some act → r.opcode = 2 → exec (.write r) s = act r s) ∧
    (Gated s r o w → r.opcode = 2 → writeMeaning r.index r.sub = none → windowObject r.index r.sub = false → o.acs = .staged →
      (w.isOwner r = false → ∃ t, exec (.write r) s = .next t ∧ Answers w t r 1 w.ownerSession []) ∧
      (w.isOwner r = true → w.fenced o r.sub = false → w.weir.busy = true → ∃ t, exec (.write r) s = .next t ∧ Answers w t r 8 0 []) ∧
      (w.isOwner r = true → w.fenced o r.sub = false → w.weir.busy = false → o.ty ≠ .blob →
        (scalarOk r.index r.sub (leNat r.value) = false → ∃ t, exec (.write r) s = .next t ∧ Answers w t r 4 0 []) ∧
        (scalarOk r.index r.sub (leNat r.value) = true → o.ty ≠ .f32 →
          bankBytes (stPut w.weir.bank (objKey r.index r.sub) (.scalar (leNat r.value))) ≤ weirBytes →
          ∃ t v, exec (.write r) s = .next t ∧ Done v t r ∧ v = { w with weir := v.weir } ∧
            v.weir = { w.weir with
              bank := stPut w.weir.bank (objKey r.index r.sub) (.scalar (leNat r.value)), st := .staged, vers := v.weir.vers } ∧
            ∀ k, mget 0 v.weir.vers k = mget 0 w.weir.vers k + (if k = objKey r.index r.sub ∧
              stGet w.weir.bank k ≠ some (.scalar (leNat r.value)) then 1 else 0)))) ∧
    (∀ p ∈ cascadeCommands, Gated s r o w → r.opcode = 2 → r.index = 0x4040 → r.sub = p.2.1 →
      (p.2.2 w r = false → ∃ t, exec (p.1 r) s = .next t ∧ Answers w t r 1 w.ownerSession []) ∧
      (p.2.2 w r = true → o.ty = .blob → (w.takeSegment r blobLimit = (u, .part) → ∃ t, exec (p.1 r) s = .next t ∧ Done u t r) ∧
        (w.takeSegment r blobLimit = (u, .bad) → ∃ t, exec (p.1 r) s = .next t ∧ Answers u t r 4 0 []))) ∧
    (∀ slot len frame q area, s.power.phase = .run → slot < 16 →
      area = overlay frame (mget Mailbox.empty s.nap.mailbox slot).request →
      (mget 0xFFFFFFFF s.nap.rspLen slot = 0 → exec (.mailboxReqLen slot len frame) s = .next (s.addObj 0xB200 4 32 1)) ∧
      (mget 0xFFFFFFFF s.nap.rspLen slot ≠ 0 → 36 ≤ len → len ≤ 1076 → parseReq (.pf1 slot) (padTo len (area.take len)) = some q →
        s.nap.queue.length < 64 → ∃ t, exec (.mailboxReqLen slot len frame) s = .next t ∧ t = { s with nap := t.nap } ∧
          t.nap.queue = s.nap.queue ++ [q] ∧ mget 0xFFFFFFFF t.nap.rspLen slot = 0 ∧
          mget Mailbox.empty t.nap.mailbox slot = { mget Mailbox.empty s.nap.mailbox slot with request := area, reqLen := len }) ∧
      (mget 0xFFFFFFFF s.nap.rspLen slot ≠ 0 → len < 36 ∨ 1076 < len → ∃ t, exec (.mailboxReqLen slot len frame) s = .next t ∧
        t.nap.queue = s.nap.queue ∧ mget 0xFFFFFFFF t.nap.rspLen slot = (malformedAnswer (padTo 36 area)).length ∧
        t.out = s.out ++ [.nap (.pf1 slot) (malformedAnswer (padTo 36 area)), .interrupt 1 0])) ∧
    (∀ k, Ready s r 0x2006 1 u → u.sessionOf r = some k →
      (leNat (valueOf s r) ≤ 1 → ∃ t v, exec (.eventSubscribe r) s = .next t ∧ Done v t r ∧ (v.slot k).subscribe = leNat (valueOf s r)) ∧
      (1 < leNat (valueOf s r) → ∃ t, exec (.eventSubscribe r) s = .next t ∧ Answers u t r 4 0 [])) ∧
    (OwnerWrites s r 0x6015 1 u → ∃ t, exec (.pageQueryAddr r) s = .next t ∧ Done (u.setObj 0x6015 1 (leNat (valueOf s r))) t r) ∧
    (OwnerWrites s r 0xA002 1 u →
      (1500 ≤ leNat (valueOf s r) → leNat (valueOf s r) ≤ profileCap (u.obj 0xA001 2) → leNat (valueOf s r) ≤ u.obField 1 16 16 →
        ∃ t, exec (.powerCapW r) s = .next t ∧ Done (u.setObj 0xA002 1 (leNat (valueOf s r))) t r) ∧
      (leNat (valueOf s r) < 1500 ∨ profileCap (u.obj 0xA001 2) < leNat (valueOf s r) ∨ u.obField 1 16 16 < leNat (valueOf s r) →
        ∃ t, exec (.powerCapW r) s = .next t ∧ Answers u t r 4 0 [])) ∧
    (OwnerWrites s r 0x6014 1 u → (valueOf s r).length = 10 → fld (valueOf s r) 0 6 % 65536 = 0 →
      (u.job.st ≠ 0 → ∃ t, exec (.memRelease r) s = .next t ∧
        Done { u with mem := { u.mem with releases := u.mem.releases ++ [(fld (valueOf s r) 0 6, 65536 * fld (valueOf s r) 6 4)] } } t r) ∧
      (u.job.st = 0 → (u.mem.pages.map Prod.fst).Nodup → ∃ t v, exec (.memRelease r) s = .next t ∧ Done v t r ∧
        ∀ k p, u.page k = some p → fld (valueOf s r) 0 6 ≤ k / 2 → u.keyStop k ≤ fld (valueOf s r) 0 6 + 65536 * fld (valueOf s r) 6 4 → v.page k = none)) ∧
    (Ready s r 0xB002 1 u → ∃ t v, exec (.eventSnapshot r) s = .next t ∧ Done v t r ∧
      v.blob 0xB002 2 = ((u.log.records.filter (fun x => leNat (valueOf s r) ≤ recordSeq x)).take 1024).flatten)

/-- R273, R280: OPEN gives the lowest free slot in its next generation, and is BUSY with none free; CLOSE and a timeout end a session and
the ownership it held. A challenge gives a fresh nonce; a response that verifies under a trusted master's key gives the session its
key and result, and one that does not ends the nonce with AUTH_REQUIRED. -/
def Obligations.Sessions : Prop :=
  ∀ (s u : State) (r : NapReq) (k : Nat),
    (Served s r u → r.opcode = 3 →
      (firstBelow 32 (fun i => !(u.slot i).isOpen) = some k → ∃ t v, exec (.openSession r) s = .next t ∧
        v = u.setSlot k { Session.closed with isOpen := true, gen := (u.slot k).gen % 2047 + 1, carrier := r.carrier } ∧
        Done v t r ∧ ∃ f, .nap r.carrier f ∈ t.out.drop u.out.length ∧ wb f 1 0 16 = ((u.slot k).gen % 2047 + 1) * 32 + k) ∧
      ((∀ i, i < 32 → (u.slot i).isOpen = true) → ∃ t, exec (.openSession r) s = .next t ∧ Answers u t r 8 0 [])) ∧
    (Served s r u → r.opcode = 4 → u.sessionOf r = some k → ∃ t v, exec (.closeSession r) s = .next t ∧ Done v t r ∧
      (v.slot k).isOpen = false ∧ (v.slot k).gen = (u.slot k).gen ∧ (v.slot k).key = none ∧
      (u.ownerSession = sessionId k (u.slot k).gen → OwnerBecomes u v none) ∧
      (u.ownerSession ≠ sessionId k (u.slot k).gen → v.own.owner = u.own.owner)) ∧
    (k < 32 → (s.slot k).isOpen = true → ∃ t, exec (.sessionTimeout k) s = .next t ∧ (t.slot k).isOpen = false ∧
      (s.ownerSession = sessionId k (s.slot k).gen → OwnerBecomes s t none) ∧ ∀ i, i ≠ k → t.slot i = s.slot i) ∧
    (∀ o, Gated s r o u → r.opcode = 1 → r.index = 0x2005 → r.sub = 1 → u.sessionOf r = some k → r.offset = 0 →
      ∃ (t v : State) (nonce : List Byte), exec (.authChallenge r) s = .next t ∧ nonce.length = 32 ∧ (v.slot k).nonce = some nonce ∧
        Answers v t r 0 (mget 0 v.blobVer (objKey 0x2005 1)) ((nonce ++ sha3 u.identityKey).take 1024)) ∧
    (Ready s r 0x2005 2 u → r.isUdp = true → (valueOf s r).length = 3636 → u.sessionOf r = some k → ∀ good, good = (match u.trustedMaster ((valueOf s r).take 32) with
        | some pk => (u.slot k).nonce.isSome && u.hasKey 0 && Config.mldsaVerify pk
            ((u.slot k).nonce.getD [] ++ leBytes 2 r.session ++ ((valueOf s r).drop 32).take 1184) ((valueOf s r).drop 1216)
        | none => false) →
      (good = true → ∃ t v, exec (.authResponse r) s = .next t ∧ Done v t r ∧ (v.slot k).nonce = none ∧
        (v.slot k).key = some (padTo 32 (Config.mlkemEncaps (((valueOf s r).drop 32).take 1184) u.free).2) ∧ (v.slot k).keyId = (valueOf s r).take 32 ∧
        (v.slot k).authed = false ∧ v.obj 0x9020 4 = 0) ∧
      (good = false → ∃ t v, exec (.authResponse r) s = .next t ∧ Answers v t r 11 0 [] ∧ (v.slot k).nonce = none))

/-- R266, R284 to R289: the owner alone writes the owner's objects. A claim waits for its window, where the highest PRIORITY, then the
highest NONCE, wins and an unbeaten tie gives no owner; an emergency claim takes ownership at once. The lease's end, a release and
an acceptance change the owner and advance the epoch; a lapse discards what is staged. -/
def Obligations.Ownership : Prop :=
  ∀ (s u : State) (r : NapReq),
    (∀ p ∈ ownerCommands, ∀ o, Gated s r o u → r.opcode = 2 → r.index = p.2.1 → r.sub = p.2.2 → u.isOwner r = false →
      ∃ t, exec (p.1 r) s = .next t ∧ Answers u t r 1 u.ownerSession []) ∧
    (Ready s r 0x2001 1 u → fld (valueOf s r) 0 1 = 255 → r.isUdp = true → (u.slot (r.session % 32)).authed = false →
      ∃ t, exec (.ownerClaim r) s = .next t ∧ Answers u t r 11 0 []) ∧
    (Ready s r 0x2001 1 u → u.isOwner r = true → fld (valueOf s r) 0 1 ≠ 255 ∨ r.isUdp = false ∨ (u.slot (r.session % 32)).authed = true →
      ∃ t v, exec (.ownerClaim r) s = .next t ∧ Done v t r ∧ v.ownerEpoch = u.ownerEpoch ∧ v.weir = u.weir ∧
        v.own = { u.own with owner := u.own.owner.map (fun (o : Owner) => { o with priority := fld (valueOf s r) 0 1 }) }) ∧
    (Ready s r 0x2001 1 u → u.isOwner r = false →
      (fld (valueOf s r) 0 1 ≠ 255 → u.own.owner = none → ∃ t c, exec (.ownerClaim r) s = .next t ∧ t = { u with own := t.own } ∧
        t.own.owner = none ∧ c.req = r ∧ c.priority = fld (valueOf s r) 0 1 ∧ c.nonce = fld (valueOf s r) 1 7 ∧
        ∃ l, t.own.window = some (l ++ [c])) ∧
      (fld (valueOf s r) 0 1 ≠ 255 → u.own.owner ≠ none → ∃ t, exec (.ownerClaim r) s = .next t ∧ Answers u t r 1 u.ownerSession []) ∧
      (fld (valueOf s r) 0 1 = 255 → r.isUdp = false ∨ (u.slot (r.session % 32)).authed = true → ∃ t v, exec (.ownerClaim r) s = .next t ∧ Done v t r ∧
        OwnerBecomes u v (some ⟨r.session, r.carrier.code, 255, u.keyIdOf r⟩))) ∧
    (∀ all, s.own.window = some all → s.own.owner = none →
      (∀ w ∈ competing all, (∀ d ∈ competing all, d = w ∨ w.beats d = true) →
        ∃ t, exec .claimWindowClose s = .next t ∧ t.own.window = none ∧
          OwnerBecomes s t (some ⟨w.req.session, w.req.carrier.code, w.priority, s.keyIdOf w.req⟩)) ∧
      (∀ c ∈ competing all, ∀ d ∈ competing all, c ≠ d → (∀ e ∈ competing all, e.beats c = false ∧ e.beats d = false) →
        ∃ t, exec .claimWindowClose s = .next t ∧ t.own.window = none ∧ t.own.owner = none)) ∧
    (s.own.owner ≠ none → ∃ t, exec .leaseExpire s = .next t ∧ OwnerBecomes s t none ∧
      (s.weir.st ≠ .armed → s.weir.st ≠ .pending → t.weir.bank = [] ∧ t.weir.st = .empty) ∧
      (s.weir.st = .armed ∨ s.weir.st = .pending → t.weir.bank = s.weir.bank ∧ t.weir.st = s.weir.st)) ∧
    (OwnerWrites s r 0x2001 2 u → ∃ t, exec (.ownerHeartbeat r) s = .next t ∧ Done u t r) ∧
    (OwnerWrites s r 0x2001 3 u → leNat (valueOf s r) = 1 → ∃ t v, exec (.ownerRelease r) s = .next t ∧ Done v t r ∧ OwnerBecomes u v none) ∧
    (OwnerWrites s r 0x2001 4 u → ∃ t, exec (.ownerOffer r) s = .next t ∧
      Done { u with own := { u.own with offer := if leNat (valueOf s r) = 0 then none else some (leNat (valueOf s r)) } } t r) ∧
    (exec .offerExpire s = .next { s with own := { s.own with offer := none } }) ∧
    (∀ o, Ready s r 0x2001 5 u → u.own.owner = some o → u.own.offer = some r.session →
      (leNat (valueOf s r) = u.ownerEpoch → ∃ t v, exec (.ownerAccept r) s = .next t ∧ Done v t r ∧ v.weir = u.weir ∧
        OwnerBecomes u v (some ⟨r.session, r.carrier.code, o.priority, u.keyIdOf r⟩)) ∧
      (leNat (valueOf s r) ≠ u.ownerEpoch → ∃ t, exec (.ownerAccept r) s = .next t ∧ Answers u t r 4 0 []))

/-- R290 to R295: VALIDATE has a staged bank checked; a bank that passes is VALID, or ARMED for a group commit, and one that fails is
STAGED with WEIR_RESULT. COMMIT puts a VALID bank in force at once where no job runs or its rules allow it, else at the step's
boundary, and never one with a group-only object; DISCARD empties it. -/
def Obligations.WeirCommands : Prop :=
  ∀ (s u : State) (r : NapReq),
    (OwnerWrites s r 0x3001 1 u →
      (leNat (valueOf s r) = 1 → u.weir.st = .staged ∨ u.weir.st = .valid → ∃ t, exec (.validate r) s = .next t ∧
        Done { u with weir := { u.weir with st := .validating, arming := false } } t r) ∧
      (leNat (valueOf s r) = 1 → u.weir.busy = true → ∃ t, exec (.validate r) s = .next t ∧ Answers u t r 8 0 []) ∧
      (leNat (valueOf s r) = 2 → u.weir.st = .valid → u.weir.groupOnly = true → ∃ t, exec (.commit r) s = .next t ∧ Answers u t r 6 0xFFFFFFFF []) ∧
      (leNat (valueOf s r) = 2 → u.weir.st = .valid → u.weir.groupOnly = false →
        ((u.job.st = 1 ∨ u.job.st = 3) → u.weir.atOnce = false → ∃ t, exec (.commit r) s = .next t ∧
          Done { u with weir := { u.weir with st := .pending, pendingStep := some u.job.step, pendingGroup := false } } t r) ∧
        (u.job.st = 0 ∨ u.job.st = 2 ∨ u.weir.atOnce = true → (u.weir.bank.map Prod.fst).Nodup → (∀ e ∈ u.weir.bank, StagedType e.1 e.2) →
          ∃ t v, exec (.commit r) s = .next t ∧ Done v t r ∧ v.weir.st = .empty ∧ v.weir.bank = [] ∧
            ∀ e ∈ u.weir.bank, v.committedAt e.1 = e.2)) ∧
      (leNat (valueOf s r) = 3 → u.weir.st = .staged ∨ u.weir.st = .valid → ∃ t v, exec (.discard r) s = .next t ∧ Done v t r ∧
        v = { u with weir := v.weir } ∧ v.weir.st = .empty ∧ v.weir.bank = []) ∧
      (leNat (valueOf s r) = 4 → u.weir.shown = .empty ∨ u.weir.st = .staged ∨ u.weir.st = .valid → ∃ t, exec (.groupArm r) s = .next t ∧
        Done { u with weir := { u.weir with st := .validating, arming := true } } t r)) ∧
    (s.weir.st = .validating →
      (s.validate = none → s.weir.arming = false → ∃ t, exec .validateComplete s = .next t ∧ t.blob 0x3001 3 = List.replicate 16 0 ∧
        t.weir = { s.weir with st := .valid, arming := false }) ∧
      (s.validate = none → s.weir.arming = true → ∃ (t w : State), exec .validateComplete s = .next t ∧
        w.weir = { s.weir with st := .armed, arming := false } ∧ t = w.sayArmed none) ∧
      (∀ f, s.validate = some f → s.weir.arming = false → s.weir.orphan = false → ∃ t, exec .validateComplete s = .next t ∧
        t.weir = { s.weir with st := .staged, arming := false } ∧
        t.blob 0x3001 3 = weirResult f.status f.index f.sub f.record 0))

/-- R295 to R297: a root that holds a GROUP_ARMED of every package it awaits writes GROUP_COMMIT, to its deputy first, where the
cross-member checks pass, else GROUP_REJECT; a report that is missing after 10 s rejects the group commit. At a package GROUP_COMMIT
acts once: an ARMED bank is put in force at once or waits for its step; GROUP_REJECT returns it to STAGED. The model's choices
(logs 182, 183): a child master passes GROUP_COMMIT on and answers it after its group, and reports a member that is missing. -/
def Obligations.GroupCommits : Prop :=
  ∀ (s u : State) (r : NapReq) (l : List Report) (own : Report),
    (Ready s r 0x4040 0x16 u → groupBelow u r = true → armedOk (valueOf s r) = true → l = reportIns (wb (valueOf s r) 0 0 12, (valueOf s r)) u.cas.armed →
      ((∃ p ∈ u.armers, ∀ x ∈ l, x.1 ≠ p) → ∃ t, exec (.groupArmed r) s = .next t ∧ Done { u with cas := { u.cas with armed := l } } t r) ∧
      ((∀ p ∈ u.armers, ∃ x ∈ l, x.1 = p) → l.find? (fun x => x.1 = u.groupView.position) = some own → u.groupView.isRoot = true →
        ∀ fail, fail = crossChecks own (l.filter (fun x => u.groupView.groupMembers.contains x.1)) l u.would.nonSpares →
        (fail = none → ∃ t v step, exec (.groupArmed r) s = .next t ∧ Done v t r ∧
          (u.job.st = 1 ∨ u.job.st = 3 → step = if u.job.step ≤ u.cas.decided then u.job.step + 1 else u.job.step) ∧
          ∀ p, (u.groupView.below true).head? = some p →
            Sends u v p 0x17 (groupCommitValue (seqOf l) (u.job.st = 0 || u.job.st = 2) step)) ∧
        (∀ f, fail = some f → ∃ t v, exec (.groupArmed r) s = .next t ∧ Done v t r ∧
          ∀ p ∈ u.groupView.below true, Sends u v p 0x18 (groupRejectValue (seqOf l) f)))) ∧
    (∀ p, s.groupView.isRoot = true → s.cas.armed ≠ [] → p ∈ s.armers → (∀ x ∈ s.cas.armed, x.1 ≠ p) →
      (∀ q ∈ s.armers, q < p → ∃ x ∈ s.cas.armed, x.1 = q) → ∃ t, exec .groupArmTimeout s = .next t ∧ t.weir = s.weir ∧
        ∀ q ∈ s.groupView.below true, Sends s t q 0x18 (groupRejectValue (seqOf s.cas.armed) ⟨6, 0, 0, p⟩)) ∧
    (∀ p, s.groupView.isMaster = true → s.groupView.isRoot = false → s.cas.armed ≠ [] → p ∈ s.armers → (∀ x ∈ s.cas.armed, x.1 ≠ p) →
      (∀ q ∈ s.armers, q < p → ∃ x ∈ s.cas.armed, x.1 = q) → s.cas.armed.find? (fun x => x.1 = s.groupView.position) = some own →
      ∃ t, exec .groupArmTimeout s = .next t ∧ t.weir = s.weir ∧
        Sends s t s.groupView.parent 0x16 (groupReport own s.cas.armed (some ⟨6, 0, 0, p⟩))) ∧
    (Ready s r 0x4040 0x17 u → groupAbove u r = true → (valueOf s r).length = 16 → u.groupView.isMaster = true →
      u.groupView.isRoot = false → wd (valueOf s r) 0 ∉ u.weir.seen → (∀ e ∈ u.weir.bank, StagedType e.1 e.2) →
      ∀ p, (u.groupView.below true).head? = some p → p ≠ u.groupPosition → ∃ t k, exec (.groupCommit r) s = .next t ∧
        Sends u t p 0x17 (valueOf s r) ∧ t.cas.commitReq = some (r, k)) ∧
    (Ready s r 0x4040 0x17 u → groupAbove u r = true → (valueOf s r).length = 16 →
      u.groupView.isMaster = false ∨ u.groupView.isRoot = true →
      (wd (valueOf s r) 0 ∈ u.weir.seen → ∃ t, exec (.groupCommit r) s = .next t ∧ Done u t r) ∧
      (wd (valueOf s r) 0 ∉ u.weir.seen → u.weir.st = .armed →
        (wb (valueOf s r) 1 0 1 = 1 → ∃ t v, exec (.groupCommit r) s = .next t ∧ Done v t r ∧ v.weir.st = .empty ∧ v.weir.bank = [] ∧
          v.obj 0x3001 7 = wd (valueOf s r) 0) ∧
        (wb (valueOf s r) 1 0 1 = 0 → u.job.st = 1 ∨ u.job.st = 3 → ∃ t v, exec (.groupCommit r) s = .next t ∧ Done v t r ∧
          v.weir.st = .pending ∧ v.weir.pendingStep = some (fld (valueOf s r) 8 8) ∧ v.weir.pendingGroup = true ∧ v.weir.bank = u.weir.bank))) ∧
    (Ready s r 0x4040 0x18 u → groupAbove u r = true → (valueOf s r).length = 16 → wd (valueOf s r) 0 ∉ u.weir.seen →
      u.weir.st = .armed ∨ u.weir.st = .staged → u.weir.orphan = false → ∃ t v, exec (.groupReject r) s = .next t ∧ Done v t r ∧
        v.weir.st = .staged ∧ v.weir.bank = u.weir.bank ∧
        v.blob 0x3001 3 = weirResult (fld (valueOf s r) 4 1) (fld (valueOf s r) 6 2) (fld (valueOf s r) 8 1) 0 (fld (valueOf s r) 12 4))

/-- R28, R336 to R343: power-on reset and a stretch leave what R341 says; the pin qualifies by its low time; the release order counts the
reset and boots; PLLs carry it on, and a lost lock returns its domain to reset. RESET_REQUEST resets after its answer, and OB_WRITE
writes a checked value over the copy not in force. -/
def Obligations.Resets : Prop :=
  ∀ (s u : State) (r : NapReq) (low d : Nat) (env : BootEnv),
    (∃ t, exec .powerOnReset s = .next t ∧ Wiped s t ∧ t.power.phase = .powerOn ∧ t.power.tripped = false ∧ t.power.saveN = false ∧
      t.power.faultN = false ∧ t.power.resetN = false ∧ t.power.alarmN = false) ∧
    (s.power.phase = .powerOn → exec .powerOnResetEnd s = .next (if s.power.tripped then s else
      { s with power := { s.power with phase := .stretch, resetN := true, saveN := false } })) ∧
    (s.power.phase = .run ∨ s.power.phase = .release ∨ s.power.phase = .recovery →
      (3000 ≤ low → ∃ t, exec (.resetNAssert low) s = .next t ∧ Wiped s t ∧ t.power.phase = .stretch ∧ t.power.cause = 1 ∧
        t.power.resetN = true) ∧
      (low < 2000 → exec (.resetNAssert low) s = .next s)) ∧
    (s.power.phase = .powerOn ∨ s.power.phase = .stretch ∨ s.power.phase = .hold → exec (.resetNAssert low) s = .next s) ∧
    (s.power.phase = .stretch →
      exec (.resetStretchEnd true env) s = .next { s with power := { s.power with phase := .hold, resetN := false } }) ∧
    ((∀ c ∈ s.nv.subst, c < 128) → s.power.locked = [] →
      (s.power.phase = .stretch → ∃ t, exec (.resetStretchEnd false env) s = .next t ∧ Released s t env) ∧
      (s.power.phase = .hold → ∃ t, exec (.resetNRelease env) s = .next t ∧ Released s t env)) ∧
    (s.hasDomain d = true → s.power.phase ≠ .powerOn → d ∉ s.power.locked → ∃ t, exec (.pllLock d) s = .next t ∧
      t.power.locked = sIns s.power.locked d ∧
      (∀ e, s.power.phase = .release → s.power.env = some e →
        (t.power.phase = .run ↔ ∀ x ∈ s.neededLocks e, x = d ∨ x ∈ s.power.locked)) ∧
      (s.power.phase = .run → 1 ≤ d → d < 7 → s.portEnabled (d - 1) = true → t.obj 0x7002 (d - 1) = 1)) ∧
    (d ∈ s.power.locked → ∃ t, exec (.pllLockLoss d) s = .next t ∧ t.power.locked = sDel s.power.locked d ∧
      (s.power.phase ≠ .run → t = { s with power := { s.power with locked := sDel s.power.locked d } }) ∧
      (s.power.phase = .run → (d = 0 → t.obj 0x7001 1 = 0 ∧ t.obj 0x7001 2 = 0) ∧
        (∀ e ∈ s.boundary (txQueue d) ++ s.boundary (rxQueue d), .returned d e ∈ t.out) ∧
        t.boundary (txQueue d) = [] ∧ t.boundary (rxQueue d) = [] ∧
        (1 ≤ d → d < 7 → s.portEnabled (d - 1) = true → t.obj 0x7002 (d - 1) = 4) ∧ (d = 7 → t.obj 0x700A 1 % 128 = 0) ∧
        ∀ n, n < s.part.dies → d = 0x20 + n → t.obj 0xA120 n ≠ 0 ∧ t.obj 0x8010 n ≠ 0)) ∧
    (OwnerWrites s r 0xC002 1 u →
      (leNat (valueOf s r) = 1 → ∃ (t v w : State), exec (.resetRequest r) s = .next t ∧ v = { u with power := { u.power with phase := .stretch } } ∧
        Done v w r ∧ t = w.stretch 2) ∧
      (leNat (valueOf s r) ≠ 1 → ∃ t, exec (.resetRequest r) s = .next t ∧ Answers u t r 4 0 [])) ∧
    (OwnerWrites s r 0xC001 1 u → (valueOf s r).length = 256 → (∃ n, u.part.ports ≤ n ∧ n < 6 ∧ bitOf (wd (valueOf s r) 3) n = true) →
      ∃ t, exec (.obWrite r) s = .next t ∧ Answers u t r 9 0 []) ∧
    (OwnerWrites s r 0xC001 1 u → (valueOf s r).length = 256 → (∀ n, u.part.ports ≤ n → n < 6 → bitOf (wd (valueOf s r) 3) n = false) →
      (u.job.st ≠ 0 → ∃ t, exec (.obWrite r) s = .next t ∧ Answers u t r 8 0 []) ∧
      (∀ i, u.job.st = 0 → (List.range 64).find? (fun i => !u.obWordOk (valueOf s r) i) = some i →
        ∃ t, exec (.obWrite r) s = .next t ∧ Answers u t r 7 i []) ∧
      (u.job.st = 0 → (∀ i, i < 64 → u.obWordOk (valueOf s r) i = true) → ∃ t v c, exec (.obWrite r) s = .next t ∧ Done v t r ∧
        v = { u with nv := if u.obj 0xC001 3 = 0 then { u.nv with obB := c } else { u.nv with obA := c } } ∧
        c.take 248 = (valueOf s r).take 248 ∧ wd c 62 = (wd u.ob 62 + 1) % 2 ^ 32 ∧ obValid c = true))

/-- R324, R326, R330 to R335, R345 to R347: a qualified sag and a thermal trip save and enter power-on reset; a rail excursion
fences its die; a late hold-up supply is recorded. A control interval stores what was read, moves each VCORE command by at most 20 mV
towards its target, 650 mV while a regulator is silent, and runs the power loop and the thermal loops. -/
def Obligations.PowerAndThermal : Prop :=
  ∀ (s : State) (source unit die mv : Nat) (deciC : Int) (x : Readings),
    (s.power.phase ≠ .powerOn → source = 8 ∨ source = 9 ∨ source = 10 ∨ source = 0xFF → ∃ t, exec (.supplySag source) s = .next t ∧
      t.power.phase = .powerOn ∧ t.power.saveN = true ∧ t.cores = [] ∧ t.mem.cells = [] ∧ t.job = .reset ∧
      (s.power.hubUp = false → Wiped s t ∧ t.power.cause = 0) ∧
      (s.power.hubUp = true → t.power.faultN = true ∧ t.power.cause = 3 ∧ t.nv.journal = s.nv.journal ∧ t.nv.subst = s.nv.subst ∧
        (s.holdupState = 0 → t.nv.later = true ∧ t.nv.parts = 31 ∧ wd t.nv.record 0 = 0x4E395356 ∧
          wb t.nv.record 1 8 8 = b01 (source = 0xFF) ∧ wb t.nv.record 1 16 5 = 31 ∧ wd t.nv.record 2 = s.eventSeq % 2 ^ 32 ∧
          wd t.nv.record 4 = s.job.step % 2 ^ 32 ∧ wd t.nv.record 6 = s.job.st % 2 ^ 32))) ∧
    (s.power.phase ≠ .powerOn → s.hasThermal unit = true →
      (deciC < (if unit < 0x10 then 1150 else 1050) → exec (.thermalTrip unit deciC) s = .next s) ∧
      ((if unit < 0x10 then 1150 else 1050) ≤ deciC → ∃ t, exec (.thermalTrip unit deciC) s = .next t ∧ t.power.phase = .powerOn ∧
        t.power.tripped = true ∧ t.power.faultN = true ∧ t.cores = [] ∧ exec .powerOnResetEnd t = .next t ∧
        (s.power.hubUp = true → t.power.saveN = true ∧ t.power.cause = 3))) ∧
    (s.power.phase = .run → s.dieUp die = true →
      (mv + 50 < s.obj 0xA003 die ∨ 900 < mv → ∃ t, exec (.vcoreExcursion die mv) s = .next t ∧ t.obj 0x8010 die = 1 ∧
        t.obj 0x8010 (0x10 + die) = 0x0909) ∧
      (s.obj 0xA003 die ≤ mv + 50 → mv ≤ 900 → exec (.vcoreExcursion die mv) s = .next s)) ∧
    (s.power.phase ≠ .powerOn → ∃ t, exec .holdupTimeout s = .next t ∧ t.power = { s.power with holdLate := true } ∧
      (s.power.phase = .run → s.holdupState = 0 → LastEvent s t { code := 0x090A, cls := .degraded, d0 := 2 })) ∧
    (s.power.phase = .run → ∃ t, exec (.controlInterval x) s = .next t ∧ t.job = s.job ∧ t.cores = s.cores ∧
      (∀ n v w, s.hasRail n = true → railOf x n = some (v, w) → t.obj 0xA004 n = v % 65536 ∧ (n < 11 → t.obj 0xA005 n = w % 65536)) ∧
      (∀ d, d < s.part.dies → t.obj 0xA003 d ≤ s.obj 0xA003 d + 20 ∧ s.obj 0xA003 d ≤ t.obj 0xA003 d + 20) ∧
      ((∃ n ∈ s.regulators, railOf x n = none) → t.obj 0xA002 2 = s.obj 0xA002 2 ∧ t.obj 0xA002 3 = s.obj 0xA002 3 ∧
        t.obj 0xA002 4 = s.obj 0xA002 4 ∧ ∀ d, d < s.part.dies → t.obj 0xA003 d = slew (s.obj 0xA003 d) 650) ∧
      (∀ p c, (∀ n ∈ s.regulators, railOf x n ≠ none) → p = s.regulators.foldl (fun (a : Nat) (n : Nat) => a + t.obj 0xA005 n) 0 →
        c = s.obj 0xA002 1 → t.obj 0xA002 2 = p % 65536 ∧
        (11 * c < 10 * p → t.obj 0xA002 4 = Nat.min 200 (s.obj 0xA002 4 + 20)) ∧
        (c < p → 10 * p ≤ 11 * c → (∃ d ∈ s.activeDies, 650 < s.obj 0xA003 d) →
          t.obj 0xA002 4 = Nat.min 200 (s.obj 0xA002 4 + 5)) ∧
        (50 * p < 49 * c → s.obj 0xA002 3 < 16 → t.obj 0xA002 3 = s.obj 0xA002 3 + 1) ∧
        (50 * p < 49 * c → 16 ≤ s.obj 0xA002 3 → 0 < s.obj 0xA002 4 → t.obj 0xA002 4 = s.obj 0xA002 4 - 5)) ∧
      ∀ d ∈ s.activeDies, 1050 ≤ sx 32 (t.obj 0xA010 d) → 650 < s.obj 0xA003 d →
        t.obj 0xA012 d = Nat.min 65535 (s.obj 0xA012 d + 20))

/-- R16, R20 to R22, R27, R313, R314: the next frame in order is delivered with its credits, any other is discarded and a replay asked
for; a sender sends the oldest packet of a channel that has credit, VC4 first, and through its boundary queue. A link offers the lanes that it received clean, comes up
at the agreed width, and falls to limping after its fifth attempt. -/
def Obligations.Kolfin : Prop :=
  ∀ (s : State) (n sender : Nat) (f : KolfinFrame) (clean : BitVec 64) (words : List (BitVec 32)), s.power.phase = .run →
    (n < 0x98 → s.boundaryFull (rxQueue (kolfinDomain ((s.linkDies (rxLink n)).headD 0))) = true →
      exec (.kolfinFrameReceive n f) s = .next s) ∧
    (n < 0x98 → s.linkRuns (rxLink n) = true → s.boundaryFull (rxQueue (kolfinDomain ((s.linkDies (rxLink n)).headD 0))) = false →
      (f.crcGood = true → f.seq = (s.link n).rxSeq → ∃ t, exec (.kolfinFrameReceive n f) s = .next t ∧ t.out = s.out ∧
        (t.link n).rxSeq = (s.link n).rxSeq + 1 ∧
        (∀ v, v < 6 → mget 0 (t.arb (txOf n)).credit v = mget 0 (s.arb (txOf n)).credit v + f.credits.getD v 0) ∧
        (∀ d, d = Config.kolfinDest f.payload → n < 0x10 → d ≠ n → s.dieUp d = true → s.dieUp n = true → f.vc < 6 →
          mget [] (t.arb (0x40 + d)).queues f.vc = mget [] (s.arb (0x40 + d)).queues f.vc ++ [⟨n, 0, f.payload⟩])) ∧
      (f.crcGood = false ∨ f.seq ≠ (s.link n).rxSeq → ∃ t l, exec (.kolfinFrameReceive n f) s = .next t ∧
        ((s.link (rxLink n)).st ≠ .limping → t.arbs = s.arbs) ∧ t.out = s.out ++ .kolfinReplay n (s.link n).rxSeq :: l ∧ (t.link n).rxSeq = (s.link n).rxSeq ∧
        t.obj 0x8016 (rxLink n) = (s.obj 0x8016 (rxLink n) + 1) % 2 ^ 64 ∧
        (16 ≤ ((s.link n).asks.filter (fun x => (s.link n).frames + 1 < x + 65536)).length → (s.link (rxLink n)).st = .up →
          (t.link (rxLink n)).st = .testing))) ∧
    (sender < 0x48 → s.linkRuns (txLink sender) = true → (0x40 ≤ sender → s.dieUp (sender - 0x40) = true) →
      ((∃ v, v < 6 ∧ (s.arb sender).ready v = true) → ∃ t v x, exec (.kolfinFrameSend sender) s = .next t ∧ v < 6 ∧
        (s.arb sender).ready v = true ∧ ((s.arb sender).ready 4 = true → v = 4) ∧ x ∈ mget [] (s.arb sender).queues v ∧
        (∀ y ∈ mget [] (s.arb sender).queues v, y.age ≤ x.age) ∧ t.out = s.out ++ [.kolfin sender v x.payload] ∧
        mget 0 (t.arb sender).credit v = mget 0 (s.arb sender).credit v - 1 ∧ (∀ e, e ≠ sender → t.arb e = s.arb e) ∧
        t = { s with arbs := t.arbs, out := t.out, bq := t.bq } ∧
        ∀ q, q = txQueue (kolfinDomain (txDie s.part.dies sender)) → (s.boundary q).length ≤ boundaryDepth →
          t.boundary q = (if s.boundaryFull q then (s.boundary q).drop 1 else s.boundary q) ++ [x.payload]) ∧
      ((∀ v, v < 6 → (s.arb sender).ready v = false) → exec (.kolfinFrameSend sender) s = .next s)) ∧
    (s.hasLink n = true →
      (s.canRetrain n = false → exec (.kolfinRetrain n clean) s = .next s) ∧
      (s.canRetrain n = true → ∃ t, exec (.kolfinRetrain n clean) s = .next t ∧ (t.link n).st = .offered ∧
        (t.link n).mask = clean.toNat % 2 ^ linkMax n ∧ t.obj 0x8017 n = (s.obj 0x8017 n + 1) % 2 ^ 32 ∧
        LastEvent s t { code := 0x0501, cls := .note, d0 := n } ∧
        .laneOffer n (offerWords n (t.link n).mask false (t.link n).attempt) ∈ t.out) ∧
      (laneFrameOk words = false → exec (.laneOfferReceive n words) s = .next s) ∧
      (∀ peer both, laneFrameOk words = true → peer = (words.getD 0 0).toNat + (words.getD 1 0).toNat * 2 ^ 32 →
        both = (s.link n).mask &&& peer →
        ((s.link n).st = .offered → (words.getD 2 0).getLsbD 7 = false → (∀ b, (s.link n).before = some b → b = both) →
          ∃ t, exec (.laneOfferReceive n words) s = .next t ∧ (t.link n).st = .echoed ∧ (t.link n).agreed = agreedMask n both ∧
            t.out = s.out ++ [.laneOffer n (offerWords n (agreedMask n both) true (s.link n).attempt)]) ∧
        ((s.link n).st = .echoed → (words.getD 2 0).getLsbD 7 = true → peer = (s.link n).agreed → lanesOf peer ≠ [] →
          ∃ t, exec (.laneOfferReceive n words) s = .next t ∧ (t.link n).st = .up ∧ t.obj 0x7010 n = (lanesOf peer).length ∧
            ((lanesOf peer).length < linkMax n → LastEvent s t
              { code := 0x0502, cls := .degraded, die := n % 0x10, d0 := n, d1 := (lanesOf peer).length }))) ∧
      ((s.link n).st = .offered ∨ (s.link n).st = .echoed →
        ((s.link n).attempt < 4 → ∃ t, exec (.laneOfferTimeout n) s = .next t ∧ t.out = s.out ∧ (t.link n).st = .testing ∧
          (t.link n).attempt = (s.link n).attempt + 1) ∧
        (4 ≤ (s.link n).attempt → ∃ t, exec (.laneOfferTimeout n) s = .next t ∧ (t.link n).st = .limping ∧ t.obj 0x7010 n = 1 ∧
          LastEvent s t { code := 0x0502, cls := .degraded, die := n % 0x10, d0 := n, d1 := 1 + 2 ^ 31 })))

/-- R304, R306, R307, R316 to R318: a fenced die's cores stop with their queues empty and the package leaves its job; a rejoin returns
the die to service with its memory unmapped, or leaves it fenced with the failing step; a substitution moves a quarantined core's
coordinate to the die's spare core, and without one the core is lost. -/
def Obligations.DiesAndCores : Prop :=
  ∀ (s u : State) (r : NapReq) (d cause c : Nat) (o : RejoinOutcome),
    (s.power.phase = .run → s.dieUp d = true →
      (∃ t, exec (.dieFence d cause) s = .next t ∧ t.obj 0x8010 d = 1 ∧ t.obj 0x8010 (0x10 + d) = cause % 65536 ∧
        (∀ e, e / 16 = d → e % 16 < 14 → t.obj 0x4012 e = (s.core e).run.code ∧ (t.core e).run = .idle ∧
          ∀ q, q < 7 → ((t.core e).queue q).waiting = []) ∧
        (s.job.left = false → t.job.left = true ∧ t.job.st = 0 ∧
          Sends s t s.master 8 (faultReportValue s.job.attempt s.position 0x0503 s.position))) ∧
      ∃ t, exec (.keepaliveTimeout d) s = .next t ∧ t.obj 0x8010 d = 1 ∧ (s.job.left = false → t.job.left = true)) ∧
    (s.power.phase = .run → s.dieUp d = false → exec (.dieFence d cause) s = .next s ∧ exec (.keepaliveTimeout d) s = .next s) ∧
    (OwnerWrites s r 0x8015 1 u → d = leNat (valueOf s r) →
      (u.part.dies ≤ d → ∃ t, exec (.dieRejoin r) s = .next t ∧ Answers u t r 9 0 []) ∧
      (d < u.part.dies → u.job.st = 1 ∨ u.job.st = 3 → ∃ t, exec (.dieRejoin r) s = .next t ∧ Answers u t r 8 0 []) ∧
      (u.job.st = 0 → d < u.part.dies → u.obj 0x8010 d = 1 → ∃ t, exec (.dieRejoin r) s = .next t ∧ Done (u.setObj 0x8010 d 2) t r) ∧
      (u.job.st = 0 → d < u.part.dies → u.obj 0x8010 d ≠ 1 → ∃ t, exec (.dieRejoin r) s = .next t ∧ Answers u t r 4 0 [])) ∧
    (firstBelow s.part.dies (fun d => s.obj 0x8010 d = 2) = some d →
      (o.status % 256 = 0 → s.refLocked d = true → s.obj 0x7010 d ≠ 0 → s.microcode ≠ none → s.wornStack d = false → ∃ t, exec (.dieRejoinComplete o) s = .next t ∧ t.obj 0x8010 d = 0 ∧
        t.obj 0x8015 2 = 0 ∧ t.mem = { Tiered.reset with retired := s.mem.retired } ∧ (∀ e, e / 16 = d → t.core e = { CoreState.reset with score := (t.core e).score }) ∧
        (∀ e, e / 16 ≠ d → t.core e = s.core e) ∧ LastEvent s t { code := 0x0504, cls := .note, die := d }) ∧
      (o.status % 256 ≠ 0 → o.step ≤ 2 ∨ (o.step = 3 ∧ s.refLocked d = true) → ∃ t, exec (.dieRejoinComplete o) s = .next t ∧ t.obj 0x8010 d = 1 ∧
        t.obj 0x8015 2 = o.status % 256 + o.step * 256 ∧ t.mem = s.mem)) ∧
    (s.part.hasCore c = true → s.obj 0x8012 c = 1 → s.dieUp (c / 16) = true → s.job.left = false →
      (s.job.st = 0 ∨ s.job.st = 3 ∨ s.stepEnd = true →
        (s.spareCore (c / 16) = 0 → ∃ t, exec (.coreSubstitution c) s = .next t ∧ t.obj 0x8012 c = 2 ∧ t.obj 0x8011 (c / 16) = 1 ∧
          c ∈ t.nv.subst ∧ t.core c = { s.core c with engines := (t.core c).engines, score := 0, poison := (t.core c).poison, flips := [] } ∧
          (∀ x ∈ (t.core c).engines, x.2.faults = []) ∧ (∀ e, e ≠ c → t.core e = s.core e) ∧
          (∀ l, l ∈ (t.core c).poison ↔ l ∈ (s.core c).poison ∨ ∃ w ∈ (s.core c).flips, 2 ≤ flipCount w.2 ∧ w.1 / 8 = l) ∧
          t.job = s.job ∧ LastEvent s t (Event.at { code := 0x0109, cls := .note } c)) ∧
        (s.spareCore (c / 16) ≠ 0 → ∃ t, exec (.coreSubstitution c) s = .next t ∧ t.job.left = true ∧
          Sends s t s.master 8 (faultReportValue s.job.attempt s.position 0x010A s.position))) ∧
      (s.job.st = 1 ∨ s.job.st = 2 → s.stepEnd = false → exec (.coreSubstitution c) s = .next s))

/-- R24, R26, R32, R191, R198, R200, R201, R204, R209, R320, R322: at an epoch's close every page's heat decays; a move's end remaps its
page, behind the moves of earlier closes; a demand promotion brings its page to a stack or delivers its data alone; a merged tile
lands and its lock goes on, and a holder that waits reads its tile. Scrub counts what it corrects, records and retires a line that
needs it twice, poisons a line that it cannot correct, and marks a tile page's line that it resolves wrongly. -/
def Obligations.MemoryUpkeep : Prop :=
  ∀ (s : State) (k n a b tier line : Nat) (p : Page) (counts : List Nat),
    (s.job.st = 1 → exec .epochClose s = .next s) ∧
    ((s.mem.pages.map Prod.fst).Nodup → s.job.st ≠ 1 → ∃ t, exec .epochClose s = .next t ∧ t.mem.cells = s.mem.cells ∧
      (∀ k p, s.page k = some p → ∃ q, t.page k = some q ∧ q.heat = Nat.min 65535 (p.heat / 2 + p.acc / 2) ∧ q.acc = 0 ∧
        q.frame = p.frame ∧ q.leadCnt = p.leadCnt ∧ q.prevCnt = p.leadCnt) ∧
      ∀ c, (t.core c).score = (s.core c).score - (s.core c).score / 8) ∧
    (s.page k = some p → k < retainedBase →
      (p.move = none → exec (.pageMoveComplete k) s = .next s) ∧
      (p.move ≠ none → s.movesAhead p.order = true → exec (.pageMoveComplete k) s = .next s) ∧
      (∀ f, p.move = some f → s.movesAhead p.order = false → p.later = [] → s.errorLines p.frame 0 (64 * s.keySectors k) = [] →
        n = (if f.tier = 16 then 2 else if p.frame.tier = 16 then 1 else 3) →
        ∃ t, exec (.pageMoveComplete k) s = .next t ∧ t.page k = some { p with frame := f, move := none, demand := none, fetched := false } ∧
          t.mem.cells = s.mem.cells ∧ (∀ j, j ≠ k → t.page j = s.page j) ∧ t.obj 0x6026 n = (s.obj 0x6026 n + 1) % 2 ^ 64 ∧
          ∀ l ∈ p.poison, p.frame.first + l / 64 ∈ t.retiredIn p.frame.tier)) ∧
    (s.page k = some p →
      (p.demand = none → exec (.demandPromotionComplete k) s = .next s) ∧
      (∀ d x, p.demand = some d → p.later = [] → x = (s.dieOrder d).findSome? (fun e => s.allocOnDie e p.frame.sectors (s.reserveOf .hub)) →
        (x = none → ∃ t, exec (.demandPromotionComplete k) s = .next t ∧ t = s.setPage k (some { p with demand := none, fetched := true })) ∧
        (∀ y, x = some y → p.frame.tier = 16 → s.errorLines p.frame 0 (64 * s.keySectors k) = [] → ∃ t q, exec (.demandPromotionComplete k) s = .next t ∧ t.page k = some q ∧ q.frame = y.1 ∧ q.demand = none ∧
          t.mem.cells = s.mem.cells ∧ t.obj 0x6026 1 = (s.obj 0x6026 1 + 1) % 2 ^ 64))) ∧
    (∀ m r, mget [] s.mem.locks a = [m] → s.regionAt a = some r → (a - r.base) % r.form.stride = 0 → s.page (s.pageKey a) ≠ none →
      (∀ bs, m.merged = some bs → bs.length = r.form.raw → s.mergeOpen m = true →
        ∃ t, exec (.mergeLockGrant a) s = .next t ∧ t.mem.cells = wrBytes s.mem.cells a bs ∧ mget [] t.mem.locks a = [] ∧
          ∀ c d, m.agent = .core c → m.desc = some d →
            (∀ e ∈ s.mem.locks, e.1 ≠ a → ∀ x ∈ e.2, x.agent = .core c → ∀ y, x.desc = some y → y.num ≠ d.num) →
            d.num ∉ (t.core c).tmQ.begun) ∧
      (m.merged = none → m.whole a r = false → PieceSound s m.agent (s.pieceAt a r.form.raw) →
        ∃ t, exec (.mergeLockGrant a) s = .next t ∧ t.mem.cells = s.mem.cells ∧
          mget [] t.mem.locks a = [{ m with merged := some (s.mergeTile a r m) }])) ∧
    (s.power.phase = .run → s.dieUp n = true → counts.length = 14 → ∃ t, exec (.beatWindowClose n counts) s = .next t ∧
      t = { s with dict := t.dict } ∧ ∀ c, c < 14 → t.obj 0xA110 (16 * n + c) = counts.getD c 0 / 1000 % 2 ^ 32) ∧
    (s.power.phase = .run → n < s.part.dies →
      (0x20 + n ∈ s.power.locked → exec (.delayCounterCalibrate n) s = .next (s.setObj 0xA120 n 0)) ∧
      (0x20 + n ∉ s.power.locked → exec (.delayCounterCalibrate n) s = .next s)) ∧
    (s.power.phase = .run → ∃ t, exec (.matchedDelayCalibrate n a b) s = .next t ∧
      t = { s with power := { s.power with delays := t.power.delays } } ∧ 11 * a ≤ 10 * mget 0 t.power.delays n ∧
      b ≤ mget 0 t.power.delays n ∧ (11 * a ≤ 10 * b → mget 0 t.power.delays n = b)) ∧
    (s.power.phase = .run → n < s.part.stacks → s.dieUp (n / 2) = true → ∃ t, exec (.rowDisturbRefresh n a) s = .next t ∧
      t = { s with dict := t.dict } ∧ t.obj 0x801B n = (s.obj 0x801B n + 1) % 2 ^ 64) ∧
    (s.power.phase = .run → tier ≤ 16 → s.scrubs tier = true → line < s.tierLines tier →
      ∀ struck dec, dec = (tierCode tier).decode (s.patternOf tier line struck) →
        (dec = .clean [] → ∃ t, exec (.scrubLine tier line struck) s = .next t ∧ t.log = s.log ∧ t.mem.cells = s.mem.cells ∧
          t.mem.pages = s.mem.pages ∧ 2 ^ 40 * tier + line ∉ t.mem.ceSeen ∧
          (line + 1 = s.tierLines tier → t.obj 0x801A tier = (s.obj 0x801A tier + 1) % 2 ^ 32)) ∧
        (dec = .corrected [] → ∃ t, exec (.scrubLine tier line struck) s = .next t ∧ t.mem.cells = s.mem.cells ∧
          t.mem.pages = s.mem.pages ∧ 2 ^ 40 * tier + line ∈ t.mem.ceSeen ∧ mget [] t.mem.errors (2 ^ 40 * tier + line) = [] ∧
          (if tier = 16 then t.obj 0x6024 0 = (s.obj 0x6024 0 + 1) % 2 ^ 64 else t.obj 0x6022 tier = (s.obj 0x6022 tier + 1) % 2 ^ 64) ∧
          (2 ^ 40 * tier + line ∉ s.mem.ceSeen → t.log = s.log) ∧
          (2 ^ 40 * tier + line ∈ s.mem.ceSeen → 2 ^ 40 * tier + line ∈ t.mem.retireDue ∧
            LastEvent s t {
              code := if tier = 16 then 0x0402 else 0x0401,
              cls := .corrected,
              die := if tier = 16 then 8 else tier / 2,
              unit := if tier = 16 then (s.bwChannel (line / 64)).1 else tier,
              d0 := line % 2 ^ 32 })) ∧
        (dec = .uncorrectable → line < 64 * s.tierSectors tier → ∃ t, exec (.scrubLine tier line struck) s = .next t ∧
          t.mem.cells = s.mem.cells ∧
          (if tier = 16 then t.obj 0x6025 0 = (s.obj 0x6025 0 + 1) % 2 ^ 64 else t.obj 0x6023 tier = (s.obj 0x6023 tier + 1) % 2 ^ 64) ∧
          ∀ j q, s.pageOfLine tier line = some (j, q) →
            t.page j = some { q with poison := sIns q.poison (line - 64 * q.frame.first) }) ∧
        (∀ left j q, left ≠ [] → dec = .clean left ∨ dec = .corrected left → s.pageOfLine tier line = some (j, q) → j % 2 = 1 →
          ∃ t, exec (.scrubLine tier line struck) s = .next t ∧
            t.page j = some { q with damaged := sIns q.damaged (line - 64 * q.frame.first) }))

/-- R349 to R354, R357, R359, R363, R364: a quote is signed over nonce, EVENT_SEQ, the measurement log's digest and the log, and is refused
where the identity key has been erased; a rotated manifest key is of the
next generation; a checked bank image goes to the bank not in use, or in recovery to bank A with a reset. A sensor that trips raises
the level at once, ERASE zeroises every key but the identity key, and LOCK takes the package out of its job; ALERT alone clears. -/
def Obligations.Security : Prop :=
  ∀ (s u : State) (r : NapReq) (sensor source offset : Nat) (bs nonce body : List Byte),
    (Ready s r 0x9021 1 u → nonce = (valueOf s r) →
      (nonce.length = 32 → u.hasKey 0 = true → body = nonce ++ leBytes 8 u.eventSeq ++ sha3 (u.blob 0x1011 0) ++ u.blob 0x1011 0 →
        ∃ t v, exec (.attestNonce r) s = .next t ∧ Done v t r ∧
          v.blob 0x9021 2 = body ++ padTo 2420 (Config.mldsaSign 0 (u.keyGen 0) body) ∧ v = { u with blobs := v.blobs, blobVer := v.blobVer }) ∧
      (nonce.length = 32 → u.hasKey 0 = false → ∃ t, exec (.attestNonce r) s = .next t ∧ Answers u t r 7 0 []) ∧
      (nonce.length ≠ 32 → ∃ t, exec (.attestNonce r) s = .next t ∧ Answers u t r 4 0 [])) ∧
    (OwnerWrites s r 0x9003 1 u → leNat (valueOf s r) = 1 →
      (u.job.st ≠ 0 ∨ u.ckpt.cut ≠ none → ∃ t, exec (.manifestKeyRotate r) s = .next t ∧ Answers u t r 8 0 []) ∧
      (u.job.st = 0 → u.ckpt.cut = none → ∃ t v, exec (.manifestKeyRotate r) s = .next t ∧ Done v t r ∧ v.hasKey 1 = true ∧
        v.keyGen 1 = (u.keyGen 1 + 1) % 2 ^ 24 ∧ (∀ k, k ≠ 1 → v.keyGen k = u.keyGen k ∧ v.hasKey k = u.hasKey k) ∧
        LastEvent u v { code := 0x0A06, cls := .note, die := 8, d0 := v.keyGen 1 })) ∧
    (OwnerWrites s r 0x9003 2 u → ∀ x now, x = bs.take (u.pf0Reg 0x10 - leNat (valueOf s r)) → now = (if u.bootBank = 1 then 1 else 0) →
      (u.job.st ≠ 0 → ∃ t, exec (.imageUpdate r (.data bs)) s = .next t ∧ Answers u t r 8 0 []) ∧
      (u.job.st = 0 → u.windowStatus x ≠ 0 → ∃ t, exec (.imageUpdate r (.data bs)) s = .next t ∧
        Answers (u.interrupt 5) t r (u.windowStatus x) 0 []) ∧
      (u.job.st = 0 → u.windowStatus x = 0 → ∃ t v rec', exec (.imageUpdate r (.data bs)) s = .next t ∧ Done v t r ∧
        v = { u.interrupt 5 with sec := v.sec } ∧ rec' = mget [] v.sec.records (1 - now) ∧ bankOk rec' = true ∧
        wd rec' 1 = (wd (mget [] u.sec.records now) 1 + 1) % 2 ^ 32 ∧
        mget [] v.sec.records now = mget [] u.sec.records now ∧ mget [] v.sec.banks now = mget [] u.sec.banks now)) ∧
    (s.power.phase = .recovery → ∀ x, x = bs.take (s.pf0Reg 0x10 - offset) →
      (s.windowStatus x = 0 → ∃ t, exec (.recoveryDoorbell offset (.data bs)) s = .next t ∧ t.power.phase = .stretch ∧ t.power.cause = 2 ∧
        bankOk (mget [] t.sec.records 0) = true ∧ mget [] t.sec.records 1 = mget [] s.sec.records 1 ∧ t.cores = []) ∧
      (s.windowStatus x ≠ 0 → ∃ t, exec (.recoveryDoorbell offset (.data bs)) s = .next t ∧ t.power = s.power ∧ t.sec = s.sec ∧
        bits (t.pf0Reg 0x18) 8 8 = s.windowStatus x)) ∧
    (s.power.phase ≠ .recovery → exec (.recoveryDoorbell offset (.data bs)) s = .next s) ∧
    (s.armed sensor source = true → ∃ t, exec (.alarmSensorTrip sensor source) s = .next t ∧
      t.alarmLevel = Nat.max s.alarmLevel (s.sensorLevel sensor + 1) ∧ bitOf (t.obj 0x9020 2) sensor = true ∧
      t.sec.count = s.sec.count + 1 ∧ (1 ≤ s.sensorLevel sensor → t.power.alarmN = true) ∧
      (s.sensorLevel sensor < 2 → t.sec.held = s.sec.held) ∧
      (s.sensorLevel sensor = 2 → (∀ k, 1 ≤ k → t.hasKey k = false) ∧ ∀ k, (t.slot k).key = none) ∧
      (s.power.phase = .run → s.alarmLevel ≤ s.sensorLevel sensor → 1 ≤ s.sensorLevel sensor → t.job.left = true)) ∧
    (s.armed sensor source = false → exec (.alarmSensorTrip sensor source) s = .next s) ∧
    (sensor < 4 → ∃ t, exec (.alarmSensorClear sensor) s = .next t ∧ bitOf (t.obj 0x9020 2) sensor = false ∧
      (s.alarmLevel = 1 → (∀ x ∈ s.sec.raised, x.1 ≠ sensor → bitOf (s.obj 0x9020 2) x.1 = false) → t.alarmLevel = 0) ∧
      (s.alarmLevel ≠ 1 → t.alarmLevel = s.alarmLevel))

/-- R27, R215, R233, R361, R375 to R381: a training brings the port to authentication at its width or tries again; authentication passes through
its steps and puts the link key and the peer in place; frames leave in the order of the channels with credit, SIDEBAND first, through
the boundary queue, but none while a package that took a position has a peer to check; a frame in order is delivered, a BKG record for another position goes on towards it, and any other frame asks once for a replay; a port of a running job that stays down is reported. -/
def Obligations.Ports : Prop :=
  ∀ (s : State) (n : Nat) (own peer : BitVec 4) (k : LinkKeys) (f : PortFrame) (p : Port), n < 6 → p = s.port n →
    (s.canTrain n = false → exec (.portTrain n own peer) s = .next s) ∧
    (s.canTrain n = true →
      (portWidth (own &&& peer) = 0 → p.tries < 4 → ∃ t, exec (.portTrain n own peer) s = .next t ∧ (t.port n).tries = p.tries + 1 ∧
        t.obj 0x7002 n = 1 ∧ t.obj 0x7003 n = 0) ∧
      (portWidth (own &&& peer) = 0 → 4 ≤ p.tries → ∃ t, exec (.portTrain n own peer) s = .next t ∧ t.obj 0x7002 n = 4) ∧
      (portWidth (own &&& peer) ≠ 0 → s.hasKey 0 = true → ∃ t nonce, exec (.portTrain n own peer) s = .next t ∧
        t.obj 0x7003 n = portWidth (own &&& peer) ∧ t.obj 0x7002 n = 2 ∧ nonce.length = 32 ∧
        .linkAuth n (.hello Config.identityCert nonce s.position n) ∈ t.out)) ∧
    (s.obj 0x7002 n = 2 → p.auth = some k →
      (∀ cert nonce pos port, k.stage = 1 →
        (certOk cert = false → ∃ t, exec (.linkAuthReceive n (.hello cert nonce pos port)) s = .next t ∧ t.obj 0x7002 n = 4) ∧
        (certOk cert = true → initiates s.position n pos port = true → ∃ t ek, exec (.linkAuthReceive n (.hello cert nonce pos port)) s = .next t ∧
          t.out = s.out ++ [.linkAuth n (.encapKey ek)] ∧ (t.port n).auth = some { k with
            peerNonce := nonce, peerKey := cert.take 1312, peerPos := pos, peerPort := port, gen := s.free, encap := ek, stage := 3 }) ∧
        (certOk cert = true → initiates s.position n pos port = false → ∃ t, exec (.linkAuthReceive n (.hello cert nonce pos port)) s = .next t ∧
          t.out = s.out ∧ (t.port n).auth = some { k with
            peerNonce := nonce, peerKey := cert.take 1312, peerPos := pos, peerPort := port, stage := 2 })) ∧
      (∀ ek, k.stage = 2 → ∃ t ct sig, exec (.linkAuthReceive n (.encapKey ek)) s = .next t ∧
        t.out = s.out ++ [.linkAuth n (.ciphertext ct), .linkAuth n (.signature sig)] ∧ (t.port n).auth = some { k with
          encap := ek, ct := ct, secret := padTo 32 (Config.mlkemEncaps ek s.free).2, stage := 4 }) ∧
      (∀ ct, k.stage = 3 → ∃ t sig, exec (.linkAuthReceive n (.ciphertext ct)) s = .next t ∧
        t.out = s.out ++ [.linkAuth n (.signature sig)] ∧ (t.port n).auth = some { k with
          ct := ct, secret := padTo 32 (Config.mlkemDecaps k.gen ct), stage := 4 }) ∧
      (∀ sig found, k.stage = 4 → found = k.peerPos % 4096 + k.peerPort % 8 * 2 ^ 12 →
        (s.hasKey 0 = true → Config.mldsaVerify k.peerKey (s.linkBody n k k.nonce) sig = true →
          (bitOf (s.obj 0x7020 n) 15 = false ∨ bits (s.obj 0x7020 n) 0 15 = found → ∃ t, exec (.linkAuthReceive n (.signature sig)) s = .next t ∧
            t.obj 0x7002 n = 3 ∧ t.obj 0x7022 n = found + 2 ^ 15 ∧ (t.port n).key = padTo 32 k.secret ∧ t.obj 0x9020 4 = 0) ∧
          (bitOf (s.obj 0x7020 n) 15 = true → bits (s.obj 0x7020 n) 0 15 ≠ found → ∃ t, exec (.linkAuthReceive n (.signature sig)) s = .next t ∧
            t.obj 0x7002 n = 4 ∧ t.obj 0x7022 n = found + 2 ^ 15 + 2 ^ 16 ∧
            LastEvent s t { code := 0x0601, cls := .degraded, d0 := n, d1 := found })) ∧
        (Config.mldsaVerify k.peerKey (s.linkBody n k k.nonce) sig = false → ∃ t, exec (.linkAuthReceive n (.signature sig)) s = .next t ∧
          t.obj 0x7002 n = 4))) ∧
    (s.cas.adopting = true → exec (.portFrameSend n) s = .next s) ∧
    (s.boundaryFull (rxQueue (portDomain n)) = true → exec (.portFrameReceive n f) s = .next s) ∧
    (s.power.phase = .run → s.obj 0x7002 n = 3 → s.cas.adopting = false →
      ((∀ v, v < 4 → p.ready v = false) ∨ 256 ≤ p.unacked.length → ∃ (t : State) (c : Nat × Nat), exec (.portFrameSend n) s = .next t ∧
        t.out = s.out ++ [.portFrame n p.next p.last p.nak 4 c.1 c.2 []] ∧ (t.port n).next = p.next ∧ (t.port n).unacked = p.unacked) ∧
      ((∃ v, v < 4 ∧ p.ready v = true) → p.unacked.length < 256 → ∃ (t : State) (v : Nat) (c : Nat × Nat) (body : List Byte), exec (.portFrameSend n) s = .next t ∧ v < 4 ∧
        p.ready v = true ∧ (p.ready 2 = true → v = 2) ∧ body = (p.bytes v).take 4096 ∧
        t.out = s.out ++ [.portFrame n p.next p.last p.nak v c.1 c.2 body] ∧ (t.port n).next = (p.next + 1) % 4096 ∧
        (t.port n).unacked = p.unacked ++ [⟨p.next, v, c, body⟩] ∧ mget 0 (t.port n).credit v = mget 0 p.credit v - 1 ∧
        ∀ q, q = txQueue (portDomain n) → (s.boundary q).length ≤ boundaryDepth →
          t.boundary q = (if s.boundaryFull q then (s.boundary q).drop 1 else s.boundary q) ++ [body])) ∧
    (s.power.phase = .run → s.obj 0x7002 n = 3 → s.boundaryFull (rxQueue (portDomain n)) = false →
      (f.crcGood = true → f.condemned = false → f.seq = (p.last + 1) % 4096 → f.pvc < 4 → f.pvc ≠ 2 →
        ∀ all, all = mget [] p.rx f.pvc ++ f.payload.take 4096 → ∃ t l, exec (.portFrameReceive n f) s = .next t ∧ t.out = s.out ++ l ∧
          (∀ x ∈ (takeRecords f.pvc all.length all).1, (f.pvc = 3 → s.bkgDest x = s.position) → .delivered n f.pvc x ∈ l) ∧
          (∀ x ∈ (takeRecords f.pvc all.length all).1, ∀ q, f.pvc = 3 → s.bkgDest x ≠ s.position → s.route (s.bkgDest x) = some q →
            x ∈ mget [] (t.port q).tx 3) ∧ (t.port n).last = f.seq ∧ (t.port n).gap = false ∧
          mget [] (t.port n).rx f.pvc = (takeRecords f.pvc all.length all).2 ∧
          (t.port n).unacked = p.unacked.filter (fun (x : SentFrame) => 2048 ≤ (f.ack + 4096 - x.seq) % 4096)) ∧
      (f.crcGood = false ∨ f.condemned = true ∨ f.seq ≠ (p.last + 1) % 4096 → ∃ t, exec (.portFrameReceive n f) s = .next t ∧
        (t.port n).last = p.last ∧ (t.port n).rx = p.rx ∧ (t.port n).unacked = p.unacked ∧ (t.port n).gap = true ∧
        (p.gap = false → (t.port n).nak = true) ∧ (p.gap = true → (t.port n).nak = p.nak))) ∧
    (s.power.phase = .run → s.obj 0x7002 n = 3 → ∃ t, exec (.portReplayTimeout n) s = .next t ∧ t = { s with dict := t.dict, out := t.out } ∧
        t.out = s.out ++ p.unacked.map (fun (x : SentFrame) => .portFrame n x.seq p.last false x.pvc x.back.1 x.back.2 x.payload)) ∧
    (s.power.phase = .run → n < s.part.ports → s.job.st = 1 → s.job.left = false → bitOf (s.obj 0x7020 n) 15 = true → s.obj 0x7002 n ≠ 3 →
      ∃ t, exec (.portDownTimeout n) s = .next t ∧ Sends s t s.master 8 (faultReportValue s.job.attempt s.position 0x0502 0xFFFF) ∧
        (p.downAt = none → (t.port n).downRun = 1 ∧ t.job = s.job) ∧
        (∀ a, p.downAt = some a → a ≠ s.job.attempt → (a + 1) % 16 = s.job.attempt → p.downRun = 2 →
          bits (s.obj 0x7020 n) 0 12 < s.position → t.job.left = true))

/-- R276, R277, R369 to R373, R382, R386: a function-level reset clears its function, with the host's part of an open cut and PF1's
sessions; PF0's registers take the writes that they accept; the management port answers what R382 lists and counts what it drops;
TRST_N frees the lands. -/
def Obligations.HostSide : Prop :=
  ∀ (s : State) (offset value a : Nat) (f : MgmtFrame),
    (s.power.phase = .run →
      (∃ t, exec .pf0Flr s = .next t ∧ (∀ x, x ≠ 0x44 → t.pf0Reg x = 0) ∧ t.cores = s.cores ∧
        (∀ c, s.ckpt.cut = some c → c.goes 0 = true → ∃ d, t.ckpt.cut = some d ∧ d.done = true)) ∧
      (∃ t, exec .pf1Flr s = .next t ∧ t.nap.rspLen = [] ∧
        (∀ k j, k < 32 → (s.slot k).carrier = .pf1 j → (t.slot k).isOpen = false) ∧
        (∀ k, (∀ j, (s.slot k).carrier ≠ .pf1 j) → t.slot k = s.slot k)) ∧
      ∃ t, exec .pcieHotReset s = .next t ∧ (∀ x, x ≠ 0x44 → t.pf0Reg x = 0) ∧ t.nap.rspLen = [] ∧
        (∀ k j, k < 32 → (s.slot k).carrier = .pf1 j → (t.slot k).isOpen = false) ∧ (t.obj 0x7001 1 = 0 → t.obj 0x7001 2 = 0)) ∧
    (s.power.phase = .recovery → exec .pf0Flr s = .next { s with pf0 := [(0x18, 1)] }) ∧
    (s.power.phase = .run → ∃ t, exec (.pf0RegisterWrite offset value) s = .next t ∧ t = { s with pf0 := t.pf0 } ∧
      (∀ x, x ≠ offset → t.pf0Reg x = s.pf0Reg x) ∧
      (offset = 0x08 → t.pf0Reg 0x08 = value % 2 ^ 64 / 4096 * 4096) ∧ (offset = 0x10 → t.pf0Reg 0x10 = value % 2 ^ 32 / 4096 * 4096) ∧
      (offset = 0x20 → t.pf0Reg 0x20 = if bitOf (s.pf0Reg 0x2C) 0 then s.pf0Reg 0x20 else value % 2 ^ 64 / 4096 * 4096) ∧
      (offset = 0x28 → bitOf (s.pf0Reg 0x2C) 0 = true ∨ ringSizeOk (value % 2 ^ 32) = false → t = s) ∧
      (offset = 0x28 → bitOf (s.pf0Reg 0x2C) 0 = false → ringSizeOk (value % 2 ^ 32) = true → t.pf0Reg 0x28 = value % 2 ^ 32) ∧
      (offset = 0x2C → t.pf0Reg 0x2C = value % 4) ∧ (offset = 0x34 → t.pf0Reg 0x34 = value % 2 ^ 32) ∧
      (offset = 0x44 → ∀ i, i < 32 → bitOf (t.pf0Reg 0x44) i = (bitOf (s.pf0Reg 0x44) i && !bitOf value i)) ∧
      (offset ∉ [0x08, 0x10, 0x20, 0x28, 0x2C, 0x34, 0x44] → t = s)) ∧
    (s.power.phase = .run → 7 ∈ s.power.locked →
      (f = .tagged ∨ f = .other → exec (.mgmtFrameReceive f) s = .next (s.addObj 0x700A 3 64 1)) ∧
      (f = .pause → exec (.mgmtFrameReceive f) s = .next s) ∧
      (f = .arp a → ∃ t, exec (.mgmtFrameReceive f) s = .next t ∧
        (s.obField 6 1 1 = 1 ∧ a = s.obField 7 0 32 → t.obj 0x700A 2 = (s.obj 0x700A 2 + 1) % 2 ^ 64 ∧
          t.out = s.out ++ [.mgmt (Config.mgmtReply f)]) ∧
        (¬ (s.obField 6 1 1 = 1 ∧ a = s.obField 7 0 32) → t.obj 0x700A 3 = (s.obj 0x700A 3 + 1) % 2 ^ 64 ∧ t.out = s.out)) ∧
      (f = .neighbour true → s.ipv6 = true → ∃ t, exec (.mgmtFrameReceive f) s = .next t ∧ t.ipv6 = false) ∧
      (∀ v6 frag good addr src own dst payload, f = .udp v6 frag good addr src own dst payload →
        (∀ q, (if v6 then s.ipv6 else s.ipv4) = true → frag = false → good = true → own = s.mgmtAddr v6 → dst = 20025 →
          parseReq (.udp addr src) payload = some q → s.nap.queue.length < 64 → ∃ t, exec (.mgmtFrameReceive f) s = .next t ∧
            t.nap.queue = s.nap.queue ++ [q] ∧ t.obj 0x700A 2 = (s.obj 0x700A 2 + 1) % 2 ^ 64 ∧ t.out = s.out) ∧
        ((if v6 then s.ipv6 else s.ipv4) = false ∨ frag = true ∨ good = false ∨ own ≠ s.mgmtAddr v6 ∨ dst ≠ 20025 →
          exec (.mgmtFrameReceive f) s = .next (s.addObj 0x700A 3 64 1)))) ∧
    exec .trstNAssert s = .next { s with power := { s.power with extest := false } }

/-- Every command is answered by a next state: the package has no state in which it stops. One step runs exec on the command at the front
of the queue with the queue's rest. What an idle block does is the model's choice (logs 1, 171, 176): its boundary queues
drain, and an upset may strike a bit of core memory or a symbol of a line; nothing else changes. -/
def Obligations.StepRunsFront : Prop :=
  (∀ (c : Instr) (s : State), step { s with pending := c :: s.pending } = exec c s) ∧
  (∀ s : State, s.pending = [] → step s = .next s.idle ∧ s.idle = { s with
    bq := s.idle.bq, free := s.idle.free, cores := s.idle.cores, mem := { s.mem with errors := s.idle.mem.errors } } ∧
    (∀ k, s.idle.boundary k = []) ∧ ∀ c, s.idle.core c = { s.core c with flips := (s.idle.core c).flips }) ∧
  ∀ (c : Instr) (s : State), ∃ t, exec c s = .next t

/-- R143: the word of every control-core instruction with an encoding decodes to that instruction, whatever its operands, but for DESC with
QUEUE code 7 and FTQRD with RD s31, whose words are reserved. -/
def Obligations.CoreWordRoundTrip : Prop :=
  (∀ (i : Instr) (w : Nat), encodeCoreWord i = some w → w < 2 ^ 32 ∧
    ((∀ c rd ra, i ≠ .desc c 7 rd ra) → (∀ c, i ≠ .ftqrd c 31) → ∃ core, decodeCoreWord core (BitVec.ofNat 32 w) = i)) ∧
  ∀ (c w : Nat) (rd ra : Reg), encodeCoreWord (.desc c 7 rd ra) = some w ∨ encodeCoreWord (.ftqrd c 31) = some w →
    decodeCoreWord c (BitVec.ofNat 32 w) = .reservedInstruction c (BitVec.ofNat 32 w)

/-- Byte memories stay in their canonical form at every step, so that equal memories are equal data: no entry is lost or doubled. -/
def Obligations.CanonicalKept : Prop := ∀ s t : State, Canonical s → step s = .next t → Canonical t

/-- The package after reset has its byte memories in canonical form. -/
def Obligations.CanonicalAtReset : Prop := Canonical State.reset

/-- R30, R216, R310, R311, R373: an event record takes the next count, or count 1 of the next epoch; it is the newest of the log, which keeps 4,096;
while the telemetry ring is enabled it goes to slot TELEM_HEAD, or is counted as a drop where the ring is full; class FAULT, HALT or
ALARM raises vector 0. A save-store fault follows an epoch that cannot be stored, and ROUTE_MISSING a NOTIFY without a route. -/
def Obligations.EventRecords : Prop :=
  ∀ (s t : State) (e : Event) (r : List Byte), t = s.recordOne e → r = e.record t.log.epoch t.log.count s.job.step s.position →
    (∀ w, w = (if s.epochUnstored then t.recordOne { code := 0x0507, cls := .degraded } else t) →
      (s.unrouted = [] → s.record e = w) ∧
      ∀ p, s.unrouted = [p] → s.record e = w.recordOne { code := 0x0602, cls := .degraded, d0 := p }) ∧
    (s.log.count ≠ 0xFFFFFFFF → t.log.count = s.log.count + 1 ∧ t.log.epoch = s.log.epoch ∧ t.nv = s.nv) ∧
    (s.log.count = 0xFFFFFFFF → t.log.count = 1 ∧ t.log.epoch = s.log.epoch + 1 ∧
      (s.nv.writable = true → s.epochUnstored = false ∧ t.nv = { s.nv with epoch := s.log.epoch + 1 }) ∧
      (s.nv.writable = false → s.epochUnstored = true ∧ t.nv = s.nv)) ∧
    (s.log.records.length < 4096 → t.log.records = s.log.records ++ [r] ∧ t.obj 0xB002 4 = s.obj 0xB002 4) ∧
    (4096 ≤ s.log.records.length → t.log.records = s.log.records.drop 1 ++ [r] ∧ t.obj 0xB002 4 = (s.obj 0xB002 4 + 1) % 2 ^ 64) ∧
    r.length = 32 ∧ wd r 0 = t.log.count % 2 ^ 32 ∧ wd r 1 = t.log.epoch % 2 ^ 32 ∧ wd r 2 = s.job.step % 2 ^ 32 ∧
    wd r 3 = s.job.step / 2 ^ 32 % 2 ^ 32 ∧ wd r 6 = e.d0 % 2 ^ 32 ∧ wd r 7 = e.d1 % 2 ^ 32 ∧
    (e.code < 65536 → wb r 4 0 16 = e.code ∧ wb r 4 16 3 = e.cls.code ∧ wb r 4 19 1 = b01 e.selfLost ∧ wb r 4 20 12 = 0) ∧
    (e.die < 16 → e.core < 16 → e.unit < 256 → s.position < 4096 → wb r 5 0 4 = e.die ∧ wb r 5 4 4 = e.core ∧ wb r 5 8 8 = e.unit ∧
      wb r 5 16 12 = s.position ∧ wb r 5 28 4 = 0) ∧
    (bitOf (s.pf0Reg 0x2C) 0 = true → s.pf0Reg 0x28 ≠ 0 →
      ((s.pf0Reg 0x30 + 1) % s.pf0Reg 0x28 ≠ s.pf0Reg 0x34 % s.pf0Reg 0x28 → .hostWrite (s.pf0Reg 0x20 + 32 * s.pf0Reg 0x30) r ∈ t.out ∧
        t.pf0Reg 0x30 = (s.pf0Reg 0x30 + 1) % s.pf0Reg 0x28) ∧
      ((s.pf0Reg 0x30 + 1) % s.pf0Reg 0x28 = s.pf0Reg 0x34 % s.pf0Reg 0x28 → t.pf0Reg 0x30 = s.pf0Reg 0x30 ∧
        (s.pf0Reg 0x38 < 0xFFFFFFFF → t.pf0Reg 0x38 = s.pf0Reg 0x38 + 1))) ∧
    (e.cls = .fault ∨ e.cls = .halt ∨ e.cls = .alarm → bitOf (t.pf0Reg 0x44) 0 = true ∧ .interrupt 0 0 ∈ t.out) ∧
    t.cores = s.cores ∧ t.mem = s.mem ∧ t.job = s.job
end

