-- ==== Sys2Proof/Laws/Digest.lean ====
section
/-! SUPPORT. Lengths of byte strings: little-endian numbers, words and digests. -/

namespace Sys2Proof.Machine

@[simp] theorem leBytes_length (n v : Nat) : (leBytes n v).length = n := by
  induction n generalizing v with
  | zero => rfl
  | succ n ih => simp [leBytes, ih]

@[simp] theorem wordsLE_length (ws : List Nat) : (wordsLE ws).length = 4 * ws.length := by
  induction ws with
  | nil => rfl
  | cons w ws ih => simp only [wordsLE, List.flatMap_cons, List.length_append, leBytes_length, List.length_cons] at *; omega

@[simp] theorem padTo_length (n : Nat) (bs : List Byte) : (padTo n bs).length = n := by
  simp only [padTo, List.length_append, List.length_take, List.length_replicate]; omega

theorem Planes.of_length (f : Nat → Nat → BitVec 64) : (Planes.of f).flatten.length = 25 := by
  simp [Planes.of, List.range, List.range.loop]

theorem Planes.permute_length (a : Planes) : a.permute.flatten.length = 25 := by
  rw [Planes.permute, show List.range 24 = List.range 23 ++ [23] from List.range_succ, List.foldl_append, List.foldl_cons,
    List.foldl_nil, Planes.round]
  exact Planes.of_length _

theorem Planes.absorb_length (a : Planes) (l : List (List Byte)) (h : l ≠ []) : (l.foldl Planes.absorb a).flatten.length = 25 := by
  obtain ⟨k, b, rfl⟩ : ∃ k b, l = k ++ [b] := ⟨_, _, (List.dropLast_concat_getLast h).symm⟩
  rw [List.foldl_append, List.foldl_cons, List.foldl_nil, Planes.absorb]; exact Planes.permute_length _

theorem lanes_length (s : List (BitVec 64)) : (s.flatMap (fun w => leBytes 8 w.toNat)).length = 8 * s.length := by
  induction s with
  | nil => rfl
  | cons w s ih => simp only [List.flatMap_cons, List.length_append, leBytes_length, List.length_cons, ih]; omega

theorem closed_length (suffix : Byte) (msg : List Byte) : 136 ≤ (closed suffix msg).length := by
  simp only [closed, List.length_append, List.length_dropLast, List.length_cons, List.length_nil, List.length_replicate]; omega

/-- A digest has 32 bytes. -/
@[simp] theorem sha3_length (msg : List Byte) : (sha3 msg).length = 32 := by
  have h : records 136 (closed 6 msg) ≠ [] := by
    have l := closed_length 6 msg
    cases e : closed 6 msg with
    | nil => rw [e] at l; exact absurd l (by decide)
    | cons b bs => simp [records, chunks]
  simp only [sha3, sponge, Planes.bytes, List.length_take, lanes_length, Planes.absorb_length _ _ h]; rfl

end Sys2Proof.Machine
end

