-- ==== Sys2Proof/Laws/Maps.lean ====
section
/-! SUPPORT. Sparse maps and byte memories: a read after a write, and the canonical form that every write keeps. -/

namespace Sys2Proof.Machine

theorem mget_mdel_self {V : Type} (d : V) (m : SMap V) (i : Nat) : mget d (mdel m i) i = d := by
  induction m with
  | nil => rfl
  | cons e m ih =>
    obtain ⟨k, v⟩ := e
    by_cases h : k = i <;> simp [mdel, mget, h, ih]

theorem mget_mdel_ne {V : Type} (d : V) (m : SMap V) {i j : Nat} (h : i ≠ j) : mget d (mdel m i) j = mget d m j := by
  induction m with
  | nil => rfl
  | cons e m ih =>
    obtain ⟨k, v⟩ := e
    by_cases hk : k = i
    · subst hk; simp [mdel, mget, h, ih]
    · simp [mdel, mget, hk, ih]

theorem mget_mins_self {V : Type} (d : V) (m : SMap V) (i : Nat) (v : V) : mget d (mins (mdel m i) i v) i = v := by
  induction m with
  | nil => simp [mdel, mins, mget]
  | cons e m ih =>
    obtain ⟨k, w⟩ := e
    by_cases hk : k = i
    · simp [mdel, hk, ih]
    · by_cases hlt : i < k <;> simp [mdel, mins, mget, hk, hlt, ih]

theorem mget_mins_ne {V : Type} (d : V) (m : SMap V) {i j : Nat} (v : V) (h : i ≠ j) : mget d (mins m i v) j = mget d m j := by
  induction m with
  | nil => simp [mins, mget, h]
  | cons e m ih =>
    obtain ⟨k, w⟩ := e
    by_cases hlt : i < k <;> simp [mins, mget, hlt, h, ih]

/-- A read of the key just written gives the value written. -/
@[simp] theorem mget_mset_self {V : Type} [DecidableEq V] (d : V) (m : SMap V) (i : Nat) (v : V) : mget d (mset d m i v) i = v := by
  by_cases h : v = d
  · simp [mset, h, mget_mdel_self]
  · simp [mset, h, mget_mins_self]

/-- A write leaves every other key alone, whatever an unlisted key reads as there. -/
theorem mget_mset_other {V : Type} [DecidableEq V] (d e : V) (m : SMap V) {i j : Nat} (v : V) (h : i ≠ j) :
    mget e (mset d m i v) j = mget e m j := by
  by_cases hv : v = d
  · simp [mset, hv, mget_mdel_ne e m h]
  · simp [mset, hv, mget_mins_ne e _ v h, mget_mdel_ne e m h]

/-- A write leaves every other key alone. -/
theorem mget_mset_ne {V : Type} [DecidableEq V] (d : V) (m : SMap V) {i j : Nat} (v : V) (h : i ≠ j) :
    mget d (mset d m i v) j = mget d m j := mget_mset_other d d m v h

theorem mget_mset {V : Type} [DecidableEq V] (d : V) (m : SMap V) (i j : Nat) (v : V) :
    mget d (mset d m i v) j = if i = j then v else mget d m j := by
  by_cases h : i = j
  · subst h; simp
  · simp [h, mget_mset_ne d m v h]

/-! The canonical form. -/

/-- Keys above `i` only. -/
def keysAbove {V : Type} (i : Nat) (m : SMap V) : Prop := ∀ e ∈ m, i < e.1

theorem mwf_cons {V : Type} [DecidableEq V] (d : V) (k : Nat) (v : V) (m : SMap V) :
    mwf d ((k, v) :: m) = true ↔ v ≠ d ∧ keysAbove k m ∧ mwf d m = true := by
  induction m generalizing k v with
  | nil => simp [mwf, keysAbove]
  | cons e m ih =>
    obtain ⟨k', v'⟩ := e
    simp only [mwf, Bool.and_eq_true, decide_eq_true_eq]
    constructor
    · rintro ⟨⟨hv, hk⟩, hm⟩
      refine ⟨by simpa using hv, ?_, hm⟩
      intro e he
      rcases List.mem_cons.1 he with rfl | he
      · exact hk
      · exact Nat.lt_trans hk (((ih k' v').1 hm).2.1 e he)
    · rintro ⟨hv, hk, hm⟩
      exact ⟨⟨by simpa using hv, hk (k', v') (by simp)⟩, hm⟩

theorem keysAbove_mdel {V : Type} {i : Nat} (j : Nat) {m : SMap V} (h : keysAbove i m) : keysAbove i (mdel m j) := by
  induction m with
  | nil => exact h
  | cons e m ih =>
    obtain ⟨k, v⟩ := e
    have hm : keysAbove i m := fun e he => h e (by simp [he])
    by_cases hk : k = j
    · simp only [mdel, hk, if_true]; exact ih hm
    · simp only [mdel, hk, if_false]
      intro e he
      rcases List.mem_cons.1 he with rfl | he
      · exact h _ (by simp)
      · exact ih hm e he

theorem keysAbove_mins {V : Type} {i j : Nat} (v : V) {m : SMap V} (h : keysAbove i m) (hj : i < j) : keysAbove i (mins m j v) := by
  induction m with
  | nil => intro e he; simp only [mins, List.mem_singleton] at he; subst he; exact hj
  | cons e m ih =>
    obtain ⟨k, w⟩ := e
    have hm : keysAbove i m := fun e he => h e (by simp [he])
    by_cases hlt : j < k
    · simp only [mins, hlt, if_true]
      intro e he
      rcases List.mem_cons.1 he with rfl | he
      · exact hj
      · exact h e he
    · simp only [mins, hlt, if_false]
      intro e he
      rcases List.mem_cons.1 he with rfl | he
      · exact h _ (by simp)
      · exact ih hm e he

theorem mwf_mdel {V : Type} [DecidableEq V] (d : V) {m : SMap V} (i : Nat) (h : mwf d m = true) : mwf d (mdel m i) = true := by
  induction m with
  | nil => rfl
  | cons e m ih =>
    obtain ⟨k, v⟩ := e
    obtain ⟨hv, hk, hm⟩ := (mwf_cons d k v m).1 h
    by_cases hki : k = i
    · simp only [mdel, hki, if_true]; exact ih hm
    · simp only [mdel, hki, if_false]
      exact (mwf_cons d k v _).2 ⟨hv, keysAbove_mdel i hk, ih hm⟩

theorem keysAbove_of_lt {V : Type} {i k : Nat} {m : SMap V} (h : keysAbove k m) (hik : i < k) : keysAbove i m :=
  fun e he => Nat.lt_trans hik (h e he)

theorem mwf_mins {V : Type} [DecidableEq V] (d : V) {m : SMap V} {i : Nat} {v : V} (h : mwf d m = true) (hv : v ≠ d) :
    mwf d (mins (mdel m i) i v) = true := by
  induction m with
  | nil => exact (mwf_cons d i v []).2 ⟨hv, (fun _ he => absurd he (by simp)), rfl⟩
  | cons e m ih =>
    obtain ⟨k, w⟩ := e
    obtain ⟨hw, hk, hm⟩ := (mwf_cons d k w m).1 h
    by_cases hki : k = i
    · simp only [mdel, hki, if_true]; exact ih hm
    · simp only [mdel, hki, if_false]
      by_cases hlt : i < k
      · simp only [mins, hlt, if_true]
        refine (mwf_cons d i v _).2 ⟨hv, ?_, (mwf_cons d k w _).2 ⟨hw, keysAbove_mdel i hk, mwf_mdel d i hm⟩⟩
        intro e he
        rcases List.mem_cons.1 he with rfl | he
        · exact hlt
        · exact Nat.lt_trans hlt (keysAbove_mdel i hk e he)
      · simp only [mins, hlt, if_false]
        exact (mwf_cons d k w _).2 ⟨hw, keysAbove_mins v (keysAbove_mdel i hk) (by omega), ih hm⟩

/-- A write keeps the canonical form. -/
theorem mwf_mset {V : Type} [DecidableEq V] (d : V) {m : SMap V} (i : Nat) (v : V) (h : mwf d m = true) :
    mwf d (mset d m i v) = true := by
  by_cases hv : v = d
  · simp only [mset, hv, if_true]; exact mwf_mdel d i h
  · simp only [mset, hv, if_false]; exact mwf_mins d h hv

/-! Byte memories. -/

@[simp] theorem rdByte_wrByte_self (m : List Host.Cell) (a : Nat) (b : Byte) : rdByte (wrByte m a b) a = b :=
  mget_mset_self 0 m a b

theorem rdByte_wrByte_ne (m : List Host.Cell) {a x : Nat} (b : Byte) (h : a ≠ x) : rdByte (wrByte m a b) x = rdByte m x :=
  mget_mset_ne 0 m b h

theorem mwf_wrByte {m : List Host.Cell} (a : Nat) (b : Byte) (h : mwf 0 m = true) : mwf 0 (wrByte m a b) = true :=
  mwf_mset 0 a b h

theorem mget_append {V : Type} (d : V) (m n : SMap V) (i : Nat) :
    mget d (m ++ n) i = if i ∈ m.map Prod.fst then mget d m i else mget d n i := by
  induction m with
  | nil => simp
  | cons e m ih =>
    obtain ⟨k, v⟩ := e
    by_cases hk : k = i
    · subst hk; simp [mget]
    · simp only [List.cons_append, mget, hk, if_false, ih, List.map_cons, List.mem_cons, Ne.symm hk, false_or]

theorem mget_of_not_mem {V : Type} (d : V) {m : SMap V} {i : Nat} (h : i ∉ m.map Prod.fst) : mget d m i = d := by
  induction m with
  | nil => rfl
  | cons e m ih =>
    obtain ⟨k, v⟩ := e
    simp only [List.map_cons, List.mem_cons, not_or] at h
    simp only [mget, Ne.symm h.1, if_false]; exact ih h.2

theorem mget_filter {V : Type} (d : V) (m : SMap V) (p : Nat → Bool) (i : Nat) (h : p i = true) :
    mget d (m.filter (fun c => p c.1)) i = mget d m i := by
  induction m with
  | nil => rfl
  | cons e m ih =>
    obtain ⟨k, v⟩ := e
    by_cases hp : p k = true
    · simp only [List.filter, hp, mget, ih]
    · have hki : k ≠ i := fun hh => hp (hh ▸ h)
      simp only [List.filter, Bool.not_eq_true] at *
      simp only [hp, mget, hki, if_false, ih]

theorem not_mem_filter {V : Type} (m : SMap V) (p : Nat → Bool) {i : Nat} (h : p i = false) :
    i ∉ (m.filter (fun c => p c.1)).map Prod.fst := by
  intro hi
  obtain ⟨e, he, rfl⟩ := List.mem_map.1 hi
  have := (List.mem_filter.1 he).2
  rw [h] at this; exact absurd this (by simp)

theorem cellsOf_keys (a : Nat) (bs : List Byte) : ∀ i ∈ (cellsOf a bs).map Prod.fst, a ≤ i ∧ i < a + bs.length := by
  induction bs generalizing a with
  | nil => simp [cellsOf]
  | cons b bs ih =>
    intro i hi
    by_cases hb : b = 0
    · simp only [cellsOf, hb, if_true] at hi
      have := ih (a + 1) i hi
      simp only [List.length_cons]; omega
    · simp only [cellsOf, hb, if_false, List.map_cons, List.mem_cons] at hi
      rcases hi with rfl | hi
      · simp only [List.length_cons]; omega
      · have := ih (a + 1) i hi
        simp only [List.length_cons]; omega

theorem mget_cellsOf (a : Nat) (bs : List Byte) (i : Nat) : mget 0 (cellsOf a bs) (a + i) = bs.getD i 0 := by
  induction bs generalizing a i with
  | nil => simp [cellsOf, mget]
  | cons b bs ih =>
    by_cases hb : b = 0
    · simp only [cellsOf, hb, if_true]
      cases i with
      | zero =>
        rw [mget_of_not_mem]
        · simp
        · intro h; have := cellsOf_keys (a + 1) bs _ h; omega
      | succ i => rw [show a + (i + 1) = a + 1 + i by omega, ih]; simp
    · simp only [cellsOf, hb, if_false]
      cases i with
      | zero => simp [mget]
      | succ i =>
        have : a ≠ a + (i + 1) := by omega
        simp only [mget, this, if_false]
        rw [show a + (i + 1) = a + 1 + i by omega, ih]; simp

/-- A byte string written, then one byte read: inside the string its byte, outside it what stood there. -/
theorem rdByte_wrBytes (m : List Host.Cell) (a : Nat) (bs : List Byte) (x : Nat) :
    rdByte (wrBytes m a bs) x = if a ≤ x ∧ x < a + bs.length then bs.getD (x - a) 0 else rdByte m x := by
  unfold rdByte wrBytes
  rw [mget_append, mget_append]
  have lo : ∀ y, decide (y < a) = false → y ∉ (m.filter (fun c => decide (c.1 < a))).map Prod.fst :=
    fun y h => not_mem_filter m (fun k => decide (k < a)) h
  by_cases h1 : x < a
  · have hc : x ∉ (cellsOf a bs).map Prod.fst := fun h => by have := cellsOf_keys a bs x h; omega
    have hx : ¬(a ≤ x ∧ x < a + bs.length) := by omega
    have hf := mget_filter (0 : Byte) m (fun k => decide (k < a)) x (by simpa using h1)
    have hg : x ∉ (m.filter (fun c => decide (a + bs.length ≤ c.1))).map Prod.fst :=
      not_mem_filter m (fun k => decide (a + bs.length ≤ k)) (by simp; omega)
    simp only [hx, if_false]
    by_cases hin : x ∈ (m.filter (fun c => decide (c.1 < a))).map Prod.fst
    · have : x ∈ (m.filter (fun c => decide (c.1 < a)) ++ cellsOf a bs).map Prod.fst := by simp only [List.map_append, List.mem_append]; exact Or.inl hin
      simp only [this, if_true, hin, hf]
    · have : x ∉ (m.filter (fun c => decide (c.1 < a)) ++ cellsOf a bs).map Prod.fst := by
        simp only [List.map_append, List.mem_append, not_or]; exact ⟨hin, hc⟩
      simp only [this, if_false]
      rw [mget_of_not_mem _ hg, ← hf, mget_of_not_mem _ hin]
  · have hlo := lo x (by simpa using h1)
    by_cases h2 : x < a + bs.length
    · have hx : a ≤ x ∧ x < a + bs.length := by omega
      have hg : x ∉ (m.filter (fun c => decide (a + bs.length ≤ c.1))).map Prod.fst :=
        not_mem_filter m (fun k => decide (a + bs.length ≤ k)) (by simp; omega)
      have hv : mget 0 (cellsOf a bs) x = bs.getD (x - a) 0 := by
        have := mget_cellsOf a bs (x - a); rwa [show a + (x - a) = x by omega] at this
      rw [if_pos hx, if_neg hlo, mget_of_not_mem _ hg, hv]
      by_cases hin : x ∈ (m.filter (fun c => decide (c.1 < a)) ++ cellsOf a bs).map Prod.fst
      · rw [if_pos hin]
      · rw [if_neg hin]
        have : x ∉ (cellsOf a bs).map Prod.fst := fun h => hin (by simp only [List.map_append, List.mem_append]; exact Or.inr h)
        rw [← hv, mget_of_not_mem _ this]
    · have hx : ¬(a ≤ x ∧ x < a + bs.length) := by omega
      have hc : x ∉ (cellsOf a bs).map Prod.fst := fun h => by have := cellsOf_keys a bs x h; omega
      have hin : x ∉ (m.filter (fun c => decide (c.1 < a)) ++ cellsOf a bs).map Prod.fst := by
        simp only [List.map_append, List.mem_append, not_or]; exact ⟨hlo, hc⟩
      simp only [hx, if_false, hin]
      exact mget_filter (0 : Byte) m (fun k => decide (a + bs.length ≤ k)) x (by simp; omega)

theorem mwf_append {V : Type} [DecidableEq V] (d : V) {m n : SMap V} (b : Nat) (hm : mwf d m = true) (hn : mwf d n = true)
    (h1 : ∀ e ∈ m, e.1 < b) (h2 : ∀ e ∈ n, b ≤ e.1) : mwf d (m ++ n) = true := by
  induction m with
  | nil => exact hn
  | cons e m ih =>
    obtain ⟨k, v⟩ := e
    obtain ⟨hv, hk, hm'⟩ := (mwf_cons d k v m).1 hm
    refine (mwf_cons d k v _).2 ⟨hv, ?_, ih hm' (fun e he => h1 e (by simp [he]))⟩
    intro e he
    rcases List.mem_append.1 he with he | he
    · exact hk e he
    · exact Nat.lt_of_lt_of_le (h1 (k, v) (by simp)) (h2 e he)

theorem mwf_filter {V : Type} [DecidableEq V] (d : V) {m : SMap V} (p : Nat × V → Bool) (h : mwf d m = true) :
    mwf d (m.filter p) = true := by
  induction m with
  | nil => rfl
  | cons e m ih =>
    obtain ⟨k, v⟩ := e
    obtain ⟨hv, hk, hm⟩ := (mwf_cons d k v m).1 h
    by_cases hp : p (k, v) = true
    · simp only [List.filter, hp]
      exact (mwf_cons d k v _).2 ⟨hv, fun e he => hk e (List.mem_filter.1 he).1, ih hm⟩
    · simp only [List.filter, hp]; exact ih hm

theorem mwf_cellsOf (a : Nat) (bs : List Byte) : mwf 0 (cellsOf a bs) = true := by
  induction bs generalizing a with
  | nil => rfl
  | cons b bs ih =>
    by_cases hb : b = 0
    · simp only [cellsOf, hb, if_true]; exact ih (a + 1)
    · simp only [cellsOf, hb, if_false]
      refine (mwf_cons 0 a b _).2 ⟨hb, ?_, ih (a + 1)⟩
      intro e he
      have := cellsOf_keys (a + 1) bs e.1 (List.mem_map_of_mem he)
      omega

/-- A byte string written keeps the canonical form. -/
theorem mwf_wrBytes {m : List Host.Cell} (a : Nat) (bs : List Byte) (h : mwf 0 m = true) : mwf 0 (wrBytes m a bs) = true := by
  unfold wrBytes
  refine mwf_append 0 (a + bs.length) (mwf_append 0 a (mwf_filter 0 _ h) (mwf_cellsOf a bs) ?_ ?_) (mwf_filter 0 _ h) ?_ ?_
  · intro e he; simpa using (List.mem_filter.1 he).2
  · intro e he; exact (cellsOf_keys a bs e.1 (List.mem_map_of_mem he)).1
  · intro e he
    rcases List.mem_append.1 he with he | he
    · have : e.1 < a := by simpa using (List.mem_filter.1 he).2
      omega
    · exact (cellsOf_keys a bs e.1 (List.mem_map_of_mem he)).2
  · intro e he; simpa using (List.mem_filter.1 he).2

/-! A run of bytes read is its bytes read one by one. -/

theorem fillFrom_eq (m : List Host.Cell) (a n : Nat) (h : mwf 0 m = true) (hlo : ∀ e ∈ m, a ≤ e.1) :
    fillFrom a n m = (List.range n).map (fun i => rdByte m (a + i)) := by
  induction n generalizing a m with
  | zero => simp [fillFrom]
  | succ n ih =>
    rw [List.range_succ_eq_map, List.map_cons, List.map_map]
    cases m with
    | nil =>
      simp only [fillFrom, ih [] (a + 1) rfl (by simp)]
      simp [rdByte, mget, Function.comp_def]
    | cons e m =>
      obtain ⟨k, v⟩ := e
      obtain ⟨hv, hk, hm⟩ := (mwf_cons 0 k v m).1 h
      by_cases hka : k = a
      · subst hka
        simp only [fillFrom, if_true]
        rw [ih m (k + 1) hm (fun e he => hk e he)]
        simp only [rdByte, mget, Nat.add_zero, if_true, List.cons.injEq, true_and, Function.comp_def]
        apply List.map_congr_left
        intro i _
        rw [if_neg (by omega), show k + 1 + i = k + (i + 1) by omega]
      · have hak : a + 1 ≤ k := by have := hlo (k, v) (by simp); simp at this; omega
        simp only [fillFrom, hka, if_false]
        rw [ih ((k, v) :: m) (a + 1) h ?_]
        · have h0 : rdByte ((k, v) :: m) (a + 0) = 0 := by
            apply mget_of_not_mem
            intro hmem
            obtain ⟨e, he, hea⟩ := List.mem_map.1 hmem
            rcases List.mem_cons.1 he with rfl | he
            · simp at hea; omega
            · have := hk e he; omega
          rw [h0]
          simp only [List.cons.injEq, true_and, Function.comp_def]
          apply List.map_congr_left
          intro i _
          rw [show a + 1 + i = a + (i + 1) by omega]
        · intro e he
          rcases List.mem_cons.1 he with rfl | he
          · exact hak
          · have := hk e he; omega

theorem rdBytes_eq (m : List Host.Cell) (a n : Nat) (h : mwf 0 m = true) :
    rdBytes m a n = (List.range n).map (fun i => rdByte m (a + i)) := by
  unfold rdBytes
  have key : ∀ m : List Host.Cell, mwf 0 m = true →
      mwf 0 (m.dropWhile (fun c => decide (c.1 < a))) = true ∧ (∀ e ∈ m.dropWhile (fun c => decide (c.1 < a)), a ≤ e.1) ∧
      (∀ x, a ≤ x → rdByte (m.dropWhile (fun c => decide (c.1 < a))) x = rdByte m x) := by
    intro m
    induction m with
    | nil => intro _; exact ⟨rfl, by simp, fun _ _ => rfl⟩
    | cons e m ih =>
      obtain ⟨k, v⟩ := e
      intro h
      obtain ⟨hv, hk, hm⟩ := (mwf_cons 0 k v m).1 h
      by_cases hka : k < a
      · simp only [List.dropWhile, hka, decide_true]
        obtain ⟨w1, w2, w3⟩ := ih hm
        refine ⟨w1, w2, fun x hx => ?_⟩
        rw [w3 x hx]; simp only [rdByte, mget]; rw [if_neg (by omega)]
      · simp only [List.dropWhile, hka, decide_false]
        refine ⟨h, ?_, by simp⟩
        intro e he
        rcases List.mem_cons.1 he with rfl | he
        · simp; omega
        · have := hk e he; omega
  obtain ⟨w1, w2, w3⟩ := key m h
  rw [fillFrom_eq _ a n w1 w2]
  apply List.map_congr_left
  intro i _
  exact w3 (a + i) (by omega)

end Sys2Proof.Machine
end

