-- ==== Sys2Proof/Laws/State.lean ====
section
/-! SUPPORT. One lemma per field and per elementary update of the state, so that no proof unfolds a record update; and what
each reader of the state gives after each writer. -/

namespace Sys2Proof.Machine

/-! What an elementary update leaves alone. -/

@[simp] theorem State.setCore_part (s : State) (c : Nat) (k : CoreState) : (s.setCore c k).part = s.part := rfl
@[simp] theorem State.setCore_nv (s : State) (c : Nat) (k : CoreState) : (s.setCore c k).nv = s.nv := rfl
@[simp] theorem State.setCore_dict (s : State) (c : Nat) (k : CoreState) : (s.setCore c k).dict = s.dict := rfl
@[simp] theorem State.setCore_blobs (s : State) (c : Nat) (k : CoreState) : (s.setCore c k).blobs = s.blobs := rfl
@[simp] theorem State.setCore_blobVer (s : State) (c : Nat) (k : CoreState) : (s.setCore c k).blobVer = s.blobVer := rfl
@[simp] theorem State.setCore_next (s : State) (c : Nat) (k : CoreState) : (s.setCore c k).next = s.next := rfl
@[simp] theorem State.setCore_streams (s : State) (c : Nat) (k : CoreState) : (s.setCore c k).streams = s.streams := rfl
@[simp] theorem State.setCore_stages (s : State) (c : Nat) (k : CoreState) : (s.setCore c k).stages = s.stages := rfl
@[simp] theorem State.setCore_versions (s : State) (c : Nat) (k : CoreState) : (s.setCore c k).versions = s.versions := rfl
@[simp] theorem State.setCore_verBefore (s : State) (c : Nat) (k : CoreState) : (s.setCore c k).verBefore = s.verBefore := rfl
@[simp] theorem State.setCore_stageMbs (s : State) (c : Nat) (k : CoreState) : (s.setCore c k).stageMbs = s.stageMbs := rfl
@[simp] theorem State.setCore_stageDone (s : State) (c : Nat) (k : CoreState) : (s.setCore c k).stageDone = s.stageDone := rfl
@[simp] theorem State.setCore_mem (s : State) (c : Nat) (k : CoreState) : (s.setCore c k).mem = s.mem := rfl
@[simp] theorem State.setCore_job (s : State) (c : Nat) (k : CoreState) : (s.setCore c k).job = s.job := rfl
@[simp] theorem State.setCore_upd (s : State) (c : Nat) (k : CoreState) : (s.setCore c k).upd = s.upd := rfl
@[simp] theorem State.setCore_trib (s : State) (c : Nat) (k : CoreState) : (s.setCore c k).trib = s.trib := rfl
@[simp] theorem State.setCore_cas (s : State) (c : Nat) (k : CoreState) : (s.setCore c k).cas = s.cas := rfl
@[simp] theorem State.setCore_buddy (s : State) (c : Nat) (k : CoreState) : (s.setCore c k).buddy = s.buddy := rfl
@[simp] theorem State.setCore_ckpt (s : State) (c : Nat) (k : CoreState) : (s.setCore c k).ckpt = s.ckpt := rfl
@[simp] theorem State.setCore_restore (s : State) (c : Nat) (k : CoreState) : (s.setCore c k).restore = s.restore := rfl
@[simp] theorem State.setCore_links (s : State) (c : Nat) (k : CoreState) : (s.setCore c k).links = s.links := rfl
@[simp] theorem State.setCore_arbs (s : State) (c : Nat) (k : CoreState) : (s.setCore c k).arbs = s.arbs := rfl
@[simp] theorem State.setCore_bq (s : State) (c : Nat) (k : CoreState) : (s.setCore c k).bq = s.bq := rfl
@[simp] theorem State.setCore_ports (s : State) (c : Nat) (k : CoreState) : (s.setCore c k).ports = s.ports := rfl
@[simp] theorem State.setCore_sec (s : State) (c : Nat) (k : CoreState) : (s.setCore c k).sec = s.sec := rfl
@[simp] theorem State.setCore_power (s : State) (c : Nat) (k : CoreState) : (s.setCore c k).power = s.power := rfl
@[simp] theorem State.setCore_ob (s : State) (c : Nat) (k : CoreState) : (s.setCore c k).ob = s.ob := rfl
@[simp] theorem State.setCore_load (s : State) (c : Nat) (k : CoreState) : (s.setCore c k).load = s.load := rfl
@[simp] theorem State.setCore_loadLayout (s : State) (c : Nat) (k : CoreState) : (s.setCore c k).loadLayout = s.loadLayout := rfl
@[simp] theorem State.setCore_desc (s : State) (c : Nat) (k : CoreState) : (s.setCore c k).desc = s.desc := rfl
@[simp] theorem State.setCore_nap (s : State) (c : Nat) (k : CoreState) : (s.setCore c k).nap = s.nap := rfl
@[simp] theorem State.setCore_own (s : State) (c : Nat) (k : CoreState) : (s.setCore c k).own = s.own := rfl
@[simp] theorem State.setCore_weir (s : State) (c : Nat) (k : CoreState) : (s.setCore c k).weir = s.weir := rfl
@[simp] theorem State.setCore_log (s : State) (c : Nat) (k : CoreState) : (s.setCore c k).log = s.log := rfl
@[simp] theorem State.setCore_pf0 (s : State) (c : Nat) (k : CoreState) : (s.setCore c k).pf0 = s.pf0 := rfl
@[simp] theorem State.setCore_out (s : State) (c : Nat) (k : CoreState) : (s.setCore c k).out = s.out := rfl
@[simp] theorem State.setCore_free (s : State) (c : Nat) (k : CoreState) : (s.setCore c k).free = s.free := rfl
@[simp] theorem State.setCore_pending (s : State) (c : Nat) (k : CoreState) : (s.setCore c k).pending = s.pending := rfl

@[simp] theorem State.onCore_part (s : State) (c : Nat) (f : CoreState → CoreState) : (s.onCore c f).part = s.part := rfl
@[simp] theorem State.onCore_nv (s : State) (c : Nat) (f : CoreState → CoreState) : (s.onCore c f).nv = s.nv := rfl
@[simp] theorem State.onCore_dict (s : State) (c : Nat) (f : CoreState → CoreState) : (s.onCore c f).dict = s.dict := rfl
@[simp] theorem State.onCore_blobs (s : State) (c : Nat) (f : CoreState → CoreState) : (s.onCore c f).blobs = s.blobs := rfl
@[simp] theorem State.onCore_blobVer (s : State) (c : Nat) (f : CoreState → CoreState) : (s.onCore c f).blobVer = s.blobVer := rfl
@[simp] theorem State.onCore_next (s : State) (c : Nat) (f : CoreState → CoreState) : (s.onCore c f).next = s.next := rfl
@[simp] theorem State.onCore_streams (s : State) (c : Nat) (f : CoreState → CoreState) : (s.onCore c f).streams = s.streams := rfl
@[simp] theorem State.onCore_stages (s : State) (c : Nat) (f : CoreState → CoreState) : (s.onCore c f).stages = s.stages := rfl
@[simp] theorem State.onCore_versions (s : State) (c : Nat) (f : CoreState → CoreState) : (s.onCore c f).versions = s.versions := rfl
@[simp] theorem State.onCore_verBefore (s : State) (c : Nat) (f : CoreState → CoreState) : (s.onCore c f).verBefore = s.verBefore := rfl
@[simp] theorem State.onCore_stageMbs (s : State) (c : Nat) (f : CoreState → CoreState) : (s.onCore c f).stageMbs = s.stageMbs := rfl
@[simp] theorem State.onCore_stageDone (s : State) (c : Nat) (f : CoreState → CoreState) : (s.onCore c f).stageDone = s.stageDone := rfl
@[simp] theorem State.onCore_mem (s : State) (c : Nat) (f : CoreState → CoreState) : (s.onCore c f).mem = s.mem := rfl
@[simp] theorem State.onCore_job (s : State) (c : Nat) (f : CoreState → CoreState) : (s.onCore c f).job = s.job := rfl
@[simp] theorem State.onCore_upd (s : State) (c : Nat) (f : CoreState → CoreState) : (s.onCore c f).upd = s.upd := rfl
@[simp] theorem State.onCore_trib (s : State) (c : Nat) (f : CoreState → CoreState) : (s.onCore c f).trib = s.trib := rfl
@[simp] theorem State.onCore_cas (s : State) (c : Nat) (f : CoreState → CoreState) : (s.onCore c f).cas = s.cas := rfl
@[simp] theorem State.onCore_buddy (s : State) (c : Nat) (f : CoreState → CoreState) : (s.onCore c f).buddy = s.buddy := rfl
@[simp] theorem State.onCore_ckpt (s : State) (c : Nat) (f : CoreState → CoreState) : (s.onCore c f).ckpt = s.ckpt := rfl
@[simp] theorem State.onCore_restore (s : State) (c : Nat) (f : CoreState → CoreState) : (s.onCore c f).restore = s.restore := rfl
@[simp] theorem State.onCore_links (s : State) (c : Nat) (f : CoreState → CoreState) : (s.onCore c f).links = s.links := rfl
@[simp] theorem State.onCore_arbs (s : State) (c : Nat) (f : CoreState → CoreState) : (s.onCore c f).arbs = s.arbs := rfl
@[simp] theorem State.onCore_bq (s : State) (c : Nat) (f : CoreState → CoreState) : (s.onCore c f).bq = s.bq := rfl
@[simp] theorem State.onCore_ports (s : State) (c : Nat) (f : CoreState → CoreState) : (s.onCore c f).ports = s.ports := rfl
@[simp] theorem State.onCore_sec (s : State) (c : Nat) (f : CoreState → CoreState) : (s.onCore c f).sec = s.sec := rfl
@[simp] theorem State.onCore_power (s : State) (c : Nat) (f : CoreState → CoreState) : (s.onCore c f).power = s.power := rfl
@[simp] theorem State.onCore_ob (s : State) (c : Nat) (f : CoreState → CoreState) : (s.onCore c f).ob = s.ob := rfl
@[simp] theorem State.onCore_load (s : State) (c : Nat) (f : CoreState → CoreState) : (s.onCore c f).load = s.load := rfl
@[simp] theorem State.onCore_loadLayout (s : State) (c : Nat) (f : CoreState → CoreState) : (s.onCore c f).loadLayout = s.loadLayout := rfl
@[simp] theorem State.onCore_desc (s : State) (c : Nat) (f : CoreState → CoreState) : (s.onCore c f).desc = s.desc := rfl
@[simp] theorem State.onCore_nap (s : State) (c : Nat) (f : CoreState → CoreState) : (s.onCore c f).nap = s.nap := rfl
@[simp] theorem State.onCore_own (s : State) (c : Nat) (f : CoreState → CoreState) : (s.onCore c f).own = s.own := rfl
@[simp] theorem State.onCore_weir (s : State) (c : Nat) (f : CoreState → CoreState) : (s.onCore c f).weir = s.weir := rfl
@[simp] theorem State.onCore_log (s : State) (c : Nat) (f : CoreState → CoreState) : (s.onCore c f).log = s.log := rfl
@[simp] theorem State.onCore_pf0 (s : State) (c : Nat) (f : CoreState → CoreState) : (s.onCore c f).pf0 = s.pf0 := rfl
@[simp] theorem State.onCore_out (s : State) (c : Nat) (f : CoreState → CoreState) : (s.onCore c f).out = s.out := rfl
@[simp] theorem State.onCore_free (s : State) (c : Nat) (f : CoreState → CoreState) : (s.onCore c f).free = s.free := rfl
@[simp] theorem State.onCore_pending (s : State) (c : Nat) (f : CoreState → CoreState) : (s.onCore c f).pending = s.pending := rfl

@[simp] theorem State.setObj_part (s : State) (i n v : Nat) : (s.setObj i n v).part = s.part := rfl
@[simp] theorem State.setObj_nv (s : State) (i n v : Nat) : (s.setObj i n v).nv = s.nv := rfl
@[simp] theorem State.setObj_blobs (s : State) (i n v : Nat) : (s.setObj i n v).blobs = s.blobs := rfl
@[simp] theorem State.setObj_blobVer (s : State) (i n v : Nat) : (s.setObj i n v).blobVer = s.blobVer := rfl
@[simp] theorem State.setObj_next (s : State) (i n v : Nat) : (s.setObj i n v).next = s.next := rfl
@[simp] theorem State.setObj_cores (s : State) (i n v : Nat) : (s.setObj i n v).cores = s.cores := rfl
@[simp] theorem State.setObj_streams (s : State) (i n v : Nat) : (s.setObj i n v).streams = s.streams := rfl
@[simp] theorem State.setObj_stages (s : State) (i n v : Nat) : (s.setObj i n v).stages = s.stages := rfl
@[simp] theorem State.setObj_versions (s : State) (i n v : Nat) : (s.setObj i n v).versions = s.versions := rfl
@[simp] theorem State.setObj_verBefore (s : State) (i n v : Nat) : (s.setObj i n v).verBefore = s.verBefore := rfl
@[simp] theorem State.setObj_stageMbs (s : State) (i n v : Nat) : (s.setObj i n v).stageMbs = s.stageMbs := rfl
@[simp] theorem State.setObj_stageDone (s : State) (i n v : Nat) : (s.setObj i n v).stageDone = s.stageDone := rfl
@[simp] theorem State.setObj_mem (s : State) (i n v : Nat) : (s.setObj i n v).mem = s.mem := rfl
@[simp] theorem State.setObj_job (s : State) (i n v : Nat) : (s.setObj i n v).job = s.job := rfl
@[simp] theorem State.setObj_upd (s : State) (i n v : Nat) : (s.setObj i n v).upd = s.upd := rfl
@[simp] theorem State.setObj_trib (s : State) (i n v : Nat) : (s.setObj i n v).trib = s.trib := rfl
@[simp] theorem State.setObj_cas (s : State) (i n v : Nat) : (s.setObj i n v).cas = s.cas := rfl
@[simp] theorem State.setObj_buddy (s : State) (i n v : Nat) : (s.setObj i n v).buddy = s.buddy := rfl
@[simp] theorem State.setObj_ckpt (s : State) (i n v : Nat) : (s.setObj i n v).ckpt = s.ckpt := rfl
@[simp] theorem State.setObj_restore (s : State) (i n v : Nat) : (s.setObj i n v).restore = s.restore := rfl
@[simp] theorem State.setObj_links (s : State) (i n v : Nat) : (s.setObj i n v).links = s.links := rfl
@[simp] theorem State.setObj_arbs (s : State) (i n v : Nat) : (s.setObj i n v).arbs = s.arbs := rfl
@[simp] theorem State.setObj_bq (s : State) (i n v : Nat) : (s.setObj i n v).bq = s.bq := rfl
@[simp] theorem State.setObj_ports (s : State) (i n v : Nat) : (s.setObj i n v).ports = s.ports := rfl
@[simp] theorem State.setObj_sec (s : State) (i n v : Nat) : (s.setObj i n v).sec = s.sec := rfl
@[simp] theorem State.setObj_power (s : State) (i n v : Nat) : (s.setObj i n v).power = s.power := rfl
@[simp] theorem State.setObj_ob (s : State) (i n v : Nat) : (s.setObj i n v).ob = s.ob := rfl
@[simp] theorem State.setObj_load (s : State) (i n v : Nat) : (s.setObj i n v).load = s.load := rfl
@[simp] theorem State.setObj_loadLayout (s : State) (i n v : Nat) : (s.setObj i n v).loadLayout = s.loadLayout := rfl
@[simp] theorem State.setObj_desc (s : State) (i n v : Nat) : (s.setObj i n v).desc = s.desc := rfl
@[simp] theorem State.setObj_nap (s : State) (i n v : Nat) : (s.setObj i n v).nap = s.nap := rfl
@[simp] theorem State.setObj_own (s : State) (i n v : Nat) : (s.setObj i n v).own = s.own := rfl
@[simp] theorem State.setObj_weir (s : State) (i n v : Nat) : (s.setObj i n v).weir = s.weir := rfl
@[simp] theorem State.setObj_log (s : State) (i n v : Nat) : (s.setObj i n v).log = s.log := rfl
@[simp] theorem State.setObj_pf0 (s : State) (i n v : Nat) : (s.setObj i n v).pf0 = s.pf0 := rfl
@[simp] theorem State.setObj_out (s : State) (i n v : Nat) : (s.setObj i n v).out = s.out := rfl
@[simp] theorem State.setObj_free (s : State) (i n v : Nat) : (s.setObj i n v).free = s.free := rfl
@[simp] theorem State.setObj_pending (s : State) (i n v : Nat) : (s.setObj i n v).pending = s.pending := rfl

@[simp] theorem State.addObj_part (s : State) (i n w v : Nat) : (s.addObj i n w v).part = s.part := rfl
@[simp] theorem State.addObj_nv (s : State) (i n w v : Nat) : (s.addObj i n w v).nv = s.nv := rfl
@[simp] theorem State.addObj_blobs (s : State) (i n w v : Nat) : (s.addObj i n w v).blobs = s.blobs := rfl
@[simp] theorem State.addObj_blobVer (s : State) (i n w v : Nat) : (s.addObj i n w v).blobVer = s.blobVer := rfl
@[simp] theorem State.addObj_next (s : State) (i n w v : Nat) : (s.addObj i n w v).next = s.next := rfl
@[simp] theorem State.addObj_cores (s : State) (i n w v : Nat) : (s.addObj i n w v).cores = s.cores := rfl
@[simp] theorem State.addObj_streams (s : State) (i n w v : Nat) : (s.addObj i n w v).streams = s.streams := rfl
@[simp] theorem State.addObj_stages (s : State) (i n w v : Nat) : (s.addObj i n w v).stages = s.stages := rfl
@[simp] theorem State.addObj_versions (s : State) (i n w v : Nat) : (s.addObj i n w v).versions = s.versions := rfl
@[simp] theorem State.addObj_verBefore (s : State) (i n w v : Nat) : (s.addObj i n w v).verBefore = s.verBefore := rfl
@[simp] theorem State.addObj_stageMbs (s : State) (i n w v : Nat) : (s.addObj i n w v).stageMbs = s.stageMbs := rfl
@[simp] theorem State.addObj_stageDone (s : State) (i n w v : Nat) : (s.addObj i n w v).stageDone = s.stageDone := rfl
@[simp] theorem State.addObj_mem (s : State) (i n w v : Nat) : (s.addObj i n w v).mem = s.mem := rfl
@[simp] theorem State.addObj_job (s : State) (i n w v : Nat) : (s.addObj i n w v).job = s.job := rfl
@[simp] theorem State.addObj_upd (s : State) (i n w v : Nat) : (s.addObj i n w v).upd = s.upd := rfl
@[simp] theorem State.addObj_trib (s : State) (i n w v : Nat) : (s.addObj i n w v).trib = s.trib := rfl
@[simp] theorem State.addObj_cas (s : State) (i n w v : Nat) : (s.addObj i n w v).cas = s.cas := rfl
@[simp] theorem State.addObj_buddy (s : State) (i n w v : Nat) : (s.addObj i n w v).buddy = s.buddy := rfl
@[simp] theorem State.addObj_ckpt (s : State) (i n w v : Nat) : (s.addObj i n w v).ckpt = s.ckpt := rfl
@[simp] theorem State.addObj_restore (s : State) (i n w v : Nat) : (s.addObj i n w v).restore = s.restore := rfl
@[simp] theorem State.addObj_links (s : State) (i n w v : Nat) : (s.addObj i n w v).links = s.links := rfl
@[simp] theorem State.addObj_arbs (s : State) (i n w v : Nat) : (s.addObj i n w v).arbs = s.arbs := rfl
@[simp] theorem State.addObj_bq (s : State) (i n w v : Nat) : (s.addObj i n w v).bq = s.bq := rfl
@[simp] theorem State.addObj_ports (s : State) (i n w v : Nat) : (s.addObj i n w v).ports = s.ports := rfl
@[simp] theorem State.addObj_sec (s : State) (i n w v : Nat) : (s.addObj i n w v).sec = s.sec := rfl
@[simp] theorem State.addObj_power (s : State) (i n w v : Nat) : (s.addObj i n w v).power = s.power := rfl
@[simp] theorem State.addObj_ob (s : State) (i n w v : Nat) : (s.addObj i n w v).ob = s.ob := rfl
@[simp] theorem State.addObj_load (s : State) (i n w v : Nat) : (s.addObj i n w v).load = s.load := rfl
@[simp] theorem State.addObj_loadLayout (s : State) (i n w v : Nat) : (s.addObj i n w v).loadLayout = s.loadLayout := rfl
@[simp] theorem State.addObj_desc (s : State) (i n w v : Nat) : (s.addObj i n w v).desc = s.desc := rfl
@[simp] theorem State.addObj_nap (s : State) (i n w v : Nat) : (s.addObj i n w v).nap = s.nap := rfl
@[simp] theorem State.addObj_own (s : State) (i n w v : Nat) : (s.addObj i n w v).own = s.own := rfl
@[simp] theorem State.addObj_weir (s : State) (i n w v : Nat) : (s.addObj i n w v).weir = s.weir := rfl
@[simp] theorem State.addObj_log (s : State) (i n w v : Nat) : (s.addObj i n w v).log = s.log := rfl
@[simp] theorem State.addObj_pf0 (s : State) (i n w v : Nat) : (s.addObj i n w v).pf0 = s.pf0 := rfl
@[simp] theorem State.addObj_out (s : State) (i n w v : Nat) : (s.addObj i n w v).out = s.out := rfl
@[simp] theorem State.addObj_free (s : State) (i n w v : Nat) : (s.addObj i n w v).free = s.free := rfl
@[simp] theorem State.addObj_pending (s : State) (i n w v : Nat) : (s.addObj i n w v).pending = s.pending := rfl

@[simp] theorem State.setPort_part (s : State) (n : Nat) (p : Port) : (s.setPort n p).part = s.part := rfl
@[simp] theorem State.setPort_nv (s : State) (n : Nat) (p : Port) : (s.setPort n p).nv = s.nv := rfl
@[simp] theorem State.setPort_dict (s : State) (n : Nat) (p : Port) : (s.setPort n p).dict = s.dict := rfl
@[simp] theorem State.setPort_blobs (s : State) (n : Nat) (p : Port) : (s.setPort n p).blobs = s.blobs := rfl
@[simp] theorem State.setPort_blobVer (s : State) (n : Nat) (p : Port) : (s.setPort n p).blobVer = s.blobVer := rfl
@[simp] theorem State.setPort_next (s : State) (n : Nat) (p : Port) : (s.setPort n p).next = s.next := rfl
@[simp] theorem State.setPort_cores (s : State) (n : Nat) (p : Port) : (s.setPort n p).cores = s.cores := rfl
@[simp] theorem State.setPort_streams (s : State) (n : Nat) (p : Port) : (s.setPort n p).streams = s.streams := rfl
@[simp] theorem State.setPort_stages (s : State) (n : Nat) (p : Port) : (s.setPort n p).stages = s.stages := rfl
@[simp] theorem State.setPort_versions (s : State) (n : Nat) (p : Port) : (s.setPort n p).versions = s.versions := rfl
@[simp] theorem State.setPort_verBefore (s : State) (n : Nat) (p : Port) : (s.setPort n p).verBefore = s.verBefore := rfl
@[simp] theorem State.setPort_stageMbs (s : State) (n : Nat) (p : Port) : (s.setPort n p).stageMbs = s.stageMbs := rfl
@[simp] theorem State.setPort_stageDone (s : State) (n : Nat) (p : Port) : (s.setPort n p).stageDone = s.stageDone := rfl
@[simp] theorem State.setPort_mem (s : State) (n : Nat) (p : Port) : (s.setPort n p).mem = s.mem := rfl
@[simp] theorem State.setPort_job (s : State) (n : Nat) (p : Port) : (s.setPort n p).job = s.job := rfl
@[simp] theorem State.setPort_upd (s : State) (n : Nat) (p : Port) : (s.setPort n p).upd = s.upd := rfl
@[simp] theorem State.setPort_trib (s : State) (n : Nat) (p : Port) : (s.setPort n p).trib = s.trib := rfl
@[simp] theorem State.setPort_cas (s : State) (n : Nat) (p : Port) : (s.setPort n p).cas = s.cas := rfl
@[simp] theorem State.setPort_buddy (s : State) (n : Nat) (p : Port) : (s.setPort n p).buddy = s.buddy := rfl
@[simp] theorem State.setPort_ckpt (s : State) (n : Nat) (p : Port) : (s.setPort n p).ckpt = s.ckpt := rfl
@[simp] theorem State.setPort_restore (s : State) (n : Nat) (p : Port) : (s.setPort n p).restore = s.restore := rfl
@[simp] theorem State.setPort_links (s : State) (n : Nat) (p : Port) : (s.setPort n p).links = s.links := rfl
@[simp] theorem State.setPort_arbs (s : State) (n : Nat) (p : Port) : (s.setPort n p).arbs = s.arbs := rfl
@[simp] theorem State.setPort_bq (s : State) (n : Nat) (p : Port) : (s.setPort n p).bq = s.bq := rfl
@[simp] theorem State.setPort_sec (s : State) (n : Nat) (p : Port) : (s.setPort n p).sec = s.sec := rfl
@[simp] theorem State.setPort_power (s : State) (n : Nat) (p : Port) : (s.setPort n p).power = s.power := rfl
@[simp] theorem State.setPort_ob (s : State) (n : Nat) (p : Port) : (s.setPort n p).ob = s.ob := rfl
@[simp] theorem State.setPort_load (s : State) (n : Nat) (p : Port) : (s.setPort n p).load = s.load := rfl
@[simp] theorem State.setPort_loadLayout (s : State) (n : Nat) (p : Port) : (s.setPort n p).loadLayout = s.loadLayout := rfl
@[simp] theorem State.setPort_desc (s : State) (n : Nat) (p : Port) : (s.setPort n p).desc = s.desc := rfl
@[simp] theorem State.setPort_nap (s : State) (n : Nat) (p : Port) : (s.setPort n p).nap = s.nap := rfl
@[simp] theorem State.setPort_own (s : State) (n : Nat) (p : Port) : (s.setPort n p).own = s.own := rfl
@[simp] theorem State.setPort_weir (s : State) (n : Nat) (p : Port) : (s.setPort n p).weir = s.weir := rfl
@[simp] theorem State.setPort_log (s : State) (n : Nat) (p : Port) : (s.setPort n p).log = s.log := rfl
@[simp] theorem State.setPort_pf0 (s : State) (n : Nat) (p : Port) : (s.setPort n p).pf0 = s.pf0 := rfl
@[simp] theorem State.setPort_out (s : State) (n : Nat) (p : Port) : (s.setPort n p).out = s.out := rfl
@[simp] theorem State.setPort_free (s : State) (n : Nat) (p : Port) : (s.setPort n p).free = s.free := rfl
@[simp] theorem State.setPort_pending (s : State) (n : Nat) (p : Port) : (s.setPort n p).pending = s.pending := rfl

@[simp] theorem State.queueOn_part (s : State) (n v : Nat) (r : List Byte) : (s.queueOn n v r).part = s.part := rfl
@[simp] theorem State.queueOn_nv (s : State) (n v : Nat) (r : List Byte) : (s.queueOn n v r).nv = s.nv := rfl
@[simp] theorem State.queueOn_dict (s : State) (n v : Nat) (r : List Byte) : (s.queueOn n v r).dict = s.dict := rfl
@[simp] theorem State.queueOn_blobs (s : State) (n v : Nat) (r : List Byte) : (s.queueOn n v r).blobs = s.blobs := rfl
@[simp] theorem State.queueOn_blobVer (s : State) (n v : Nat) (r : List Byte) : (s.queueOn n v r).blobVer = s.blobVer := rfl
@[simp] theorem State.queueOn_next (s : State) (n v : Nat) (r : List Byte) : (s.queueOn n v r).next = s.next := rfl
@[simp] theorem State.queueOn_cores (s : State) (n v : Nat) (r : List Byte) : (s.queueOn n v r).cores = s.cores := rfl
@[simp] theorem State.queueOn_streams (s : State) (n v : Nat) (r : List Byte) : (s.queueOn n v r).streams = s.streams := rfl
@[simp] theorem State.queueOn_stages (s : State) (n v : Nat) (r : List Byte) : (s.queueOn n v r).stages = s.stages := rfl
@[simp] theorem State.queueOn_versions (s : State) (n v : Nat) (r : List Byte) : (s.queueOn n v r).versions = s.versions := rfl
@[simp] theorem State.queueOn_verBefore (s : State) (n v : Nat) (r : List Byte) : (s.queueOn n v r).verBefore = s.verBefore := rfl
@[simp] theorem State.queueOn_stageMbs (s : State) (n v : Nat) (r : List Byte) : (s.queueOn n v r).stageMbs = s.stageMbs := rfl
@[simp] theorem State.queueOn_stageDone (s : State) (n v : Nat) (r : List Byte) : (s.queueOn n v r).stageDone = s.stageDone := rfl
@[simp] theorem State.queueOn_mem (s : State) (n v : Nat) (r : List Byte) : (s.queueOn n v r).mem = s.mem := rfl
@[simp] theorem State.queueOn_job (s : State) (n v : Nat) (r : List Byte) : (s.queueOn n v r).job = s.job := rfl
@[simp] theorem State.queueOn_upd (s : State) (n v : Nat) (r : List Byte) : (s.queueOn n v r).upd = s.upd := rfl
@[simp] theorem State.queueOn_trib (s : State) (n v : Nat) (r : List Byte) : (s.queueOn n v r).trib = s.trib := rfl
@[simp] theorem State.queueOn_cas (s : State) (n v : Nat) (r : List Byte) : (s.queueOn n v r).cas = s.cas := rfl
@[simp] theorem State.queueOn_buddy (s : State) (n v : Nat) (r : List Byte) : (s.queueOn n v r).buddy = s.buddy := rfl
@[simp] theorem State.queueOn_ckpt (s : State) (n v : Nat) (r : List Byte) : (s.queueOn n v r).ckpt = s.ckpt := rfl
@[simp] theorem State.queueOn_restore (s : State) (n v : Nat) (r : List Byte) : (s.queueOn n v r).restore = s.restore := rfl
@[simp] theorem State.queueOn_links (s : State) (n v : Nat) (r : List Byte) : (s.queueOn n v r).links = s.links := rfl
@[simp] theorem State.queueOn_arbs (s : State) (n v : Nat) (r : List Byte) : (s.queueOn n v r).arbs = s.arbs := rfl
@[simp] theorem State.queueOn_bq (s : State) (n v : Nat) (r : List Byte) : (s.queueOn n v r).bq = s.bq := rfl
@[simp] theorem State.queueOn_sec (s : State) (n v : Nat) (r : List Byte) : (s.queueOn n v r).sec = s.sec := rfl
@[simp] theorem State.queueOn_power (s : State) (n v : Nat) (r : List Byte) : (s.queueOn n v r).power = s.power := rfl
@[simp] theorem State.queueOn_ob (s : State) (n v : Nat) (r : List Byte) : (s.queueOn n v r).ob = s.ob := rfl
@[simp] theorem State.queueOn_load (s : State) (n v : Nat) (r : List Byte) : (s.queueOn n v r).load = s.load := rfl
@[simp] theorem State.queueOn_loadLayout (s : State) (n v : Nat) (r : List Byte) : (s.queueOn n v r).loadLayout = s.loadLayout := rfl
@[simp] theorem State.queueOn_desc (s : State) (n v : Nat) (r : List Byte) : (s.queueOn n v r).desc = s.desc := rfl
@[simp] theorem State.queueOn_nap (s : State) (n v : Nat) (r : List Byte) : (s.queueOn n v r).nap = s.nap := rfl
@[simp] theorem State.queueOn_own (s : State) (n v : Nat) (r : List Byte) : (s.queueOn n v r).own = s.own := rfl
@[simp] theorem State.queueOn_weir (s : State) (n v : Nat) (r : List Byte) : (s.queueOn n v r).weir = s.weir := rfl
@[simp] theorem State.queueOn_log (s : State) (n v : Nat) (r : List Byte) : (s.queueOn n v r).log = s.log := rfl
@[simp] theorem State.queueOn_pf0 (s : State) (n v : Nat) (r : List Byte) : (s.queueOn n v r).pf0 = s.pf0 := rfl
@[simp] theorem State.queueOn_out (s : State) (n v : Nat) (r : List Byte) : (s.queueOn n v r).out = s.out := rfl
@[simp] theorem State.queueOn_free (s : State) (n v : Nat) (r : List Byte) : (s.queueOn n v r).free = s.free := rfl
@[simp] theorem State.queueOn_pending (s : State) (n v : Nat) (r : List Byte) : (s.queueOn n v r).pending = s.pending := rfl

@[simp] theorem State.emit_part (s : State) (o : Output) : (s.emit o).part = s.part := rfl
@[simp] theorem State.emit_nv (s : State) (o : Output) : (s.emit o).nv = s.nv := rfl
@[simp] theorem State.emit_dict (s : State) (o : Output) : (s.emit o).dict = s.dict := rfl
@[simp] theorem State.emit_blobs (s : State) (o : Output) : (s.emit o).blobs = s.blobs := rfl
@[simp] theorem State.emit_blobVer (s : State) (o : Output) : (s.emit o).blobVer = s.blobVer := rfl
@[simp] theorem State.emit_next (s : State) (o : Output) : (s.emit o).next = s.next := rfl
@[simp] theorem State.emit_cores (s : State) (o : Output) : (s.emit o).cores = s.cores := rfl
@[simp] theorem State.emit_streams (s : State) (o : Output) : (s.emit o).streams = s.streams := rfl
@[simp] theorem State.emit_stages (s : State) (o : Output) : (s.emit o).stages = s.stages := rfl
@[simp] theorem State.emit_versions (s : State) (o : Output) : (s.emit o).versions = s.versions := rfl
@[simp] theorem State.emit_verBefore (s : State) (o : Output) : (s.emit o).verBefore = s.verBefore := rfl
@[simp] theorem State.emit_stageMbs (s : State) (o : Output) : (s.emit o).stageMbs = s.stageMbs := rfl
@[simp] theorem State.emit_stageDone (s : State) (o : Output) : (s.emit o).stageDone = s.stageDone := rfl
@[simp] theorem State.emit_mem (s : State) (o : Output) : (s.emit o).mem = s.mem := rfl
@[simp] theorem State.emit_job (s : State) (o : Output) : (s.emit o).job = s.job := rfl
@[simp] theorem State.emit_upd (s : State) (o : Output) : (s.emit o).upd = s.upd := rfl
@[simp] theorem State.emit_trib (s : State) (o : Output) : (s.emit o).trib = s.trib := rfl
@[simp] theorem State.emit_cas (s : State) (o : Output) : (s.emit o).cas = s.cas := rfl
@[simp] theorem State.emit_buddy (s : State) (o : Output) : (s.emit o).buddy = s.buddy := rfl
@[simp] theorem State.emit_ckpt (s : State) (o : Output) : (s.emit o).ckpt = s.ckpt := rfl
@[simp] theorem State.emit_restore (s : State) (o : Output) : (s.emit o).restore = s.restore := rfl
@[simp] theorem State.emit_links (s : State) (o : Output) : (s.emit o).links = s.links := rfl
@[simp] theorem State.emit_arbs (s : State) (o : Output) : (s.emit o).arbs = s.arbs := rfl
@[simp] theorem State.emit_bq (s : State) (o : Output) : (s.emit o).bq = s.bq := rfl
@[simp] theorem State.emit_ports (s : State) (o : Output) : (s.emit o).ports = s.ports := rfl
@[simp] theorem State.emit_sec (s : State) (o : Output) : (s.emit o).sec = s.sec := rfl
@[simp] theorem State.emit_power (s : State) (o : Output) : (s.emit o).power = s.power := rfl
@[simp] theorem State.emit_ob (s : State) (o : Output) : (s.emit o).ob = s.ob := rfl
@[simp] theorem State.emit_load (s : State) (o : Output) : (s.emit o).load = s.load := rfl
@[simp] theorem State.emit_loadLayout (s : State) (o : Output) : (s.emit o).loadLayout = s.loadLayout := rfl
@[simp] theorem State.emit_desc (s : State) (o : Output) : (s.emit o).desc = s.desc := rfl
@[simp] theorem State.emit_nap (s : State) (o : Output) : (s.emit o).nap = s.nap := rfl
@[simp] theorem State.emit_own (s : State) (o : Output) : (s.emit o).own = s.own := rfl
@[simp] theorem State.emit_weir (s : State) (o : Output) : (s.emit o).weir = s.weir := rfl
@[simp] theorem State.emit_log (s : State) (o : Output) : (s.emit o).log = s.log := rfl
@[simp] theorem State.emit_pf0 (s : State) (o : Output) : (s.emit o).pf0 = s.pf0 := rfl
@[simp] theorem State.emit_free (s : State) (o : Output) : (s.emit o).free = s.free := rfl
@[simp] theorem State.emit_pending (s : State) (o : Output) : (s.emit o).pending = s.pending := rfl

@[simp] theorem State.setPf0_part (s : State) (a v : Nat) : (s.setPf0 a v).part = s.part := rfl
@[simp] theorem State.setPf0_nv (s : State) (a v : Nat) : (s.setPf0 a v).nv = s.nv := rfl
@[simp] theorem State.setPf0_dict (s : State) (a v : Nat) : (s.setPf0 a v).dict = s.dict := rfl
@[simp] theorem State.setPf0_blobs (s : State) (a v : Nat) : (s.setPf0 a v).blobs = s.blobs := rfl
@[simp] theorem State.setPf0_blobVer (s : State) (a v : Nat) : (s.setPf0 a v).blobVer = s.blobVer := rfl
@[simp] theorem State.setPf0_next (s : State) (a v : Nat) : (s.setPf0 a v).next = s.next := rfl
@[simp] theorem State.setPf0_cores (s : State) (a v : Nat) : (s.setPf0 a v).cores = s.cores := rfl
@[simp] theorem State.setPf0_streams (s : State) (a v : Nat) : (s.setPf0 a v).streams = s.streams := rfl
@[simp] theorem State.setPf0_stages (s : State) (a v : Nat) : (s.setPf0 a v).stages = s.stages := rfl
@[simp] theorem State.setPf0_versions (s : State) (a v : Nat) : (s.setPf0 a v).versions = s.versions := rfl
@[simp] theorem State.setPf0_verBefore (s : State) (a v : Nat) : (s.setPf0 a v).verBefore = s.verBefore := rfl
@[simp] theorem State.setPf0_stageMbs (s : State) (a v : Nat) : (s.setPf0 a v).stageMbs = s.stageMbs := rfl
@[simp] theorem State.setPf0_stageDone (s : State) (a v : Nat) : (s.setPf0 a v).stageDone = s.stageDone := rfl
@[simp] theorem State.setPf0_mem (s : State) (a v : Nat) : (s.setPf0 a v).mem = s.mem := rfl
@[simp] theorem State.setPf0_job (s : State) (a v : Nat) : (s.setPf0 a v).job = s.job := rfl
@[simp] theorem State.setPf0_upd (s : State) (a v : Nat) : (s.setPf0 a v).upd = s.upd := rfl
@[simp] theorem State.setPf0_trib (s : State) (a v : Nat) : (s.setPf0 a v).trib = s.trib := rfl
@[simp] theorem State.setPf0_cas (s : State) (a v : Nat) : (s.setPf0 a v).cas = s.cas := rfl
@[simp] theorem State.setPf0_buddy (s : State) (a v : Nat) : (s.setPf0 a v).buddy = s.buddy := rfl
@[simp] theorem State.setPf0_ckpt (s : State) (a v : Nat) : (s.setPf0 a v).ckpt = s.ckpt := rfl
@[simp] theorem State.setPf0_restore (s : State) (a v : Nat) : (s.setPf0 a v).restore = s.restore := rfl
@[simp] theorem State.setPf0_links (s : State) (a v : Nat) : (s.setPf0 a v).links = s.links := rfl
@[simp] theorem State.setPf0_arbs (s : State) (a v : Nat) : (s.setPf0 a v).arbs = s.arbs := rfl
@[simp] theorem State.setPf0_bq (s : State) (a v : Nat) : (s.setPf0 a v).bq = s.bq := rfl
@[simp] theorem State.setPf0_ports (s : State) (a v : Nat) : (s.setPf0 a v).ports = s.ports := rfl
@[simp] theorem State.setPf0_sec (s : State) (a v : Nat) : (s.setPf0 a v).sec = s.sec := rfl
@[simp] theorem State.setPf0_power (s : State) (a v : Nat) : (s.setPf0 a v).power = s.power := rfl
@[simp] theorem State.setPf0_ob (s : State) (a v : Nat) : (s.setPf0 a v).ob = s.ob := rfl
@[simp] theorem State.setPf0_load (s : State) (a v : Nat) : (s.setPf0 a v).load = s.load := rfl
@[simp] theorem State.setPf0_loadLayout (s : State) (a v : Nat) : (s.setPf0 a v).loadLayout = s.loadLayout := rfl
@[simp] theorem State.setPf0_desc (s : State) (a v : Nat) : (s.setPf0 a v).desc = s.desc := rfl
@[simp] theorem State.setPf0_nap (s : State) (a v : Nat) : (s.setPf0 a v).nap = s.nap := rfl
@[simp] theorem State.setPf0_own (s : State) (a v : Nat) : (s.setPf0 a v).own = s.own := rfl
@[simp] theorem State.setPf0_weir (s : State) (a v : Nat) : (s.setPf0 a v).weir = s.weir := rfl
@[simp] theorem State.setPf0_log (s : State) (a v : Nat) : (s.setPf0 a v).log = s.log := rfl
@[simp] theorem State.setPf0_out (s : State) (a v : Nat) : (s.setPf0 a v).out = s.out := rfl
@[simp] theorem State.setPf0_free (s : State) (a v : Nat) : (s.setPf0 a v).free = s.free := rfl
@[simp] theorem State.setPf0_pending (s : State) (a v : Nat) : (s.setPf0 a v).pending = s.pending := rfl

@[simp] theorem State.setSlot_part (s : State) (k : Nat) (x : Session) : (s.setSlot k x).part = s.part := rfl
@[simp] theorem State.setSlot_nv (s : State) (k : Nat) (x : Session) : (s.setSlot k x).nv = s.nv := rfl
@[simp] theorem State.setSlot_dict (s : State) (k : Nat) (x : Session) : (s.setSlot k x).dict = s.dict := rfl
@[simp] theorem State.setSlot_blobs (s : State) (k : Nat) (x : Session) : (s.setSlot k x).blobs = s.blobs := rfl
@[simp] theorem State.setSlot_blobVer (s : State) (k : Nat) (x : Session) : (s.setSlot k x).blobVer = s.blobVer := rfl
@[simp] theorem State.setSlot_next (s : State) (k : Nat) (x : Session) : (s.setSlot k x).next = s.next := rfl
@[simp] theorem State.setSlot_cores (s : State) (k : Nat) (x : Session) : (s.setSlot k x).cores = s.cores := rfl
@[simp] theorem State.setSlot_streams (s : State) (k : Nat) (x : Session) : (s.setSlot k x).streams = s.streams := rfl
@[simp] theorem State.setSlot_stages (s : State) (k : Nat) (x : Session) : (s.setSlot k x).stages = s.stages := rfl
@[simp] theorem State.setSlot_versions (s : State) (k : Nat) (x : Session) : (s.setSlot k x).versions = s.versions := rfl
@[simp] theorem State.setSlot_verBefore (s : State) (k : Nat) (x : Session) : (s.setSlot k x).verBefore = s.verBefore := rfl
@[simp] theorem State.setSlot_stageMbs (s : State) (k : Nat) (x : Session) : (s.setSlot k x).stageMbs = s.stageMbs := rfl
@[simp] theorem State.setSlot_stageDone (s : State) (k : Nat) (x : Session) : (s.setSlot k x).stageDone = s.stageDone := rfl
@[simp] theorem State.setSlot_mem (s : State) (k : Nat) (x : Session) : (s.setSlot k x).mem = s.mem := rfl
@[simp] theorem State.setSlot_job (s : State) (k : Nat) (x : Session) : (s.setSlot k x).job = s.job := rfl
@[simp] theorem State.setSlot_upd (s : State) (k : Nat) (x : Session) : (s.setSlot k x).upd = s.upd := rfl
@[simp] theorem State.setSlot_trib (s : State) (k : Nat) (x : Session) : (s.setSlot k x).trib = s.trib := rfl
@[simp] theorem State.setSlot_cas (s : State) (k : Nat) (x : Session) : (s.setSlot k x).cas = s.cas := rfl
@[simp] theorem State.setSlot_buddy (s : State) (k : Nat) (x : Session) : (s.setSlot k x).buddy = s.buddy := rfl
@[simp] theorem State.setSlot_ckpt (s : State) (k : Nat) (x : Session) : (s.setSlot k x).ckpt = s.ckpt := rfl
@[simp] theorem State.setSlot_restore (s : State) (k : Nat) (x : Session) : (s.setSlot k x).restore = s.restore := rfl
@[simp] theorem State.setSlot_links (s : State) (k : Nat) (x : Session) : (s.setSlot k x).links = s.links := rfl
@[simp] theorem State.setSlot_arbs (s : State) (k : Nat) (x : Session) : (s.setSlot k x).arbs = s.arbs := rfl
@[simp] theorem State.setSlot_bq (s : State) (k : Nat) (x : Session) : (s.setSlot k x).bq = s.bq := rfl
@[simp] theorem State.setSlot_ports (s : State) (k : Nat) (x : Session) : (s.setSlot k x).ports = s.ports := rfl
@[simp] theorem State.setSlot_sec (s : State) (k : Nat) (x : Session) : (s.setSlot k x).sec = s.sec := rfl
@[simp] theorem State.setSlot_power (s : State) (k : Nat) (x : Session) : (s.setSlot k x).power = s.power := rfl
@[simp] theorem State.setSlot_ob (s : State) (k : Nat) (x : Session) : (s.setSlot k x).ob = s.ob := rfl
@[simp] theorem State.setSlot_load (s : State) (k : Nat) (x : Session) : (s.setSlot k x).load = s.load := rfl
@[simp] theorem State.setSlot_loadLayout (s : State) (k : Nat) (x : Session) : (s.setSlot k x).loadLayout = s.loadLayout := rfl
@[simp] theorem State.setSlot_desc (s : State) (k : Nat) (x : Session) : (s.setSlot k x).desc = s.desc := rfl
@[simp] theorem State.setSlot_own (s : State) (k : Nat) (x : Session) : (s.setSlot k x).own = s.own := rfl
@[simp] theorem State.setSlot_weir (s : State) (k : Nat) (x : Session) : (s.setSlot k x).weir = s.weir := rfl
@[simp] theorem State.setSlot_log (s : State) (k : Nat) (x : Session) : (s.setSlot k x).log = s.log := rfl
@[simp] theorem State.setSlot_pf0 (s : State) (k : Nat) (x : Session) : (s.setSlot k x).pf0 = s.pf0 := rfl
@[simp] theorem State.setSlot_out (s : State) (k : Nat) (x : Session) : (s.setSlot k x).out = s.out := rfl
@[simp] theorem State.setSlot_free (s : State) (k : Nat) (x : Session) : (s.setSlot k x).free = s.free := rfl
@[simp] theorem State.setSlot_pending (s : State) (k : Nat) (x : Session) : (s.setSlot k x).pending = s.pending := rfl

/-! Cores and registers. -/

@[simp] theorem State.core_setCore_self (s : State) (c : Nat) (k : CoreState) : (s.setCore c k).core c = k := mget_mset_self ..

theorem State.core_setCore_ne (s : State) {c e : Nat} (k : CoreState) (h : c ≠ e) : (s.setCore c k).core e = s.core e :=
  mget_mset_ne _ _ k h

@[simp] theorem State.core_onCore_self (s : State) (c : Nat) (f : CoreState → CoreState) : (s.onCore c f).core c = f (s.core c) :=
  s.core_setCore_self c _

theorem State.core_onCore_ne (s : State) {c e : Nat} (f : CoreState → CoreState) (h : c ≠ e) : (s.onCore c f).core e = s.core e :=
  s.core_setCore_ne _ h

/-- s0 reads as 0 (R142). -/
@[simp] theorem CoreState.reg_zero (k : CoreState) : k.reg 0 = 0 := rfl

/-- A write of s0 is ignored (R142). -/
@[simp] theorem CoreState.setReg_zero (k : CoreState) (v : Word64) : k.setReg 0 v = k := rfl

/-- A register read after a register write (R142). -/
theorem CoreState.reg_setReg (k : CoreState) (r q : Reg) (v : Word64) :
    (k.setReg r v).reg q = if q = 0 then 0 else if q = r then v else k.reg q := by
  unfold CoreState.reg CoreState.setReg
  by_cases hq : q = 0
  · rw [if_pos hq, if_pos hq]
  · rw [if_neg hq, if_neg hq]
    by_cases hr : r = 0
    · rw [if_pos hr, if_neg hq, if_neg (fun h => hq (h.trans hr))]
    · rw [if_neg hr]
      by_cases hqr : q = r
      · rw [if_pos hqr, hqr]; exact mget_mset_self ..
      · rw [if_neg hqr, if_neg hq]
        exact mget_mset_ne _ _ _ (fun h => hqr (BitVec.eq_of_toNat_eq h.symm))

/-- A register write changes nothing of a core but its registers. -/
theorem CoreState.setReg_eq (k : CoreState) (r : Reg) (v : Word64) : k.setReg r v = { k with regs := (k.setReg r v).regs } := by
  unfold CoreState.setReg; split <;> rfl

@[simp] theorem CoreState.setReg_run (k : CoreState) (r : Reg) (v : Word64) : (k.setReg r v).run = k.run := by unfold CoreState.setReg; split <;> rfl
@[simp] theorem CoreState.setReg_pc (k : CoreState) (r : Reg) (v : Word64) : (k.setReg r v).pc = k.pc := by unfold CoreState.setReg; split <;> rfl
@[simp] theorem CoreState.setReg_vl (k : CoreState) (r : Reg) (v : Word64) : (k.setReg r v).vl = k.vl := by unfold CoreState.setReg; split <;> rfl
@[simp] theorem CoreState.setReg_image (k : CoreState) (r : Reg) (v : Word64) : (k.setReg r v).image = k.image := by unfold CoreState.setReg; split <;> rfl
@[simp] theorem CoreState.setReg_sdm (k : CoreState) (r : Reg) (v : Word64) : (k.setReg r v).sdm = k.sdm := by unfold CoreState.setReg; split <;> rfl
@[simp] theorem CoreState.setReg_tableCopy (k : CoreState) (r : Reg) (v : Word64) : (k.setReg r v).tableCopy = k.tableCopy := by unfold CoreState.setReg; split <;> rfl
@[simp] theorem CoreState.setReg_tablePast (k : CoreState) (r : Reg) (v : Word64) : (k.setReg r v).tablePast = k.tablePast := by unfold CoreState.setReg; split <;> rfl
@[simp] theorem CoreState.setReg_sram (k : CoreState) (r : Reg) (v : Word64) : (k.setReg r v).sram = k.sram := by unfold CoreState.setReg; split <;> rfl
@[simp] theorem CoreState.setReg_side (k : CoreState) (r : Reg) (v : Word64) : (k.setReg r v).side = k.side := by unfold CoreState.setReg; split <;> rfl
@[simp] theorem CoreState.setReg_poison (k : CoreState) (r : Reg) (v : Word64) : (k.setReg r v).poison = k.poison := by unfold CoreState.setReg; split <;> rfl
@[simp] theorem CoreState.setReg_vregs (k : CoreState) (r : Reg) (v : Word64) : (k.setReg r v).vregs = k.vregs := by unfold CoreState.setReg; split <;> rfl
@[simp] theorem CoreState.setReg_masks (k : CoreState) (r : Reg) (v : Word64) : (k.setReg r v).masks = k.masks := by unfold CoreState.setReg; split <;> rfl
@[simp] theorem CoreState.setReg_summaries (k : CoreState) (r : Reg) (v : Word64) : (k.setReg r v).summaries = k.summaries := by unfold CoreState.setReg; split <;> rfl
@[simp] theorem CoreState.setReg_ftq (k : CoreState) (r : Reg) (v : Word64) : (k.setReg r v).ftq = k.ftq := by unfold CoreState.setReg; split <;> rfl
@[simp] theorem CoreState.setReg_slots (k : CoreState) (r : Reg) (v : Word64) : (k.setReg r v).slots = k.slots := by unfold CoreState.setReg; split <;> rfl
@[simp] theorem CoreState.setReg_mxQ (k : CoreState) (r : Reg) (v : Word64) : (k.setReg r v).mxQ = k.mxQ := by unfold CoreState.setReg; split <;> rfl
@[simp] theorem CoreState.setReg_vecQ (k : CoreState) (r : Reg) (v : Word64) : (k.setReg r v).vecQ = k.vecQ := by unfold CoreState.setReg; split <;> rfl
@[simp] theorem CoreState.setReg_rowQ (k : CoreState) (r : Reg) (v : Word64) : (k.setReg r v).rowQ = k.rowQ := by unfold CoreState.setReg; split <;> rfl
@[simp] theorem CoreState.setReg_tmQ (k : CoreState) (r : Reg) (v : Word64) : (k.setReg r v).tmQ = k.tmQ := by unfold CoreState.setReg; split <;> rfl
@[simp] theorem CoreState.setReg_sendQ (k : CoreState) (r : Reg) (v : Word64) : (k.setReg r v).sendQ = k.sendQ := by unfold CoreState.setReg; split <;> rfl
@[simp] theorem CoreState.setReg_recvQ (k : CoreState) (r : Reg) (v : Word64) : (k.setReg r v).recvQ = k.recvQ := by unfold CoreState.setReg; split <;> rfl
@[simp] theorem CoreState.setReg_updQ (k : CoreState) (r : Reg) (v : Word64) : (k.setReg r v).updQ = k.updQ := by unfold CoreState.setReg; split <;> rfl
@[simp] theorem CoreState.setReg_redIssued (k : CoreState) (r : Reg) (v : Word64) : (k.setReg r v).redIssued = k.redIssued := by unfold CoreState.setReg; split <;> rfl
@[simp] theorem CoreState.setReg_redErrs (k : CoreState) (r : Reg) (v : Word64) : (k.setReg r v).redErrs = k.redErrs := by unfold CoreState.setReg; split <;> rfl
@[simp] theorem CoreState.setReg_drainHold (k : CoreState) (r : Reg) (v : Word64) : (k.setReg r v).drainHold = k.drainHold := by unfold CoreState.setReg; split <;> rfl
@[simp] theorem CoreState.setReg_orderHold (k : CoreState) (r : Reg) (v : Word64) : (k.setReg r v).orderHold = k.orderHold := by unfold CoreState.setReg; split <;> rfl
@[simp] theorem CoreState.setReg_ready (k : CoreState) (r : Reg) (v : Word64) : (k.setReg r v).ready = k.ready := by unfold CoreState.setReg; split <;> rfl
@[simp] theorem CoreState.setReg_errLog (k : CoreState) (r : Reg) (v : Word64) : (k.setReg r v).errLog = k.errLog := by unfold CoreState.setReg; split <;> rfl
@[simp] theorem CoreState.setReg_engines (k : CoreState) (r : Reg) (v : Word64) : (k.setReg r v).engines = k.engines := by unfold CoreState.setReg; split <;> rfl
@[simp] theorem CoreState.setReg_oxbow (k : CoreState) (r : Reg) (v : Word64) : (k.setReg r v).oxbow = k.oxbow := by unfold CoreState.setReg; split <;> rfl
@[simp] theorem CoreState.setReg_layers (k : CoreState) (r : Reg) (v : Word64) : (k.setReg r v).layers = k.layers := by unfold CoreState.setReg; split <;> rfl
@[simp] theorem CoreState.setReg_item (k : CoreState) (r : Reg) (v : Word64) : (k.setReg r v).item = k.item := by unfold CoreState.setReg; split <;> rfl
@[simp] theorem CoreState.setReg_doneSpan (k : CoreState) (r : Reg) (v : Word64) : (k.setReg r v).doneSpan = k.doneSpan := by unfold CoreState.setReg; split <;> rfl
@[simp] theorem CoreState.setReg_waiting (k : CoreState) (r : Reg) (v : Word64) : (k.setReg r v).waiting = k.waiting := by unfold CoreState.setReg; split <;> rfl
@[simp] theorem CoreState.setReg_inflight (k : CoreState) (r : Reg) (v : Word64) : (k.setReg r v).inflight = k.inflight := by unfold CoreState.setReg; split <;> rfl
@[simp] theorem CoreState.setReg_taken (k : CoreState) (r : Reg) (v : Word64) : (k.setReg r v).taken = k.taken := by unfold CoreState.setReg; split <;> rfl
@[simp] theorem CoreState.setReg_riffle (k : CoreState) (r : Reg) (v : Word64) : (k.setReg r v).riffle = k.riffle := by unfold CoreState.setReg; split <;> rfl
@[simp] theorem CoreState.setReg_score (k : CoreState) (r : Reg) (v : Word64) : (k.setReg r v).score = k.score := by unfold CoreState.setReg; split <;> rfl

/-! Dictionary values. -/

@[simp] theorem State.obj_setObj_self (s : State) (i n v : Nat) : (s.setObj i n v).obj i n = v := mget_mset_self ..

theorem State.obj_setObj_ne (s : State) {i n j m : Nat} (v : Nat) (h : objKey i n ≠ objKey j m) : (s.setObj i n v).obj j m = s.obj j m :=
  mget_mset_other _ _ _ v h

@[simp] theorem State.obj_addObj_self (s : State) (i n w v : Nat) : (s.addObj i n w v).obj i n = (s.obj i n + v) % 2 ^ w :=
  s.obj_setObj_self i n _

theorem State.obj_addObj_ne (s : State) {i n j m : Nat} (w v : Nat) (h : objKey i n ≠ objKey j m) :
    (s.addObj i n w v).obj j m = s.obj j m := s.obj_setObj_ne _ h

@[simp] theorem State.setCore_obj (s : State) (c : Nat) (k : CoreState) (i m : Nat) : (s.setCore c k).obj i m = s.obj i m := rfl
@[simp] theorem State.onCore_obj (s : State) (c : Nat) (f : CoreState → CoreState) (i m : Nat) : (s.onCore c f).obj i m = s.obj i m := rfl
@[simp] theorem State.setPort_obj (s : State) (n : Nat) (p : Port) (i m : Nat) : (s.setPort n p).obj i m = s.obj i m := rfl
@[simp] theorem State.queueOn_obj (s : State) (n v : Nat) (r : List Byte) (i m : Nat) : (s.queueOn n v r).obj i m = s.obj i m := rfl
@[simp] theorem State.emit_obj (s : State) (o : Output) (i m : Nat) : (s.emit o).obj i m = s.obj i m := rfl
@[simp] theorem State.setPf0_obj (s : State) (a v : Nat) (i m : Nat) : (s.setPf0 a v).obj i m = s.obj i m := rfl
@[simp] theorem State.setSlot_obj (s : State) (k : Nat) (x : Session) (i m : Nat) : (s.setSlot k x).obj i m = s.obj i m := rfl
@[simp] theorem State.setObj_core (s : State) (i n v : Nat) (e : Nat) : (s.setObj i n v).core e = s.core e := rfl
@[simp] theorem State.addObj_core (s : State) (i n w v : Nat) (e : Nat) : (s.addObj i n w v).core e = s.core e := rfl
@[simp] theorem State.setPort_core (s : State) (n : Nat) (p : Port) (e : Nat) : (s.setPort n p).core e = s.core e := rfl
@[simp] theorem State.queueOn_core (s : State) (n v : Nat) (r : List Byte) (e : Nat) : (s.queueOn n v r).core e = s.core e := rfl
@[simp] theorem State.emit_core (s : State) (o : Output) (e : Nat) : (s.emit o).core e = s.core e := rfl
@[simp] theorem State.setPf0_core (s : State) (a v : Nat) (e : Nat) : (s.setPf0 a v).core e = s.core e := rfl
@[simp] theorem State.setSlot_core (s : State) (k : Nat) (x : Session) (e : Nat) : (s.setSlot k x).core e = s.core e := rfl
@[simp] theorem State.setCore_slot (s : State) (c : Nat) (k : CoreState) (e : Nat) : (s.setCore c k).slot e = s.slot e := rfl
@[simp] theorem State.onCore_slot (s : State) (c : Nat) (f : CoreState → CoreState) (e : Nat) : (s.onCore c f).slot e = s.slot e := rfl
@[simp] theorem State.setObj_slot (s : State) (i n v : Nat) (e : Nat) : (s.setObj i n v).slot e = s.slot e := rfl
@[simp] theorem State.addObj_slot (s : State) (i n w v : Nat) (e : Nat) : (s.addObj i n w v).slot e = s.slot e := rfl
@[simp] theorem State.setPort_slot (s : State) (n : Nat) (p : Port) (e : Nat) : (s.setPort n p).slot e = s.slot e := rfl
@[simp] theorem State.queueOn_slot (s : State) (n v : Nat) (r : List Byte) (e : Nat) : (s.queueOn n v r).slot e = s.slot e := rfl
@[simp] theorem State.emit_slot (s : State) (o : Output) (e : Nat) : (s.emit o).slot e = s.slot e := rfl
@[simp] theorem State.setPf0_slot (s : State) (a v : Nat) (e : Nat) : (s.setPf0 a v).slot e = s.slot e := rfl
@[simp] theorem State.setCore_port (s : State) (c : Nat) (k : CoreState) (e : Nat) : (s.setCore c k).port e = s.port e := rfl
@[simp] theorem State.onCore_port (s : State) (c : Nat) (f : CoreState → CoreState) (e : Nat) : (s.onCore c f).port e = s.port e := rfl
@[simp] theorem State.setObj_port (s : State) (i n v : Nat) (e : Nat) : (s.setObj i n v).port e = s.port e := rfl
@[simp] theorem State.addObj_port (s : State) (i n w v : Nat) (e : Nat) : (s.addObj i n w v).port e = s.port e := rfl
@[simp] theorem State.emit_port (s : State) (o : Output) (e : Nat) : (s.emit o).port e = s.port e := rfl
@[simp] theorem State.setPf0_port (s : State) (a v : Nat) (e : Nat) : (s.setPf0 a v).port e = s.port e := rfl
@[simp] theorem State.setSlot_port (s : State) (k : Nat) (x : Session) (e : Nat) : (s.setSlot k x).port e = s.port e := rfl

@[simp] theorem State.slot_setSlot_self (s : State) (k : Nat) (x : Session) : (s.setSlot k x).slot k = x := mget_mset_self ..

theorem State.slot_setSlot_ne (s : State) {k j : Nat} (x : Session) (h : k ≠ j) : (s.setSlot k x).slot j = s.slot j :=
  mget_mset_ne _ _ x h

@[simp] theorem State.port_setPort_self (s : State) (n : Nat) (p : Port) : (s.setPort n p).port n = p := mget_mset_self ..

theorem State.port_setPort_ne (s : State) {n m : Nat} (p : Port) (h : n ≠ m) : (s.setPort n p).port m = s.port m :=
  mget_mset_ne _ _ p h

end Sys2Proof.Machine
end

