-- ==== Sys2Proof/Laws/Ops.lean ====
section
/-! SUPPORT. What each shared operation can do, said once: sending, recording an event, answering a request. -/

namespace Sys2Proof.Machine

/-- `t` is `s` but for what sending and recording touch: the event log and its epoch in the save store, counters, ports, PF0
registers, the protocol endpoint and what the package sends. -/
def Talks (s t : State) : Prop :=
  t = { s with dict := t.dict, nv := t.nv, log := t.log, ports := t.ports, pf0 := t.pf0, nap := t.nap, out := t.out }

theorem Talks.refl (s : State) : Talks s s := rfl

theorem Talks.trans {s t u : State} (h : Talks s t) (g : Talks t u) : Talks s u := by
  unfold Talks at *
  rw [g, h]

theorem Talks.foldl {α : Type} (f : State → α → State) (hf : ∀ s x, Talks s (f s x)) (l : List α) (s : State) :
    Talks s (l.foldl f s) := by
  induction l generalizing s with
  | nil => exact Talks.refl s
  | cons x l ih => exact (hf s x).trans (ih (f s x))

theorem Talks.emit (s : State) (o : Output) : Talks s (s.emit o) := rfl
theorem Talks.setObj (s : State) (i n v : Nat) : Talks s (s.setObj i n v) := rfl
theorem Talks.addObj (s : State) (i n w v : Nat) : Talks s (s.addObj i n w v) := rfl
theorem Talks.setPf0 (s : State) (a v : Nat) : Talks s (s.setPf0 a v) := rfl
theorem Talks.setPort (s : State) (n : Nat) (p : Port) : Talks s (s.setPort n p) := rfl
theorem Talks.queueOn (s : State) (n v : Nat) (r : List Byte) : Talks s (s.queueOn n v r) := rfl
theorem Talks.interrupt (s : State) (v : Nat) : Talks s (s.interrupt v) := rfl
theorem Talks.setSlot (s : State) (k : Nat) (x : Session) : Talks s (s.setSlot k x) := rfl
theorem Talks.setNap (s : State) (n : Nap) : Talks s { s with nap := n } := rfl

theorem Talks.nextSeq (s : State) : Talks s s.nextSeq := by unfold State.nextSeq; split <;> rfl

theorem Talks.logRecord (s : State) (r : List Byte) : Talks s (s.logRecord r) := by unfold State.logRecord; split <;> rfl

theorem Talks.telemetry (s : State) (r : List Byte) : Talks s (s.telemetry r) := by
  unfold State.telemetry
  simp only
  split
  · rfl
  · split
    · rfl
    · split <;> rfl

theorem Talks.sideband (s : State) (d : Nat) (f : List Byte) : Talks s (s.sideband d f) := by
  unfold State.sideband; split <;> rfl

theorem Talks.notify (s : State) (r : List Byte) : Talks s (s.notify r) := by
  unfold State.notify
  apply Talks.foldl
  intro t e
  simp only
  split
  · exact Talks.emit _ _
  · exact (Talks.sideband _ _ _).trans (Talks.emit _ _)
  · exact Talks.refl _

/-- One event record touches the log, its epoch, a counter, PF0 and what the package sends. -/
theorem Talks.recordOne (s : State) (e : Event) : Talks s (s.recordOne e) := by
  unfold State.recordOne
  have h : ∀ r, Talks s (((s.nextSeq.logRecord r).telemetry r).notify r) := fun r =>
    (((Talks.nextSeq s).trans (Talks.logRecord _ r)).trans (Talks.telemetry _ r)).trans (Talks.notify _ r)
  simp only
  split
  · exact (h _).trans (Talks.interrupt _ _)
  · exact h _

/-- An event recorded, with what its own recording brings about, touches no more than one record does. -/
theorem Talks.record (s : State) (e : Event) : Talks s (s.record e) := by
  unfold State.record
  refine Talks.trans ?_ (Talks.foldl _ (fun t _ => Talks.recordOne t _) _ _)
  split
  · exact (Talks.recordOne s e).trans (Talks.recordOne _ _)
  · exact Talks.recordOne s e

theorem Talks.segment (s : State) (p i n ty o tot : Nat) (l : Bool) (v : List Byte) : Talks s (s.segment p i n ty o tot l v) := by
  unfold State.segment
  simp only
  refine Talks.trans ?_ (Talks.emit _ _)
  repeat' split
  all_goals first
    | exact Talks.setNap s _
    | exact (Talks.setNap s _).trans (Talks.sideband _ _ _)
    | exact (Talks.setNap s _).trans (Talks.record _ _)

/-- A command to another position touches only what sending touches. -/
theorem Talks.command (s : State) (p i n : Nat) (v : List Byte) : Talks s (s.command p i n v) := by
  unfold State.command
  simp only
  exact Talks.foldl _ (fun t c => Talks.segment t _ _ _ _ _ _ _ _) _ s

theorem Talks.respond (s : State) (c : Carrier) (f : List Byte) : Talks s (s.respond c f) := by
  unfold State.respond
  split
  · split <;> rfl
  · rfl
  · refine Talks.trans ?_ (Talks.emit _ _)
    split
    · exact Talks.sideband _ _ _
    · exact Talks.record _ _

/-- Answering a request touches only what sending touches, of the state that its action left. -/
theorem Talks.finish (r : NapReq) (p : Reply) (key : List Byte) (b : Bool) : Talks p.st (finish r p key b) := by
  unfold Machine.finish
  simp only
  split
  · exact Talks.refl _
  · refine Talks.trans ?_ (Talks.respond _ _ _)
    have h1 : Talks p.st (if p.status = stBusy then p.st.addObj 0xB200 3 64 1 else p.st) := by
      split
      · exact Talks.addObj _ _ _ _ _
      · exact Talks.refl _
    refine h1.trans ?_
    generalize (if p.status = stBusy then p.st.addObj 0xB200 3 64 1 else p.st) = t
    repeat' split
    all_goals first
      | exact Talks.refl _
      | exact Talks.setSlot _ _ _
      | exact Talks.setNap _ _

/-! An event of class FAULT besides reports itself, and a self-lost one takes the package out of its job (R309). -/

/-- An event that is not self-lost only talks. -/
theorem Talks.event (s : State) (e : Event) (h : e.selfLost = false) : Talks s (s.event e) := by
  unfold State.event
  simp only [h, Bool.false_eq_true, if_false]
  split
  · exact (Talks.record s e).trans (Talks.command _ _ _ _ _)
  · exact Talks.record s e

/-- PROGRAM_FAULT (R143) leaves the core FAULTED and otherwise only talks. -/
theorem Talks.programFault (s : State) (c cause : Nat) :
    Talks (s.setCore c { s.core c with run := .faulted, waiting := .none }) (s.programFault c cause) :=
  Talks.event _ _ rfl

end Sys2Proof.Machine
end

