-- ==== Sys2Proof/Laws/Serve.lean ====
section
/-! SUPPORT. Serving a request, said once: what a fresh request leaves, and that its outcome is answered. -/

namespace Sys2Proof.Machine

open Sys2Proof.Safety

/-! Words of a layout. -/

/-- Little-endian bytes spell the number that they were made of. -/
theorem leNat_leBytes (n v : Nat) : leNat (leBytes n v) = v % 256 ^ n := by
  induction n generalizing v with
  | zero => simp [leBytes, leNat, Nat.mod_one]
  | succ n ih =>
    simp only [leBytes, leNat, ih, BitVec.toNat_ofNat]
    exact (show v % 256 ^ (n + 1) = v % (256 * 256 ^ n) by rw [Nat.pow_succ, Nat.mul_comm]).trans Nat.mod_mul |>.symm

/-- Word `i` of words laid out, whatever follows them. -/
theorem wd_wordsLE (ws : List Nat) (b : List Byte) (i : Nat) (h : i < ws.length) : wd (wordsLE ws ++ b) i = ws.getD i 0 % 2 ^ 32 := by
  induction ws generalizing i with
  | nil => simp at h
  | cons w ws ih =>
    have e : wordsLE (w :: ws) ++ b = leBytes 4 w ++ (wordsLE ws ++ b) := by simp [wordsLE]
    rw [e]
    cases i with
    | zero =>
      have h4 : (leBytes 4 w ++ (wordsLE ws ++ b)).take 4 = leBytes 4 w := List.take_left' (leBytes_length 4 w)
      exact (congrArg leNat h4).trans (leNat_leBytes 4 w)
    | succ i =>
      have hd : (leBytes 4 w ++ (wordsLE ws ++ b)).drop (4 * (i + 1)) = (wordsLE ws ++ b).drop (4 * i) := by
        rw [show 4 * (i + 1) = 4 + 4 * i by omega, ← List.drop_drop, List.drop_left' (leBytes_length 4 w)]
      have := ih i (by simpa using h)
      simpa only [wd, fld, hd, List.getD_cons_succ] using this

/-! What recording an event and sending a command leave as they were. -/

/-- `t` is `s` but for the event log and its epoch, the counter of lost events, ports, PF0 registers, the SEQ series of what
the package writes to others, and what it sends more. -/
def Logs (s t : State) : Prop :=
  t = { s with
    dict := t.dict, nv := { s.nv with epoch := t.nv.epoch }, log := t.log, ports := t.ports, pf0 := t.pf0,
    nap := { s.nap with outSeq := t.nap.outSeq }, out := t.out } ∧
  (∀ i n, objKey i n ≠ 0xB00204 → t.obj i n = s.obj i n) ∧ ∃ l, t.out = s.out ++ l

theorem Logs.refl (s : State) : Logs s s := ⟨rfl, fun _ _ _ => rfl, [], by simp⟩

theorem Logs.trans {s t u : State} (h : Logs s t) (g : Logs t u) : Logs s u := by
  obtain ⟨h1, h2, l, h3⟩ := h
  obtain ⟨g1, g2, m, g3⟩ := g
  refine ⟨?_, fun i n e => (g2 i n e).trans (h2 i n e), l ++ m, by rw [g3, h3, List.append_assoc]⟩
  rw [h1] at g1
  exact g1

theorem Logs.foldl {α : Type} (f : State → α → State) (hf : ∀ s x, Logs s (f s x)) (l : List α) (s : State) : Logs s (l.foldl f s) := by
  induction l generalizing s with
  | nil => exact Logs.refl s
  | cons x l ih => exact (hf s x).trans (ih (f s x))

theorem Logs.emit (s : State) (o : Output) : Logs s (s.emit o) := ⟨rfl, fun _ _ _ => rfl, [o], rfl⟩
theorem Logs.setPf0 (s : State) (a v : Nat) : Logs s (s.setPf0 a v) := ⟨rfl, fun _ _ _ => rfl, [], by simp [State.setPf0]⟩
theorem Logs.queueOn (s : State) (n v : Nat) (r : List Byte) : Logs s (s.queueOn n v r) :=
  ⟨rfl, fun _ _ _ => rfl, [], by simp [State.queueOn, State.setPort]⟩
theorem Logs.interrupt (s : State) (v : Nat) : Logs s (s.interrupt v) := (Logs.setPf0 s _ _).trans (Logs.emit _ _)

theorem Logs.nextSeq (s : State) : Logs s s.nextSeq := by
  unfold State.nextSeq; split <;> exact ⟨rfl, fun _ _ _ => rfl, [], by simp⟩

theorem Logs.logRecord (s : State) (r : List Byte) : Logs s (s.logRecord r) := by
  unfold State.logRecord
  split
  · exact ⟨rfl, fun _ _ _ => rfl, [], by simp⟩
  · refine ⟨rfl, fun i n e => ?_, [], by simp [State.addObj, State.setObj]⟩
    exact mget_mset_other _ _ _ _ (show objKey 0xB002 4 ≠ objKey i n from Ne.symm e)

theorem Logs.telemetry (s : State) (r : List Byte) : Logs s (s.telemetry r) := by
  unfold State.telemetry
  simp only
  split
  · exact Logs.refl s
  · split
    · exact Logs.setPf0 _ _ _
    · have h : Logs s ((s.emit (.hostWrite (s.pf0Reg 0x20 + 32 * s.pf0Reg 0x30) r)).setPf0 0x30 ((s.pf0Reg 0x30 + 1) % s.pf0Reg 0x28)) :=
        (Logs.emit _ _).trans (Logs.setPf0 _ _ _)
      split
      · exact h.trans (Logs.interrupt _ _)
      · exact h

theorem Logs.sideband (s : State) (d : Nat) (f : List Byte) : Logs s (s.sideband d f) := by
  unfold State.sideband
  split
  · exact Logs.queueOn _ _ _ _
  · exact Logs.refl s

theorem Logs.notify (s : State) (r : List Byte) : Logs s (s.notify r) := by
  unfold State.notify
  apply Logs.foldl
  intro t e
  simp only
  split
  · exact Logs.emit _ _
  · exact (Logs.sideband _ _ _).trans (Logs.emit _ _)
  · exact Logs.refl _

/-- One event record leaves everything but what recording touches. -/
theorem Logs.recordOne (s : State) (e : Event) : Logs s (s.recordOne e) := by
  unfold State.recordOne
  have h : ∀ r, Logs s (((s.nextSeq.logRecord r).telemetry r).notify r) := fun r =>
    (((Logs.nextSeq s).trans (Logs.logRecord _ r)).trans (Logs.telemetry _ r)).trans (Logs.notify _ r)
  simp only
  split
  · exact (h _).trans (Logs.interrupt _ _)
  · exact h _

/-- An event recorded leaves everything but what recording touches. -/
theorem Logs.record (s : State) (e : Event) : Logs s (s.record e) := by
  unfold State.record
  refine Logs.trans ?_ (Logs.foldl _ (fun t _ => Logs.recordOne t _) _ _)
  split
  · exact (Logs.recordOne s e).trans (Logs.recordOne _ _)
  · exact Logs.recordOne s e

theorem Logs.segment (s : State) (p i n ty o tot : Nat) (l : Bool) (v : List Byte) : Logs s (s.segment p i n ty o tot l v) := by
  unfold State.segment
  simp only
  refine Logs.trans ?_ (Logs.emit _ _)
  have h : ∀ q, Logs s { s with nap := { s.nap with outSeq := q } } := fun q => ⟨rfl, fun _ _ _ => rfl, [], by simp⟩
  repeat' split
  all_goals first
    | exact h _
    | exact (h _).trans (Logs.sideband _ _ _)
    | exact (h _).trans (Logs.record _ _)

/-- A command to another position leaves everything but what sending touches. -/
theorem Logs.command (s : State) (p i n : Nat) (v : List Byte) : Logs s (s.command p i n v) := by
  unfold State.command
  simp only
  exact Logs.foldl _ (fun t c => Logs.segment t _ _ _ _ _ _ _ _) _ s

/-- An event that is not self-lost leaves everything but what recording and reporting touch. -/
theorem Logs.event (s : State) (e : Event) (h : e.selfLost = false) : Logs s (s.event e) := by
  unfold State.event
  simp only [h, Bool.false_eq_true, if_false]
  split
  · exact (Logs.record s e).trans (Logs.command _ _ _ _ _)
  · exact Logs.record s e

/-! The endpoint, which recording leaves alone. -/

/-- What every step of a fold keeps, the fold keeps. -/
theorem foldl_keeps {α β : Type} (g : State → β) (f : State → α → State) (hf : ∀ s x, g (f s x) = g s) (l : List α) (s : State) :
    g (l.foldl f s) = g s := by
  induction l generalizing s with
  | nil => rfl
  | cons x l ih => exact (ih (f s x)).trans (hf s x)

theorem recordOne_nap (s : State) (e : Event) : (s.recordOne e).nap = s.nap := by
  have h1 : s.nextSeq.nap = s.nap := by unfold State.nextSeq; split <;> rfl
  have h2 : ∀ (t : State) r, (t.logRecord r).nap = t.nap := fun t r => by unfold State.logRecord; split <;> rfl
  have h6 : ∀ (t : State) v, (t.interrupt v).nap = t.nap := fun _ _ => rfl
  have h3 : ∀ (t : State) r, (t.telemetry r).nap = t.nap := fun t r => by
    unfold State.telemetry
    simp only
    split
    · rfl
    · split
      · exact State.setPf0_nap _ _ _
      · split
        · exact (h6 _ _).trans (State.setPf0_nap _ _ _)
        · exact State.setPf0_nap _ _ _
  have h4 : ∀ (t : State) d f, (t.sideband d f).nap = t.nap := fun t d f => by unfold State.sideband; split <;> rfl
  have h5 : ∀ (t : State) r, (t.notify r).nap = t.nap := fun t r => by
    unfold State.notify
    refine foldl_keeps (fun u => u.nap) _ (fun u e => ?_) _ t
    simp only
    split
    · rfl
    · rw [State.emit_nap, h4]
    · rfl
  unfold State.recordOne
  simp only
  split
  · rw [h6, h5, h3, h2, h1]
  · rw [h5, h3, h2, h1]

/-- An event recorded leaves the protocol endpoint as it was. -/
theorem record_nap (s : State) (e : Event) : (s.record e).nap = s.nap := by
  unfold State.record
  refine (foldl_keeps (fun u => u.nap) _ (fun u _ => recordOne_nap u _) _ _).trans ?_
  split
  · exact (recordOne_nap _ _).trans (recordOne_nap s e)
  · exact recordOne_nap s e

/-! Responses. -/

/-- The bytes of a frame begin with its header and its value. -/
theorem NapFrame.bytes_eq (f : NapFrame) (key : List Byte) : ∃ rest, f.bytes key =
    wordsLE [1 + f.opcode % 256 * 2 ^ 8 + b01 f.response * 2 ^ 16 + b01 f.staged * 2 ^ 17 + b01 f.last * 2 ^ 18
      + b01 (!key.isEmpty) * 2 ^ 19 + f.status * 2 ^ 24,
      f.session, f.seq, f.index + f.sub * 2 ^ 16 + f.type % 16 * 2 ^ 24, f.offset, f.value.length, f.total, f.detail] ++
    (f.value ++ rest) := by
  unfold NapFrame.bytes NapFrame.body
  cases h : key.isEmpty
  · simp only [Bool.not_false, Bool.false_eq_true, if_false, List.append_assoc]; exact ⟨_, rfl⟩
  · simp only [Bool.not_true, if_true, List.append_assoc]; exact ⟨_, rfl⟩

theorem b01_le (b : Bool) : b01 b ≤ 1 := by cases b <;> decide

/-- What a response frame says. -/
theorem respFrame_says (r : NapReq) (p : Reply) (key : List Byte) (hs : p.status < 256) (hv : p.value.length < 2 ^ 32) :
    wb (respFrame r p key) 0 24 8 = p.status ∧ wd (respFrame r p key) 2 = r.seq % 2 ^ 32 ∧
    wd (respFrame r p key) 7 = p.detail % 2 ^ 32 ∧ wd (respFrame r p key) 5 = p.value.length ∧
    ((respFrame r p key).drop 32).take p.value.length = p.value := by
  obtain ⟨rest, h⟩ := NapFrame.bytes_eq (NapFrame.mk r.opcode true false p.last false p.status (p.session.getD r.session) r.seq
    (p.object.getD (r.index, r.sub, r.type)).1 (p.object.getD (r.index, r.sub, r.type)).2.1 (p.object.getD (r.index, r.sub, r.type)).2.2
    p.offset p.total p.detail p.value) key
  have e : respFrame r p key = _ := h
  rw [e]
  refine ⟨?_, ?_, ?_, ?_, ?_⟩
  · rw [wb, wd_wordsLE _ _ 0 (by simp), bits]
    have h1 := b01_le p.last
    have h2 := b01_le (!key.isEmpty)
    simp only [List.getD_cons_zero, b01, if_true, Bool.false_eq_true, if_false] at *
    omega
  · rw [wd_wordsLE _ _ 2 (by simp)]; rfl
  · rw [wd_wordsLE _ _ 7 (by simp)]; rfl
  · rw [wd_wordsLE _ _ 5 (by simp)]; exact Nat.mod_eq_of_lt hv
  · rw [List.drop_left' (by simp), List.take_left' rfl]

/-- A frame sent to its carrier: it stands in what the package sends, and in the mailbox in its slot. With a way to its carrier it
records nothing. -/
theorem respond_says (s : State) (c : Carrier) (f : List Byte) (h : ∀ k, c = .pf1 k → mget 0xFFFFFFFF s.nap.rspLen k = 0) :
    ∃ rsp box ports dict nv log pf0 l m,
      s.respond c f = { s with
        nap := { s.nap with rspLen := rsp, mailbox := box }, ports := ports, dict := dict, nv := { s.nv with epoch := nv }, log := log,
        pf0 := pf0, out := s.out ++ l ++ .nap c f :: m } ∧
      ((∀ q, c = .sideband q → q = s.position ∨ q = s.groupPosition ∨ (s.route q).isSome = true) →
        dict = s.dict ∧ nv = s.nv.epoch ∧ log = s.log ∧ pf0 = s.pf0 ∧ l = []) ∧
      ∀ k, c = .pf1 k → mget 0xFFFFFFFF rsp k = f.length ∧ (mget Mailbox.empty box k).response.take f.length = f := by
  unfold State.respond
  cases c with
  | udp a p =>
    exact ⟨s.nap.rspLen, s.nap.mailbox, s.ports, s.dict, s.nv.epoch, s.log, s.pf0, [], [], by simp [State.emit],
      fun _ => ⟨rfl, rfl, rfl, rfl, rfl⟩, fun k e => nomatch e⟩
  | pf1 k =>
    simp only [h k rfl, if_true]
    refine ⟨mset 0xFFFFFFFF s.nap.rspLen k f.length,
      mset Mailbox.empty s.nap.mailbox k ((mget Mailbox.empty s.nap.mailbox k).answered f), s.ports, s.dict, s.nv.epoch, s.log, s.pf0, [],
      [.interrupt 1 0], by simp [State.emit], fun _ => ⟨rfl, rfl, rfl, rfl, rfl⟩, fun j e => ?_⟩
    cases e
    exact ⟨mget_mset_self .., by rw [mget_mset_self]; simp [Mailbox.answered, overlay]⟩
  | sideband p =>
    simp only
    split
    · simp only [State.sideband]
      split
      · exact ⟨s.nap.rspLen, s.nap.mailbox, _, s.dict, s.nv.epoch, s.log, s.pf0, [], [],
          by simp [State.emit, State.queueOn, State.setPort]; rfl, fun _ => ⟨rfl, rfl, rfl, rfl, rfl⟩, fun k e => nomatch e⟩
      · exact ⟨s.nap.rspLen, s.nap.mailbox, s.ports, s.dict, s.nv.epoch, s.log, s.pf0, [], [], by simp [State.emit],
          fun _ => ⟨rfl, rfl, rfl, rfl, rfl⟩, fun k e => nomatch e⟩
    · rename_i hn
      have hl := Logs.record s { code := 0x0602, cls := .degraded, d0 := p }
      have hnap := record_nap s { code := 0x0602, cls := .degraded, d0 := p }
      generalize s.record { code := 0x0602, cls := .degraded, d0 := p } = t at hl hnap
      obtain ⟨h1, -, l, h3⟩ := hl
      refine ⟨s.nap.rspLen, s.nap.mailbox, t.ports, t.dict, t.nv.epoch, t.log, t.pf0, l, [], ?_,
        fun g => absurd (g p rfl) (by simpa using hn), fun k e => nomatch e⟩
      have h4 : t.emit (.nap (.sideband p) f) = { t with nap := s.nap, out := s.out ++ l ++ [Output.nap (.sideband p) f] } := by
        rw [← hnap, ← h3]; rfl
      exact h4.trans (congrArg (fun x : State => { x with nap := s.nap, out := s.out ++ l ++ [Output.nap (.sideband p) f] }) h1)

/-- What keeps a response changes of a state: the stored responses of one session, or of one source position. -/
theorem keep_says (t : State) (r : NapReq) (f : List Byte) (store : Bool) (x : Session) (u : State)
    (h : u = (if !store then t
      else if r.session ≠ 0 then
        if x.isOpen ∧ x.gen = r.session / 32 then
          t.setSlot (r.session % 32) { x with stored := keep x.stored ⟨r.seq, f⟩, newestSeq := newestOf x.newestSeq r.seq }
        else t
      else match r.source with
        | some q =>
          let e := (mget none t.nap.pos0 q).getD ⟨none, []⟩
          { t with nap := { t.nap with
            pos0 := mset none t.nap.pos0 q (some ⟨newestOf e.newestSeq r.seq, keep e.stored ⟨r.seq, f⟩⟩) } }
        | none => t)) (hx : x = t.slot (r.session % 32)) :
    ∃ sessions pos, u = { t with nap := { t.nap with sessions := sessions, pos0 := pos } } ∧
      ∀ k, u.slot k = { t.slot k with stored := (u.slot k).stored, newestSeq := (u.slot k).newestSeq } := by
  repeat' split at h
  all_goals subst h
  all_goals first
    | exact ⟨t.nap.sessions, t.nap.pos0, rfl, fun k => rfl⟩
    | exact ⟨t.nap.sessions, _, rfl, fun k => rfl⟩
    | (refine ⟨_, _, rfl, fun k => ?_⟩; subst hx
       simp only [State.slot, State.setSlot, mget_mset]
       all_goals
         split
         · rename_i e; subst e; rfl
         · rfl)

/-- An outcome that is not put off is answered, over the state that its action left. -/
theorem finish_answers (r : NapReq) (p : Reply) (key : List Byte) (b : Bool) (hl : p.later = false) (hs : p.status < 256)
    (hv : p.value.length < 2 ^ 32) (hr : ∀ k, r.carrier = .pf1 k → mget 0xFFFFFFFF p.st.nap.rspLen k = 0) :
    Answers p.st (finish r p key b) r p.status p.detail p.value := by
  have hsay := respFrame_says r p key hs hv
  unfold finish
  simp only [hl, Bool.false_eq_true, if_false]
  generalize ht : (if p.status = stBusy then p.st.addObj 0xB200 3 64 1 else p.st) = t
  generalize hu : (if (!b || !p.keep) = true then t else _) = u
  obtain ⟨ss, ps, e, g⟩ := keep_says t r (respFrame r p key) (!(!b || !p.keep)) (t.slot (r.session % 32)) u
    (hu.symm.trans (by cases b <;> cases p.keep <;> rfl)) rfl
  have hn : t.nap = p.st.nap := by rw [← ht]; split <;> rfl
  have ho : t.out = p.st.out := by rw [← ht]; split <;> rfl
  have hd : t = { p.st with dict := (if p.status = 8 then (p.st.addObj 0xB200 3 64 1).dict else p.st.dict) } := by
    rw [← ht, stBusy]; split <;> rfl
  have hr2 : u.nap.rspLen = p.st.nap.rspLen := by rw [e]; exact congrArg (·.rspLen) hn
  obtain ⟨rsp, box, ports, dict, nv, log, pf0, l, m, q, hq, hb⟩ :=
    respond_says u r.carrier (respFrame r p key) (fun k hk => by rw [hr2]; exact hr k hk)
  have hpos : ∀ i n, objKey 0xB200 3 ≠ objKey i n → u.obj i n = p.st.obj i n := by
    intro i n hne
    rw [e]
    show t.obj i n = _
    rw [← ht]
    split
    · exact State.obj_setObj_ne _ _ hne
    · rfl
  have hway : Safety.Reaches p.st r →
      ∀ x, r.carrier = .sideband x → x = u.position ∨ x = u.groupPosition ∨ (u.route x).isSome = true := by
    intro h x hx
    have h1 : u.position = p.st.position := hpos 0x4030 1 (by decide)
    have h2 : u.groupPosition = p.st.groupPosition := by
      unfold State.groupPosition; rw [h1, e, hd]; rfl
    have h3 : u.route x = p.st.route x := by rw [e, hd]; rfl
    rw [h1, h2, h3]; exact h x hx
  have hs2 : ∀ k, t.slot k = p.st.slot k := fun k => by simp only [State.slot, hn]
  have hu2 : u.dict = t.dict ∧ u.nv = t.nv ∧ u.log = t.log ∧ u.pf0 = t.pf0 ∧ u.out = t.out := by rw [e]; exact ⟨rfl, rfl, rfl, rfl, rfl⟩
  have ht2 : t.dict = (if p.status = 8 then (p.st.addObj 0xB200 3 64 1).dict else p.st.dict) ∧ t.nv = p.st.nv ∧ t.log = p.st.log ∧
      t.pf0 = p.st.pf0 := by rw [hd]; exact ⟨rfl, rfl, rfl, rfl⟩
  rw [q]
  refine ⟨?_, fun h => ?_, fun k => ?_, respFrame r p key, l, m, ?_, fun h => (hq (hway h)).2.2.2.2, hsay.1, hsay.2.1, hsay.2.2.1,
    hsay.2.2.2.1, hsay.2.2.2.2, hb⟩
  · subst e; rw [hd]
  · obtain ⟨q1, q2, q3, q4, -⟩ := hq (hway h)
    refine ⟨?_, ?_, ?_, ?_⟩
    · show log = _; rw [q3, hu2.2.2.1, ht2.2.2.1]
    · show pf0 = _; rw [q4, hu2.2.2.2.1, ht2.2.2.2]
    · show ({ u.nv with epoch := nv } : SaveStore) = _; rw [q2, hu2.2.1, ht2.2.1]
    · show dict = _; rw [q1, hu2.1, ht2.1]
  · have := g k; rw [hs2 k] at this; exact this
  · show u.out ++ l ++ _ = _; rw [hu2.2.2.2.2, ho]

/-- A fresh request is executed, and its outcome answered. -/
theorem serve_fresh (s : State) (r : NapReq) (b : State) (act : State → Reply) (h : TakenUp s r b) (f : FreshRequest b r) :
    ∃ key store, s.serve r act = finish r (act (b.addObj 0xB200 1 64 1)) key store := by
  obtain ⟨hp, hq, _⟩ := h
  have hs : s.serving = true := by simp [State.serving, hp]
  have main : ∃ key store, b.handle r act = finish r (act (b.addObj 0xB200 1 64 1)) key store := by
    unfold State.handle
    simp only
    have stale : ∀ (l : List Stored), NewSeq l r.seq → l.find? (fun e => decide (e.seq = r.seq)) = none ∧
        ¬ (l.length = 8 ∧ l.all (fun e => newer 32 e.seq r.seq) = true) := by
      intro l hn
      refine ⟨List.find?_eq_none.2 (fun e he => by simpa using hn.1 e he), fun ⟨h8, ha⟩ => ?_⟩
      obtain ⟨e, he, hf⟩ := hn.2 h8
      have := List.all_eq_true.1 ha e he
      rw [hf] at this; cases this
    have order : ∀ (l : List Stored) n key, NewSeq l r.seq →
        b.inOrder r l n key act = finish r (act (b.addObj 0xB200 1 64 1)) key true := by
      intro l n key hn
      obtain ⟨n1, n2⟩ := stale l hn
      unfold State.inOrder
      simp only [n1, n2, if_false]
    split
    · rename_i k hk
      obtain ⟨h1, h2⟩ := f.1 k hk
      simp only [h1, Bool.false_eq_true, if_false]
      exact ⟨_, _, order _ _ _ h2⟩
    · rename_i hk
      have hf := f.2 hk
      split
      · rename_i q h0 h2 h3
        have g := hf h0 h2 q h3
        split
        · rename_i hn
          simp only [hn] at g
          rw [if_neg (by omega)]; exact ⟨_, _, rfl⟩
        · rename_i e hn
          simp only [hn] at g
          exact ⟨_, _, order _ _ _ g⟩
      · exact ⟨_, _, rfl⟩
  unfold State.serve
  simp only [hs, Bool.not_true, Bool.false_eq_true, if_false]
  rcases hq with ⟨rest, e, hb⟩ | ⟨e, ha⟩
  · simp only [e, if_true]; rw [hb] at main; exact main.imp fun _ h => h.imp fun _ h => by rw [hb]; exact h
  · simp only [e, ha]; exact main

/-- The request passes both gates: what the row of a command object answers is what its action says, where the writer may write. -/
theorem commandReply_ready (s u : State) (r : NapReq) (i n : Nat) (who : State → NapReq → Bool) (act : State → NapReq → List Byte → Reply)
    (h : Ready s r i n u) (hw : ∀ w : State, (∃ a, u = { w with nap := { w.nap with assemblies := a } }) → who w r = true) :
    ∃ key store, s.serveCommand i n r (commandReply r blobLimit who act) = .next (finish r (act u r (Safety.valueOf s r)) key store) := by
  obtain ⟨h1, h2, h3, w, o, ⟨b, tk, fr, hw1, hg⟩, ho, hx⟩ := h
  obtain ⟨key, store, e⟩ := serve_fresh s r b (commandReply r blobLimit who act) tk fr
  refine ⟨key, store, ?_⟩
  simp only [State.serveCommand, h1, h2, h3, and_self, if_true, e, ← hw1]
  congr 2
  simp only [commandReply, State.gated, hg, ho]
  rcases hx with ⟨hb, hu⟩ | ⟨hb, hu⟩
  · have hv : Safety.valueOf s r = r.value := by
      unfold Safety.valueOf
      have : r.offset = 0 := by
        unfold State.objGate at ho
        simp only [h1] at ho
        split at ho
        · cases ho
        · rename_i o' _
          split at ho
          · cases ho
          · split at ho
            · cases ho
            · split at ho
              · cases ho
              · split at ho
                · cases ho
                · rename_i hn
                  have : o' = o := by
                    split at ho
                    · cases ho
                    · split at ho
                      · cases ho
                      · simpa using ho
                  subst this
                  simp only [not_and, not_or, true_and] at hn
                  exact Classical.not_not.1 (by simpa using (hn hb).2)
      simp [this]
    rw [hw w ⟨w.nap.assemblies, by rw [hu]⟩]
    simp only [Bool.not_true, Bool.false_eq_true, if_false, hb, ne_eq, not_false_eq_true, if_true, hu, hv]
  · have ha : ∃ a, u = { w with nap := { w.nap with assemblies := a } } := by
      have := congrArg Prod.fst hu
      unfold State.takeSegment at this
      simp only [State.dropAssembly] at this
      repeat' split at this
      all_goals exact ⟨_, this.symm⟩
    rw [hw w ha]
    simp only [Bool.not_true, Bool.false_eq_true, if_false, hb, ne_eq, not_true_eq_false, hu]

/-- What a request that reached an action has left of the mailbox: its own slot is busy, so its answer goes out. -/
theorem ready_rspLen (s u : State) (r : NapReq) (i n : Nat) (h : Ready s r i n u) :
    ∀ k, r.carrier = .pf1 k → mget 0xFFFFFFFF u.nap.rspLen k = 0 := by
  intro k hk
  obtain ⟨_, _, _, w, o, ⟨b, tk, _, hw, _⟩, _, hx⟩ := h
  have hb := tk.2.2 k hk
  have hr : w.nap.rspLen = b.nap.rspLen := by rw [hw]; rfl
  rcases hx with ⟨_, hu⟩ | ⟨_, hu⟩
  · rw [hu, hr]; exact hb
  · have := congrArg (fun x : State × Segment => x.1.nap.rspLen) hu
    unfold State.takeSegment at this
    simp only [State.dropAssembly] at this
    have hz : u.nap.rspLen = w.nap.rspLen := by
      repeat' split at this
      all_goals exact this.symm
    rw [hz, hr]; exact hb

/-- A command object written by one who may write it: the action's outcome is answered over the state that the action left. -/
theorem command_answers (s u : State) (r : NapReq) (i n : Nat) (who : State → NapReq → Bool) (act : State → NapReq → List Byte → Reply)
    (h : Ready s r i n u) (hw : ∀ w : State, (∃ a, u = { w with nap := { w.nap with assemblies := a } }) → who w r = true)
    (hl : (act u r (Safety.valueOf s r)).later = false) (hs : (act u r (Safety.valueOf s r)).status < 256)
    (hv : (act u r (Safety.valueOf s r)).value.length < 2 ^ 32)
    (hr : (act u r (Safety.valueOf s r)).st.nap.rspLen = u.nap.rspLen) :
    ∃ t, s.serveCommand i n r (commandReply r blobLimit who act) = .next t ∧
      Answers (act u r (Safety.valueOf s r)).st t r (act u r (Safety.valueOf s r)).status (act u r (Safety.valueOf s r)).detail
        (act u r (Safety.valueOf s r)).value := by
  obtain ⟨key, store, e⟩ := commandReply_ready s u r i n who act h hw
  exact ⟨_, e, finish_answers r _ key store hl hs hv (fun k hk => by rw [hr]; exact ready_rspLen s u r i n h k hk)⟩

/-- The owner of the state in which an action begins is the owner before the value's segment was taken. -/
theorem owner_of_taken (u w : State) (r : NapReq) (h : ∃ a, u = { w with nap := { w.nap with assemblies := a } })
    (ho : u.isOwner r = true) : byOwner w r = true := by
  obtain ⟨a, e⟩ := h
  subst e
  exact ho

end Sys2Proof.Machine
end

