-- ==== Sys2Proof/Machine/Sram.lean ====
section
/-! DEFINITION. The banks of core SRAM and their slots (R15, R186): which bank holds a line, and the weighted round robin of a bank's
read or write slots. A descriptor is one step of this model, so that no two requesters contend in a step: no definition of the step
calls the arbiter, and what a bank's slots cost in time is outside the model (assumption 163). -/

namespace Sys2Proof.Machine

/-- The bank of the 64-byte line at a core SRAM offset (R186). -/
def sramBank (offset : Nat) : Nat := (offset / 64 ^^^ offset / 4096) % 64

/-- A requester of a core SRAM bank (*Core SRAM weights*). -/
inductive SramUser where
  | matrix (engine : Fin 8)
  | vector
  | row
  /-- The tile mover, control-core accesses included. -/
  | mover
deriving DecidableEq, Repr

/-- The 16 turns of a bank: each matrix engine has one, the vector engine four, the row engine and the tile mover two each (R15). The
weights are the spec's, the order of the turns is a DESIGN CHOICE (assumption 179). -/
def sramTurns : List SramUser :=
  [.matrix 0, .vector, .matrix 1, .row, .matrix 2, .vector, .matrix 3, .mover,
   .matrix 4, .vector, .matrix 5, .row, .matrix 6, .vector, .matrix 7, .mover]

/-- The requester whose turn it is. -/
def sramTurn (turn : Nat) : SramUser := sramTurns.getD (turn % 16) .mover

/-- Who is served at a turn (R15): the requester whose turn it is, or the next in round-robin order that has an access for the bank;
none where no requester has one. -/
def sramServed (turn : Nat) (wants : SramUser → Bool) : Option SramUser :=
  ((List.range 16).map (fun i => sramTurn (turn + i))).find? wants

/-- A bank serves its read slots and its write slots apart, each with turns of its own (R15). -/
structure SramBank where
  readTurn  : Nat
  writeTurn : Nat
deriving DecidableEq, Repr

/-- A read slot of a bank: who is served, and the bank at its next turn. -/
def SramBank.read (b : SramBank) (wants : SramUser → Bool) : Option SramUser × SramBank :=
  (sramServed b.readTurn wants, { b with readTurn := (b.readTurn + 1) % 16 })

/-- A write slot of a bank. -/
def SramBank.write (b : SramBank) (wants : SramUser → Bool) : Option SramUser × SramBank :=
  (sramServed b.writeTurn wants, { b with writeTurn := (b.writeTurn + 1) % 16 })

/-- A requester is served at its own turn. -/
theorem sramServed_own (turn : Nat) (wants : SramUser → Bool) (h : wants (sramTurn turn) = true) :
    sramServed turn wants = some (sramTurn turn) := by
  have e : (List.range 16).map (fun i => sramTurn (turn + i)) =
      sramTurn turn :: ((List.range 15).map (fun i => sramTurn (turn + (i + 1)))) := by
    rw [show (16 : Nat) = 15 + 1 from rfl, List.range_succ_eq_map]
    simp [List.map_map, Function.comp_def]
  rw [sramServed, e, List.find?_cons_of_pos (h := h)]

/-- Every requester has a turn among any 16, so that no request waits longer (R15). -/
theorem sram_waits_16 (turn : Nat) (u : SramUser) : ∃ i, i < 16 ∧ sramTurn (turn + i) = u := by
  have h : ∀ (t : Fin 16) (u : SramUser), ∃ i : Fin 16, sramTurn (t.val + i.val) = u := by
    intro t u
    cases u with
    | matrix e => revert t e; decide
    | vector => revert t; decide
    | row => revert t; decide
    | mover => revert t; decide
  obtain ⟨i, hi⟩ := h ⟨turn % 16, Nat.mod_lt _ (by decide)⟩ u
  refine ⟨i.val, i.isLt, ?_⟩
  have : (turn + i.val) % 16 = (turn % 16 + i.val) % 16 := by omega
  rw [← hi]
  simp only [sramTurn, this]

end Sys2Proof.Machine
end

