-- ==== Sys2Proof/WellFormed.lean ====
section
/-! DEFINITION. Well-formed commands: the coordinates and field widths that a command's operands must have. A command that
is not well formed names no command of the part. -/

namespace Sys2Proof

open Sys2Proof.Machine (leNat)

/-- A NAP request whose fields fit *NAP frame header* (R268). -/
def NapReq.wf (r : NapReq) : Bool :=
  r.opcode < 256 && r.session < 65536 && r.seq < 2 ^ 32 && r.index < 65536 && r.sub < 256 && r.type < 16
    && r.offset < 2 ^ 32 && r.total < 2 ^ 32 && r.value.length ≤ 1024 && (r.tag.length = 0 || r.tag.length = 16)

/-- A request that is a WRITE of one object (R269). -/
def NapReq.writes (r : NapReq) (index sub : Nat) : Bool := r.wf && r.opcode = 2 && r.index = index && r.sub = sub

/-- Clocked domains of a part, by the numbers of R385. -/
def Part.hasDomain (p : Part) (d : Nat) : Bool :=
  d = 0 || (1 ≤ d && d < 1 + p.ports) || d = 7 || (8 ≤ d && d < 8 + p.bwChannels)
    || (0x20 ≤ d && d < 0x20 + p.dies) || (0x30 ≤ d && d < 0x30 + p.stacks)

/-- Kolfin links of a part, by the sub-index of their width (R18). -/
def Part.hasLink (p : Part) (n : Nat) : Bool := n < p.dies || (0x10 ≤ n && n < 0x10 + p.dies)

/-- Residue mismatches that name cells of a 64 × 64 array (R110). -/
def cellsOk (l : List (List (Nat × Nat))) : Bool := l.all (fun g => g.all (fun c => c.1 < 64 && c.2 < 64))

/-- A command that is one of the part's, with operands that fit their fields. -/
def Instr.wf (p : Part) : Instr → Bool
  | .powerOnReset => true
  | .powerOnResetEnd => true
  | .resetNAssert _ => true
  | .resetStretchEnd _ _ => true
  | .resetNRelease _ => true
  | .pllLock domain => p.hasDomain domain
  | .pllLockLoss domain => p.hasDomain domain
  | .supplySag source => source = 8 || source = 9 || source = 10 || source = 0xFF
  | .vcoreExcursion die _ => die < p.dies
  | .controlInterval readings => readings.rails.length = 13 && readings.dieT.length = 9 && readings.stackT.length = 16
  | .thermalTrip unit _ => unit < p.dies || unit = 8 || (0x10 ≤ unit && unit < 0x10 + p.stacks)
  | .holdupTimeout => true
  | .resetRequest r => r.writes 0xC002 1
  | .obWrite r => r.writes 0xC001 1
  | .beatWindowClose die completions => die < p.dies && completions.length = 14
  | .delayCounterCalibrate unit => unit < p.dies || unit = 8
  | .matchedDelayCalibrate _ _ _ => true
  | .kolfinFrameSend sender => if sender < 0x20 then p.hasLink sender else if sender < 0x40 then p.hasLink (sender - 0x10) else sender < 0x40 + p.dies
  | .kolfinFrameReceive link frame => link < 0x98 && p.hasLink (link % 0x80) && frame.vc < 6
  | .kolfinRetrain link _ => p.hasLink link
  | .laneOfferReceive link words => p.hasLink link && words.length = 4
  | .laneOfferTimeout link => p.hasLink link
  | .keepaliveTimeout die => die < p.dies
  | .dieFence die cause => die < p.dies && cause < 65536
  | .dieRejoin r => r.writes 0x8015 1
  | .dieRejoinComplete outcome => 1 ≤ outcome.step && outcome.step ≤ 7 && outcome.status < 256
  | .coreSubstitution core => p.hasCore core
  | .scrubLine tier _ struck =>
    (tier < p.stacks || tier = 16) && struck.all (fun e => e.1 < (if tier = 16 then 80 else 68) && 0 < e.2 && e.2 < 256)
  | .rowDisturbRefresh stack _ => stack < p.stacks
  | .epochClose => true
  | .pageMoveComplete _ => true
  | .demandPromotionComplete page => page < 2 ^ 61
  | .mergeLockGrant tileAddr => tileAddr < 2 ^ 48
  | .reservedInstruction core word => p.hasCore core && (decodeKnown core word.toNat).isNone
  | .add core _ _ _ => p.hasCore core
  | .sub core _ _ _ => p.hasCore core
  | .and core _ _ _ => p.hasCore core
  | .or core _ _ _ => p.hasCore core
  | .xor core _ _ _ => p.hasCore core
  | .shl core _ _ _ => p.hasCore core
  | .shr core _ _ _ => p.hasCore core
  | .sra core _ _ _ => p.hasCore core
  | .mul core _ _ _ => p.hasCore core
  | .mulhu core _ _ _ => p.hasCore core
  | .slt core _ _ _ => p.hasCore core
  | .sltu core _ _ _ => p.hasCore core
  | .min core _ _ _ => p.hasCore core
  | .max core _ _ _ => p.hasCore core
  | .fadd core _ _ _ => p.hasCore core
  | .fmul core _ _ _ => p.hasCore core
  | .fmax core _ _ _ => p.hasCore core
  | .flt core _ _ _ => p.hasCore core
  | .addi core _ _ _ => p.hasCore core
  | .subi core _ _ _ => p.hasCore core
  | .andi core _ _ _ => p.hasCore core
  | .ori core _ _ _ => p.hasCore core
  | .xori core _ _ _ => p.hasCore core
  | .shli core _ _ _ => p.hasCore core
  | .shri core _ _ _ => p.hasCore core
  | .srai core _ _ _ => p.hasCore core
  | .muli core _ _ _ => p.hasCore core
  | .mulhui core _ _ _ => p.hasCore core
  | .slti core _ _ _ => p.hasCore core
  | .sltui core _ _ _ => p.hasCore core
  | .mini core _ _ _ => p.hasCore core
  | .maxi core _ _ _ => p.hasCore core
  | .lui core _ _ _ => p.hasCore core
  | .ld8 core _ _ _ => p.hasCore core
  | .ld16 core _ _ _ => p.hasCore core
  | .ld32 core _ _ _ => p.hasCore core
  | .ld64 core _ _ _ => p.hasCore core
  | .st8 core _ _ _ => p.hasCore core
  | .st16 core _ _ _ => p.hasCore core
  | .st32 core _ _ _ => p.hasCore core
  | .st64 core _ _ _ => p.hasCore core
  | .beq core _ _ _ => p.hasCore core
  | .bne core _ _ _ => p.hasCore core
  | .blt core _ _ _ => p.hasCore core
  | .bge core _ _ _ => p.hasCore core
  | .bltu core _ _ _ => p.hasCore core
  | .bgeu core _ _ _ => p.hasCore core
  | .call core _ => p.hasCore core
  | .jr core _ _ => p.hasCore core
  | .desc core queue _ _ => p.hasCore core && queue ≠ 7
  | .wait core _ _ _ => p.hasCore core
  | .waitReturn core => p.hasCore core
  | .pick core _ => p.hasCore core
  | .pickAnswer core => p.hasCore core
  | .qrd core _ _ _ => p.hasCore core
  | .ftqrd core rd => p.hasCore core && rd ≠ 31
  | .setvl core _ => p.hasCore core
  | .getvl core _ => p.hasCore core
  | .oxb core _ _ => p.hasCore core
  | .drain core _ _ => p.hasCore core
  | .stepend core _ => p.hasCore core
  | .tokrd core _ => p.hasCore core
  | .halt core => p.hasCore core
  | .mm core engine mismatches => p.hasCore core && engine < 8 && cellsOk mismatches
  | .mmf core engine mismatches => p.hasCore core && engine < 8 && cellsOk mismatches
  | .epilogue core engine => p.hasCore core && engine < 8
  | .vecAdd core => p.hasCore core
  | .vecSub core => p.hasCore core
  | .vecMul core => p.hasCore core
  | .vecFma core => p.hasCore core
  | .vecMax core => p.hasCore core
  | .vecMin core => p.hasCore core
  | .vecAbs core => p.hasCore core
  | .vecNeg core => p.hasCore core
  | .vecScl core => p.hasCore core
  | .vecRcp core => p.hasCore core
  | .vecRsq core => p.hasCore core
  | .cmpEq core => p.hasCore core
  | .cmpNe core => p.hasCore core
  | .cmpLt core => p.hasCore core
  | .cmpLe core => p.hasCore core
  | .cmpGt core => p.hasCore core
  | .cmpGe core => p.hasCore core
  | .vecSel core => p.hasCore core
  | .vecFn core => p.hasCore core
  | .vecFnb core => p.hasCore core
  | .mand core => p.hasCore core
  | .mor core => p.hasCore core
  | .mxor core => p.hasCore core
  | .mnot core => p.hasCore core
  | .mfirst core => p.hasCore core
  | .redMax core => p.hasCore core
  | .redAmax core => p.hasCore core
  | .redSum core => p.hasCore core
  | .redCnt core => p.hasCore core
  | .vecMov core => p.hasCore core
  | .lnorm core => p.hasCore core
  | .rmsnorm core => p.hasCore core
  | .lnormBwd core => p.hasCore core
  | .rmsnormBwd core => p.hasCore core
  | .smax core => p.hasCore core
  | .smaxBwd core => p.hasCore core
  | .smaxPart core => p.hasCore core
  | .smaxFinal core => p.hasCore core
  | .rowdot core => p.hasCore core
  | .copy core => p.hasCore core
  | .pack core => p.hasCore core
  | .unpack core => p.hasCore core
  | .sdmRd core => p.hasCore core
  | .sdmWr core => p.hasCore core
  | .send core => p.hasCore core
  | .millraceMessageSend core => p.hasCore core
  | .rsend core => p.hasCore core
  | .rsendDrainRelease core => p.hasCore core
  | .recv core => p.hasCore core
  | .rel core => p.hasCore core
  | .ufetch core => p.hasCore core
  | .millraceMessageReceive core message => p.hasCore core && 32 ≤ message.length && message.length ≤ 65568
  | .creditReturnReceive streamId side count => streamId < 65536 && side < 2 && count < 2 ^ 15
  | .updateTileArrive die => die < p.dies
  | .updateTileApply die => die < p.dies
  | .sequencerProgramStart die _ => die < p.dies
  | .sequencerProgramEnd die _ => die < p.dies
  | .voteReportSend => true
  | .voteReport r => r.writes 0x4040 1
  | .verdict r => r.writes 0x4040 2
  | .stepBoundary => true
  | .tributaryMessageSend collective phase dir => collective < 4096 && phase < 4 && dir < 2
  | .tributaryMessageReceive port message => port < p.ports && 32 ≤ message.length && message.length ≤ 65568
  | .permuteDone r => r.writes 0x4040 3
  | .layoutCommit r => r.writes 0x4040 4
  | .heartbeatSend => true
  | .heartbeat r => r.writes 0x4040 5
  | .heartbeatTimeout position => position < 4096
  | .deputyTakeover => true
  | .rootLossHalt => true
  | .takeoverMaster r => r.writes 0x4040 7
  | .takeover r => r.writes 0x4040 6
  | .faultReport r => r.writes 0x4040 8
  | .commitReady r => r.writes 0x4040 9
  | .stepCommit r => r.writes 0x4040 10
  | .rollback r => r.writes 0x4040 11
  | .restartReady r => r.writes 0x4040 12
  | .restart r => r.writes 0x4040 13
  | .buddyPageSend => true
  | .buddyPageReceive source _ => source < 4096
  | .buddyAck r => r.writes 0x4040 19
  | .takeoverPageReceive _ => true
  | .freshetNAssert _ => true
  | .freshet r => r.writes 0x8001 1
  | .freshetNotice r => r.writes 0x4040 14
  | .cutAt r => r.writes 0x4040 15
  | .jobResume r => r.writes 0x8001 5
  | .ckptAbort r => r.writes 0x8001 6
  | .shardWriteComplete dest _ => dest < 2
  | .shardReadbackComplete dest _ _ => dest < 2
  | .manifestWrite dest _ => dest < 2
  | .ckptDone r => r.writes 0x4040 16
  | .ckptCommit r => r.writes 0x4040 17
  | .ckptAbortJob r => r.writes 0x4040 18
  | .restoreCommand r _ => r.writes 0x8007 1
  | .restoreReadsComplete slots => slots.all (fun x => x.position < 4096 && x.slot < 2)
  | .restoreReady r => r.writes 0x4040 20
  | .restoreCommit r => r.writes 0x4040 21
  | .ckptExport r => r.writes 0x8007 3
  | .read r => r.wf && (r.opcode < 2 || 5 < r.opcode)
  | .write r => r.wf && r.opcode = 2
  | .openSession r => r.wf && r.opcode = 3
  | .closeSession r => r.wf && r.opcode = 4
  | .enumObject r => r.wf && r.opcode = 5
  | .sessionTimeout slot => slot < 32
  | .mailboxReqLen slot len _ => slot < 16 && len < 2 ^ 32
  | .ownerClaim r => r.writes 0x2001 1
  | .claimWindowClose => true
  | .leaseExpire => true
  | .ownerHeartbeat r => r.writes 0x2001 2
  | .ownerRelease r => r.writes 0x2001 3
  | .ownerOffer r => r.writes 0x2001 4
  | .offerExpire => true
  | .ownerAccept r => r.writes 0x2001 5
  | .authChallenge r => r.wf && r.opcode = 1 && r.index = 0x2005 && r.sub = 1
  | .authResponse r => r.writes 0x2005 2
  | .validate r => r.writes 0x3001 1 && leNat r.value = 1
  | .validateComplete => true
  | .commit r => r.writes 0x3001 1 && leNat r.value = 2
  | .discard r => r.writes 0x3001 1 && leNat r.value = 3
  | .groupArm r => r.writes 0x3001 1 && leNat r.value = 4
  | .groupArmed r => r.writes 0x4040 22
  | .groupArmTimeout => true
  | .groupCommit r => r.writes 0x4040 23
  | .groupReject r => r.writes 0x4040 24
  | .jobStart r => r.writes 0x4002 1
  | .jobEnd r => r.writes 0x4002 2
  | .eventSubscribe r => r.writes 0x2006 1
  | .pageQueryAddr r => r.writes 0x6015 1
  | .powerCapW r => r.writes 0xA002 1
  | .memRelease r => r.writes 0x6014 1
  | .eventSnapshot r => r.writes 0xB002 1
  | .manifestKeyRotate r => r.writes 0x9003 1
  | .attestNonce r => r.writes 0x9021 1
  | .imageUpdate r _ => r.writes 0x9003 2
  | .recoveryDoorbell offset _ => offset < 2 ^ 32
  | .alarmSensorTrip sensor _ => sensor < 4
  | .alarmSensorClear sensor => sensor < 4
  | .portTrain port _ _ => port < p.ports
  | .linkAuthReceive port _ => port < p.ports
  | .portFrameSend port => port < p.ports
  | .portFrameReceive port frame => port < p.ports && frame.seq < 4096 && frame.ack < 4096 && frame.pvc < 5 && frame.payload.length ≤ 4096
  | .portReplayTimeout port => port < p.ports
  | .portDownTimeout port => port < p.ports
  | .pcieHotReset => true
  | .pf0Flr => true
  | .pf1Flr => true
  | .pf0RegisterWrite offset value => offset < 4096 && value < 2 ^ 64
  | .mgmtFrameReceive _ => true
  | .loadCommand r _ => r.writes 0x4010 1
  | .freshetNRelease _ => true
  | .trstNAssert => true
  | .ckptShardReceive source _ => source < 4096

end Sys2Proof
end

