-- ==== Sys2Proof/Tests/Slice0.lean ====
section
/-! SUPPORT. Small tests of single steps, ill-formed commands that WellFormed refuses, words of the control core written out from R143,
and, for each statement with hypotheses, a state and operands that meet them together. -/

namespace Sys2Proof.Tests

open Sys2Proof.Machine Sys2Proof.Safety

set_option Elab.async false

/-! Ill-formed commands. -/

/-- A request to write an object, from session 1 on UDP. -/
def req (index sub : Nat) (value : List Byte) : NapReq :=
  ⟨.udp 1 2, 2, false, true, 32, 7, index, sub, 0, 0, value.length, value, [], 0, 0, 0⟩

/-- Each refused: a core, an engine, a cell, a queue code, a register, a word that is no reserved encoding. -/
theorem test_wf_cores : [Instr.add 14 1 2 3, .add 128 1 2 3, .mm 0 8 [], .mm 0 0 [[(64, 0)]], .epilogue 0 8, .desc 0 7 1 2, .ftqrd 0 31,
    .reservedInstruction 0 0, .millraceMessageReceive 0 []].all (fun i => !i.wf .hn9_8x) = true := by decide

/-- Cores of a die that the smaller part lacks. -/
theorem test_wf_part : (Instr.add 0x60 1 2 3).wf .hn9_8x = true ∧ (Instr.add 0x60 1 2 3).wf .hn9_6l = false := by decide

/-- Each refused: a domain, a supply, a unit, a die, a count of readings or completions, a link, a channel, words, a step. -/
theorem test_wf_units : [Instr.pllLock 20, .pllLockLoss 0x40, .supplySag 11, .thermalTrip 9 1200, .delayCounterCalibrate 9,
    .controlInterval ⟨[], [], []⟩, .beatWindowClose 0 [1], .beatWindowClose 8 (List.replicate 14 0), .vcoreExcursion 8 700,
    .kolfinFrameSend 0x48, .kolfinFrameReceive 0x98 ⟨true, 0, 0, [], []⟩, .kolfinFrameReceive 0 ⟨true, 0, 6, [], []⟩,
    .kolfinRetrain 0x18 0, .laneOfferReceive 0 [], .dieFence 0 65536, .dieRejoinComplete ⟨0, 0⟩, .scrubLine 17 0 [],
    .rowDisturbRefresh 16 0].all (fun i => !i.wf .hn9_8x) = true := by decide

/-- Each refused: a page, a tile address, a stream, a phase, a port, a position, a destination, a slot, an offset, a sensor. -/
theorem test_wf_rest : [Instr.demandPromotionComplete (2 ^ 61), .mergeLockGrant (2 ^ 48), .creditReturnReceive 0 2 0, .tributaryMessageSend 0 4 0,
    .tributaryMessageReceive 0 [], .portTrain 6 0 0, .heartbeatTimeout 4096, .ckptShardReceive 4096 [], .shardWriteComplete 2 0,
    .restoreReadsComplete [⟨0, 2, .failed 1⟩], .sessionTimeout 32, .mailboxReqLen 16 0 [], .recoveryDoorbell (2 ^ 32) (.failed 1),
    .alarmSensorTrip 4 0, .pf0RegisterWrite 4096 0, .portFrameReceive 0 ⟨true, false, 0, 0, 4096, 0, false, 0, 0, 0, []⟩].all
      (fun i => !i.wf .hn9_8x) = true := by decide

/-- Each refused: a request whose fields do not fit, or that names another opcode or object than its command. -/
theorem test_wf_requests : [Instr.resetRequest { req 0xC002 1 [1] with sub := 256 }, .resetRequest (req 0xC001 1 [1]), .verdict (req 0x4040 3 []),
    .validate (req 0x3001 1 [2]), .read (req 0x3001 1 []), .write { req 0x3001 1 [] with opcode := 1 }, .openSession (req 0 0 []),
    .closeSession (req 0 0 []), .enumObject (req 0 0 []), .authChallenge (req 0x2005 1 [])].all (fun i => !i.wf .hn9_8x) = true := by decide

/-- Well-formed ones. -/
theorem test_wf_holds : [Instr.add 0 1 2 3, .mm 0 7 [[(63, 63)]], .desc 0 6 1 2, .resetRequest (req 0xC002 1 [1]), .validate (req 0x3001 1 [1]),
    .thermalTrip 8 1200, .kolfinFrameSend 0x47, .scrubLine 16 0 []].all (fun i => i.wf .hn9_8x) = true := by decide

/-! Words of the control core, bit by bit from R143. -/

/-- ALU: class 0, FUNC, RD, RA, RB, seven bits unused. -/
theorem test_word_alu : decodeCoreWord 5 0b0000_000001_00011_00100_00101_0000000#32 = .sub 5 3 4 5 := by decide
/-- ALUI: class 1, FUNC, RD, RA, IMM12. -/
theorem test_word_alui : decodeCoreWord 5 0b0001_000000_00001_00010_111111111110#32 = .addi 5 1 2 (-2) := by decide
/-- LUI: class 2, q, RD, IMM16, five bits unused. -/
theorem test_word_lui : decodeCoreWord 5 0b0010_11_00111_1010101010101010_00000#32 = .lui 5 3 7 0xAAAA := by decide
/-- MEM: class 3, OP, RD or source, RA, IMM14. -/
theorem test_word_mem : decodeCoreWord 5 0b0011_0111_00001_00010_00000000001000#32 = .st64 5 1 2 8 := by decide
/-- BR: class 4, COND, RA, RB, offset. -/
theorem test_word_br : decodeCoreWord 5 0b0100_0011_00001_00010_11111111111111#32 = .bge 5 1 2 (-1) := by decide
/-- DESC: class 5, QUEUE, RD, RA. -/
theorem test_word_desc : decodeCoreWord 5 0b0101_100_00001_00010_000000000000000#32 = .desc 5 4 1 2 := by decide
/-- WAIT: class 6. -/
theorem test_word_wait : decodeCoreWord 5 0b0110_111_00001_00010_000000000000000#32 = .wait 5 7 1 2 := by decide
/-- PICK: class 7. -/
theorem test_word_pick : decodeCoreWord 5 0b0111_000_01001_00000000000000000000#32 = .pick 5 9 := by decide
/-- QRD: class 8, Q, W, RD. -/
theorem test_word_qrd : decodeCoreWord 5 0b1000_110_10_00101_000000000000000000#32 = .qrd 5 6 2 5 := by decide
/-- FTQRD: class 9, and its reserved register. -/
theorem test_word_ftqrd : decodeCoreWord 5 0b1001_000_00100_00000000000000000000#32 = .ftqrd 5 4 ∧
    decodeCoreWord 5 0b1001_000_11111_00000000000000000000#32 = .reservedInstruction 5 0x91F00000 := by decide
/-- CTRL: class 0xA, OP, RD, RA, RB. -/
theorem test_word_ctrl : decodeCoreWord 5 0b1010_0010_00000_00110_00111_000000000#32 = .oxb 5 6 7 := by decide
/-- JR: class 0xB. -/
theorem test_word_jr : decodeCoreWord 5 0b1011_0000_11111_00001_00000000000000#32 = .jr 5 31 1 := by decide
/-- Classes 0xC to 0xF and unlisted functions are reserved. -/
theorem test_word_reserved : decodeCoreWord 5 0xC0000000#32 = .reservedInstruction 5 0xC0000000 ∧
    decodeCoreWord 5 0b0000_001110_00000_00000_00000_0000000#32 = .reservedInstruction 5 0x03800000 := by decide

/-! Witnesses: for each statement with hypotheses, a state and operands that meet them together. -/

/-- A package whose core 0 is in state `k`. -/
def coreOf (k : CoreState) : State := { State.reset with cores := [(0, k)] }

/-- A running core at PC 1 of an image with sixteen words of code. -/
def kRun : CoreState := { CoreState.reset with run := .running, pc := 1, image := wordsLE [0, 0, 0, 64] }

/-- A running core with s1 set. -/
def kReg (v : Word64) : CoreState := { kRun with regs := [(1, v)] }

/-- A descriptor numbered 1, from its words. -/
def descOf (l : List Nat) : Desc := ⟨1, padTo 64 (wordsLE l), false, 0⟩

/-- A queue that holds one descriptor, numbered 1. -/
def queueOf (l : List Nat) : Queue := ⟨1, [descOf l], [], []⟩

theorem wit_AluForms : (coreOf { kRun with pc := 14 }).runs 0 = true ∧ GoesOn (coreOf { kRun with pc := 14 }) 0 := by
  unfold GoesOn; decide

/-- A load of the last 8 bytes; a store that ends where the Riffle table begins; one into the last scale entry. -/
theorem wit_LoadsAndStores : (coreOf (kReg 0xFFF8)).runs 0 = true ∧ GoesOn (coreOf (kReg 0xFFF8)) 0 ∧ mwf 0 ((coreOf (kReg 0xFFF8)).core 0).sdm = true ∧
    ([(0xFFF8, 65536), (0xEDF8, 0xEE00), (0xFFF8, 65536)] : List (Word64 × Nat)).all (fun p =>
      ((coreOf (kReg p.1)).core 0).reg 1 + (0 : BitVec 14).signExtend 64 = p.1 ∧ p.1.toNat % 8 = 0 ∧ p.1.toNat + 8 = p.2) = true := by
  unfold GoesOn; decide

/-- A taken branch to word 0 and one not taken at the last word but one; CALL back; JR to the last word. -/
theorem wit_BranchesAndCalls : (coreOf kRun).runs 0 = true ∧ ((coreOf kRun).core 0).codeLen = 16 ∧
    ((((coreOf kRun).core 0).pc.toNat : Int) + (-1 : BitVec 14).toInt = 0) ∧ GoesOn (coreOf { kRun with pc := 14 }) 0 ∧
    (((coreOf (kReg 0xABCD000F)).core 0).reg 1).toNat % 65536 < ((coreOf (kReg 0xABCD000F)).core 0).codeLen := by
  unfold GoesOn; decide

/-- Misaligned; one byte past the end; a descriptor at 0xFFD0, and one that is misaligned. -/
theorem wit_ProgramFaults : (coreOf kRun).runs 0 = true ∧
    (∀ p ∈ ([(1, 2), (0x10000, 1), (0xFFF9, 8)] : List (Word64 × Nat)), ((coreOf (kReg p.1)).core 0).reg 1 = p.1 ∧
      (p.1.toNat % p.2 ≠ 0 ∨ 65536 < p.1.toNat + p.2)) ∧
    65536 < (((coreOf (kReg 0xFFD0)).core 0).reg 1).toNat + 64 ∧ (((coreOf (kReg 8)).core 0).reg 1).toNat % 16 ≠ 0 := by decide

/-- SETVL at its bound and above; a summary register that no descriptor names; an error token and none; a finished tile; a WAIT whose
descriptors have retired, one of them with an error. -/
theorem wit_ControlForms : (((coreOf (kReg 4096)).core 0).reg 1).toNat ≤ 4096 ∧ 4096 < (((coreOf (kReg 4097)).core 0).reg 1).toNat ∧
    (∀ d ∈ (queueOf [1]).waiting, namesSummary false 0 d = false) ∧
    ((coreOf kRun).core 0).errLog = [] ∧ ((coreOf { kRun with errLog := [(5, 6)] }).core 0).errLog = (5, 6) :: [] ∧
    ((coreOf { kRun with ftq := [⟨0, 1, 0, false, false, false, 0, 0, 0, 1, 1, 1, 0, 0⟩] }).core 0).ftq.length = 1 := by decide

/-- A core that waits for the vector queue's first three descriptors, of which the second failed; the fourth waits. -/
def kWait : CoreState := { kRun with waiting := .wait 1 3 2, vecQ := ⟨4, [⟨4, [], false, 0⟩], [], [⟨2, 4, false⟩]⟩ }

theorem wit_ControlForms_wait : ((coreOf kWait).core 0).run = .running ∧ ((coreOf kWait).core 0).waiting = .wait 1 3 2 ∧ GoesOn (coreOf kWait) 0 ∧
    (∀ d ∈ (((coreOf kWait).core 0).queue 1).waiting, 3 < d.num) ∧ (∀ x ∈ (((coreOf kWait).core 0).queue 1).begun, 3 < x) ∧
    (∃ e ∈ (((coreOf kWait).core 0).queue 1).errs, e.num ≤ 3 ∧ e.reported = false) := by
  unfold GoesOn; decide

/-- A vector descriptor at 0x40; an RSEND in the span after KIND 3, at the last place. -/
def kDesc (at' : Nat) (op : Nat) (done : Bool) : CoreState :=
  { kReg (BitVec.ofNat 64 at') with sdm := [(at', BitVec.ofNat 8 op)], doneSpan := done }

theorem wit_DescIssues : [(1, 0x40, 1, false), (4, 0xFFC0, 2, true), (6, 0, 1, false)].all (fun p =>
    let k := (coreOf (kDesc p.2.1 p.2.2.1 p.2.2.2)).core 0
    let raw := rdBytes k.sdm p.2.1 64
    decide ((coreOf (kDesc p.2.1 p.2.2.1 p.2.2.2)).runs 0 = true ∧ k.pc.toNat + 1 < k.codeLen ∧ (k.reg 1).toNat = p.2.1 ∧
      opcodeDefined p.1 (wb raw 0 0 8) = true ∧ (k.doneSpan = false ∨ (p.1 = 4 ∧ wb raw 0 0 8 = 2)) ∧
      (p.1 = 4 → k.itemHolds = false) ∧ k.queueUsed p.1 (wb raw 0 8 3) < queueDepth p.1)) = true := by decide

/-- A forward item with layer 3 declared once; layer 4 drained of entries. -/
def kOxb : CoreState := { kReg 0xFFE0 with
  regs := [(1, 0xFFE0), (2, 3), (3, 4)], item := some ⟨.forward, 0, 7, 7, 0, 0, 0, false, [], [], [], false⟩, layers := [(3, ⟨1, 0, 0⟩)] }

theorem wit_OxbAndDrain : (coreOf kOxb).runs 0 = true ∧ GoesOn (coreOf kOxb) 0 ∧ ((coreOf kOxb).core 0).doneSpan = false ∧
    (((coreOf kOxb).core 0).reg 1).toNat % 8 = 0 ∧ (((coreOf kOxb).core 0).reg 1).toNat + 32 = 65536 ∧
    ((coreOf kOxb).core 0).item.isSome = true ∧ ((coreOf kOxb).core 0).oxbTwice = false ∧ ((coreOf kOxb).core 0).oxbow.length < 256 ∧
    (((coreOf kOxb).core 0).layer 3).queued < (((coreOf kOxb).core 0).layer 3).declared ∧ (((coreOf kOxb).core 0).layer 4).queued = 0 := by
  unfold GoesOn; decide

/-! Vector and row descriptors. -/

/-- V0 and V1 as sources, V2, M1 or a run as destination, VL 4; with a summary register named. -/
def vecWords (op dst summ : Nat) : List Nat :=
  [op, 0, 3 * 2 ^ 24, 0, 3 * 2 ^ 24 + 1, 0, 3 * 2 ^ 24 + 1, 0, 0, dst, 4 + summ, 3 + 2 ^ 12]

/-- A core whose vector queue holds one descriptor; activation slot 0 holds something. -/
def kVec (op dst summ : Nat) : CoreState := { kRun with vecQ := queueOf (vecWords op dst summ), slots := [(0, [1])] }

/-- Every operation with a value destination, into V2. -/
theorem wit_VectorValues : (∀ p ∈ vecTable.map (fun p => (p.op, p.nsrc)),
      VecReady (coreOf (kVec p.1 (3 * 2 ^ 24 + 2) 0)) 0 p.1 p.2 (descOf (vecWords p.1 (3 * 2 ^ 24 + 2) 0))) ∧
    ∀ p ∈ vecTable, p.need ((coreOf (kVec p.op (3 * 2 ^ 24 + 2) 0)).core 0) (descOf (vecWords p.op (3 * 2 ^ 24 + 2) 0)).bytes ∧
      vDstBad ((coreOf (kVec p.op (3 * 2 ^ 24 + 2) 0)).core 0) (descOf (vecWords p.op (3 * 2 ^ 24 + 2) 0)).bytes = none := by
  refine ⟨by unfold VecReady; decide, ?_⟩
  intro p h
  simp only [vecTable, List.mem_cons, List.not_mem_nil, or_false] at h
  rcases h with h | h | h | h | h | h | h | h | h | h | h | h | h | h | h <;> subst h <;> decide

/-- A run in core SRAM as destination, through scale entry 0: scale 1.0, BF16. -/
theorem wit_VectorValues_memory : vDstBad { kVec 1 (2 * 2 ^ 24 + 0x80) 0 with sdm := [(0xF002, 0x80), (0xF003, 0x3F), (0xF00C, 1)] }
    (descOf (vecWords 1 (2 * 2 ^ 24 + 0x80) 0)).bytes = none := by decide

theorem wit_VectorMasks : (∀ op ∈ cmpTable.map (fun p => p.2.1),
      VecReady (coreOf (kVec op (4 * 2 ^ 24 + 1) (2 ^ 20))) 0 op 2 (descOf (vecWords op (4 * 2 ^ 24 + 1) (2 ^ 20))) ∧
      maskDstBad ((coreOf (kVec op (4 * 2 ^ 24 + 1) (2 ^ 20))).core 0) (descOf (vecWords op (4 * 2 ^ 24 + 1) (2 ^ 20))).bytes = none) ∧
    ∀ op ∈ maskTable.map (fun p => p.2.1), VecReady (coreOf (kVec op (4 * 2 ^ 24 + 7) 0)) 0 op 0 (descOf (vecWords op (4 * 2 ^ 24 + 7) 0)) ∧
      (∀ i, i < 2 → maskSrcBad (descOf (vecWords op (4 * 2 ^ 24 + 7) 0)).bytes i = none) ∧
      maskDstBad ((coreOf (kVec op (4 * 2 ^ 24 + 7) 0)).core 0) (descOf (vecWords op (4 * 2 ^ 24 + 7) 0)).bytes = none := by
  unfold VecReady; decide

/-- RED.CNT runs with its source, and with none. -/
theorem wit_VectorReductions_count : CntReady (coreOf (kVec 0x2B 0 (2 ^ 20 + 2 * 2 ^ 17))) 0 (descOf (vecWords 0x2B 0 (2 ^ 20 + 2 * 2 ^ 17))) ∧
    CntReady (coreOf { kRun with vecQ := queueOf [0x2B, 0, 0, 0, 0, 0, 0, 0, 0, 0, 4 + 2 ^ 20] }) 0 (descOf [0x2B, 0, 0, 0, 0, 0, 0, 0, 0, 0, 4 + 2 ^ 20]) := by
  unfold CntReady; decide

theorem wit_VectorReductions : ∀ op ∈ 0x2A :: redTable.map (fun p => p.2.1),
    VecReady (coreOf (kVec op 0 (2 ^ 20 + 2 * 2 ^ 17))) 0 op 1 (descOf (vecWords op 0 (2 ^ 20 + 2 * 2 ^ 17))) := by
  unfold VecReady; decide

/-- One row of two elements: BF16 sources, stored through scale entry 0 at 0x4000. -/
def rowWords (op : Nat) : List Nat :=
  [op, 0, 2 ^ 24, 0x3F800000, 0x4000, 2 ^ 24 + 0x2000, 0x3F800000, 0, 0, 0x8000, 0x9000, 2 + 2 ^ 14, 0, 0x3F800000, 2 ^ 16, 0]

/-- A core with a row descriptor, and statistics of the kind that it reads. -/
def kRow (op : Nat) : CoreState :=
  { kRun with
    rowQ := queueOf (rowWords op), sdm := [(0xF002, 0x80), (0xF003, 0x3F), (0xF00C, 1)],
    side := [(14, if op = 4 then 0x20 else if op = 6 then 0x30 else 0x10)] }

theorem wit_RowOperations : ∀ p ∈ rowTable, RowReady (coreOf (kRow p.2.op)) 0 p.2 (descOf (rowWords p.2.op)) := by
  intro p h
  simp only [rowTable, List.mem_cons, List.not_mem_nil, or_false] at h
  rcases h with h | h | h | h | h | h | h | h | h <;> subst h <;> unfold RowReady <;> decide

/-- Empty memories are canonical. -/
theorem wf_nil : mwf 0 [] = true := rfl

theorem tables_nil : tablesCanonical [] := ⟨rfl, fun _ h => absurd h (List.not_mem_nil)⟩

theorem canonical_coreOf (k : CoreState) (h : coreCanonical k) : Canonical (coreOf k) := by
  refine ⟨wf_nil, fun c => ?_⟩
  by_cases e : c = 0
  · subst e; exact h
  · have : (coreOf k).core c = .reset := by simp [State.core, coreOf, mget]; omega
    rw [this]; unfold coreCanonical tablesCanonical; decide

theorem wit_RowOperations_canonical (op : Nat) : Canonical (coreOf (kRow op)) := by
  refine canonical_coreOf _ ⟨rfl, wf_nil, ?_, tables_nil, fun _ h => absurd h (List.not_mem_nil)⟩
  show mwf 0 [(14, if op = 4 then 0x20 else if op = 6 then 0x30 else 0x10)] = true
  split
  · rfl
  · split <;> rfl

/-! Tile movers. -/

/-- A tile-mover descriptor: SRC, DST, LENGTH and the tile form word. -/
def tmDesc (op src dst len form : Nat) : Desc :=
  descOf [op, 0, src % 2 ^ 32, src / 2 ^ 32, dst % 2 ^ 32, dst / 2 ^ 32, len, form]

def sTm (d : Desc) : State := coreOf { kRun with tmQ := ⟨1, [d], [], []⟩ }

/-- The device address of core 0's SRAM. -/
def win : Nat := 0x100000000000

theorem canonical_sTm (d : Desc) : Canonical (sTm d) :=
  canonical_coreOf _ ⟨wf_nil, wf_nil, wf_nil, tables_nil, fun _ h => absurd h (List.not_mem_nil)⟩

/-- A device address is a place. -/
def isPlace (x : Except (Nat × Nat) Place) (p : Place) : Bool := match x with
  | .ok q => q = p
  | _ => false

/-- COPY from the first 64 bytes of core SRAM to the last 64 of side memory; PACK of one BF16 tile; SDM_RD to just below the tables;
SDM_WR of the last 16 bytes; the same two with tiered memory. -/
def dCopy : Desc := tmDesc 1 win (win + 0x11FFFC0) 64 0
def dPack : Desc := tmDesc 2 (win + 0x40000) win 8256 (1 + 2 ^ 16)
def dSdmRd : Desc := tmDesc 4 (win + 0xFFFFF0) 0xEDF0 16 0
def dSdmWr : Desc := tmDesc 5 0xFFF0 win 16 0
def dMemRd : Desc := tmDesc 4 0 0xEDF0 16 0
def dMemWr : Desc := tmDesc 5 0xFFF0 0 16 0

theorem wit_TileMover_copy : (sTm dCopy).merging 0 1 = false ∧ (sTm dCopy).tmHead 0 1 = some dCopy ∧ tmLen dCopy.bytes = 64 ∧
    isPlace ((sTm dCopy).place (tmSrc dCopy.bytes) 64 2) (.sram 0 0) = true ∧
    isPlace ((sTm dCopy).place (tmDst dCopy.bytes) 64 4) (.side 0 0x1FFFC0) = true := by decide

theorem wit_TileMover_pack : (sTm dPack).tmHead 0 2 = some dPack ∧ tmBadForm dPack.bytes = none ∧ tmTiles dPack.bytes = 1 ∧
    (tmForm dPack.bytes).stride + 16 ≤ tmLen dPack.bytes ∧
    isPlace ((sTm dPack).place (tmSrc dPack.bytes) (tmForm dPack.bytes).stride 2) (.sram 0 0x40000) = true ∧
    isPlace ((sTm dPack).place (tmDst dPack.bytes) (tmLen dPack.bytes) 4) (.sram 0 0) = true := by decide

/-- The places of these can be read at once and written in whole, whatever is read. -/
theorem wit_TileMover_places : Readable (sTm dCopy) 0 (.sram 0 0) 64 ∧ Direct (sTm dCopy) (.side 0 0x1FFFC0) 64 ∧
    (∀ u, Framed u 0 (.side 0 0x1FFFC0) 64) ∧ Readable (sTm dPack) 0 (.sram 0 0x40000) 8192 ∧
    (∀ u m, Direct (sTm dPack) (.sram 0 0) m ∧ Framed u 0 (.sram 0 0) m) :=
  ⟨(by decide : ReadsClean ((sTm dCopy).core 0) [(0, 64)]), trivial, fun _ => trivial,
    (by decide : ReadsClean ((sTm dPack).core 0) [(0x40000, 8192)]), fun _ _ => ⟨trivial, trivial⟩⟩

/-- COPY of 64 bytes from core SRAM to the first page of tiered memory, and back. -/
def dCopyOut : Desc := tmDesc 1 win 0 64 0
def dCopyIn : Desc := tmDesc 1 0 win 64 0

theorem access_plain (d : Desc) : (sTm d).access 0 64 = [⟨0, 0, 64, none⟩] := rfl

theorem wit_TileMover_tiered : (sTm dCopyOut).tmHead 0 1 = some dCopyOut ∧
    isPlace ((sTm dCopyOut).place (tmDst dCopyOut.bytes) 64 4) (.tiered 0) = true ∧ Direct (sTm dCopyOut) (.tiered 0) 64 ∧
    Framed (sTm dCopyOut) 0 (.tiered 0) 64 ∧ (sTm dCopyIn).tmHead 0 1 = some dCopyIn ∧
    isPlace ((sTm dCopyIn).place (tmSrc dCopyIn.bytes) 64 2) (.tiered 0) = true ∧ Readable (sTm dCopyIn) 0 (.tiered 0) 64 := by
  refine ⟨by decide, by decide, fun x h => ?_, ?_, by decide, by decide, fun x h => ?_⟩
  · rw [access_plain] at h
    simp only [List.mem_singleton] at h; subst h
    exact ⟨by decide, by decide, fun _ _ e => by simp at e⟩
  · show ((sTm dCopyOut).mapAll (.core 0) ((sTm dCopyOut).access 0 64)).isSome = true; decide
  · rw [access_plain] at h
    simp only [List.mem_singleton] at h; subst h
    exact ⟨by decide, by decide, by decide, by decide, fun g e => absurd (show (none : Option Page) = some g from e) (by simp)⟩

/-- UNPACK of a tile of zeros in four-bit numbers, which packs to the 16 bytes of its header. -/
def dUnpack : Desc := tmDesc 3 win (win + 0x40000) 0 (1 + 7 * 2 ^ 16)
def sUnpack : State := coreOf { kRun with
  tmQ := ⟨1, [dUnpack], [], []⟩, sram := [(0, 7), (1, 2), (8, 158), (9, 186), (10, 232), (11, 241)] }

theorem wit_TileMover_unpack : sUnpack.tmHead 0 3 = some dUnpack ∧ tmBadForm dUnpack.bytes = none ∧ tmTiles dUnpack.bytes = 1 ∧
    (match sUnpack.unpackWalk (tmSrc dUnpack.bytes) 1 0 with
      | .ok r => r = ([0], 16)
      | _ => false) = true ∧
    isPlace (sUnpack.place (tmSrc dUnpack.bytes) 16 2) (.sram 0 0) = true ∧
    isPlace (sUnpack.place (tmDst dUnpack.bytes) (tmForm dUnpack.bytes).stride 4) (.sram 0 0x40000) = true ∧
    ReadsClean (sUnpack.core 0) [(0, 16)] := by decide

/-- The CRC register after each 128 bytes of zeros. -/
def crcMarks : List Nat := [0xFFFFFFFF, 1029113186, 4066998951, 2001022648, 1297451655, 3028871461, 174001130, 2915205440, 273305809,
  1587783631, 54289050, 3478704552, 2481135233, 1074817599, 2177146615, 3578317780, 236406113]

theorem crc_marks : ∀ i, i < 16 → (List.replicate 128 (0 : Byte)).foldl crcByte (crcMarks.getD i 0) = crcMarks.getD (i + 1) 0 := by
  decide +kernel

theorem crc_zeros : ∀ n, n ≤ 16 → (List.replicate (128 * n) (0 : Byte)).foldl crcByte 0xFFFFFFFF = crcMarks.getD n 0
  | 0, _ => rfl
  | n + 1, h => by
    rw [show 128 * (n + 1) = 128 * n + 128 by omega, List.replicate_add, List.foldl_append, crc_zeros n (by omega)]
    exact crc_marks n (by omega)

/-- A header that says zeros, with the CRC of the zeros, unpacks. -/
theorem unpack_zeros (t : TileFmt) (bs : List Byte) (h : (t.ok && bits (wd bs 0) 0 4 = t.format && bitOf (wd bs 0) 7 = t.scaled
      && bits (wd bs 0) 4 2 = t.size && bits (wd bs 0) 6 1 = t.dir && bits (wd bs 0) 8 2 = 2 && bodyLength bs = 0) = true)
    (c : crc32 (List.replicate t.raw 0) = wd bs 2) : (unpackTile t bs).isSome = true := by
  simp only [Bool.and_eq_true, decide_eq_true_eq] at h
  simp [unpackTile, h]; exact c

theorem wit_TileMover_unpack_tile (bs : List Byte) (h : Holds sUnpack (.sram 0 0) 16 bs) :
    (unpackTile (tmForm dUnpack.bytes) (bs.drop 0)).isSome = true := by
  have e : ∀ i, (hi : i < bs.length) → bs[i] = rdByte (sUnpack.core 0).sram i := fun i hi => by
    have := h.2 i (by rw [← h.1]; exact hi) rfl
    simpa [placeByte, List.getD, hi] using this
  have b : bs = (List.range 16).map (fun i => rdByte (sUnpack.core 0).sram i) :=
    List.ext_getElem (by simp [h.1]) fun i hi _ => by rw [e i hi]; simp
  subst b
  refine unpack_zeros _ _ (by decide) ?_
  rw [show (tmForm dUnpack.bytes).raw = 128 * 16 by decide, crc32, crc_zeros 16 (by decide)]; decide

theorem wit_TileMover_sdm : (sTm dSdmRd).tmHead 0 4 = some dSdmRd ∧ sdmLenOk (tmLen dSdmRd.bytes) = true ∧
    wb dSdmRd.bytes 4 0 16 + tmLen dSdmRd.bytes = 0xEE00 ∧ isPlace ((sTm dSdmRd).place (tmSrc dSdmRd.bytes) 16 2) (.sram 0 0xFFFFF0) = true ∧
    (sTm dSdmWr).tmHead 0 5 = some dSdmWr ∧ sdmLenOk (tmLen dSdmWr.bytes) = true ∧ wb dSdmWr.bytes 2 0 16 + tmLen dSdmWr.bytes = 65536 ∧
    isPlace ((sTm dSdmWr).place (tmDst dSdmWr.bytes) 16 4) (.sram 0 0) = true := by decide

theorem wit_TieredMoves : (sTm dMemRd).tmHead 0 4 = some dMemRd ∧ wb dMemRd.bytes 4 0 16 + tmLen dMemRd.bytes = 0xEE00 ∧
    isPlace ((sTm dMemRd).place (tmSrc dMemRd.bytes) 16 2) (.tiered 0) = true ∧
    (∀ p ∈ (sTm dMemRd).access 0 16, (sTm dMemRd).piecePoisoned p = false ∧ (sTm dMemRd).pieceWaits (.core 0) p = false ∧ p.tile = none ∧
      (sTm dMemRd).pieceFenced p = none ∧ (sTm dMemRd).page p.key = none) ∧
    (sTm dMemWr).tmHead 0 5 = some dMemWr ∧ isPlace ((sTm dMemWr).place (tmDst dMemWr.bytes) 16 4) (.tiered 0) = true ∧
    ((sTm dMemWr).mapAll (.core 0) ((sTm dMemWr).access 0 16)).isSome = true := by decide

/-- A raw tile of each format and direction. -/
theorem wit_PackedTiles : (⟨1, false, 0, 0⟩ : TileFmt).ok = true ∧ (List.replicate (⟨1, false, 0, 0⟩ : TileFmt).raw (0 : Byte)).length =
    (⟨1, false, 0, 0⟩ : TileFmt).raw := ⟨by decide, List.length_replicate ..⟩

/-! Matrix products. -/

/-- One product of BF16 tiles at 0 and 0x4000 with K = 1, into bank A of engine 0. -/
def mmDesc (op flags : Nat) : Desc :=
  descOf [op, 0, 2 ^ 24, 2 ^ 24 + 0x4000, 0x3F800000, 0x3F800000, 1 + 2 ^ 16, 0, 0, 0, 0, 0, flags]

def sMm (op flags : Nat) : State := coreOf { kRun with mxQ := ⟨1, [mmDesc op flags], [], []⟩ }

theorem wit_MatrixProduct : MatrixReady (sMm 1 0) 0 0 1 (mmDesc 1 0) .empty ⟨.accumulating, 0, [], none⟩ ∧
    mmK (mmDesc 1 0).bytes = 1 ∧ mmRefuse ((sMm 1 0).core 0) .empty (mmDesc 1 0) 1 = none := by
  unfold MatrixReady; decide

theorem log2_small (n : Nat) (h : n < 256) : (Nat.log2 n : Int) ≤ 7 := by
  by_cases z : n = 0
  · subst z; decide
  · have := (Nat.log2_lt z (k := 8)).2 h; omega

theorem fin_small (n : Bool) (m : Nat) (e : Int) (h : (Nat.log2 m : Int) + e < 240) : tooLarge ((Machine.Num.fin n m e).scale 0) = false := by
  simp only [Machine.Num.scale, tooLarge, flog2, Bool.and_eq_false_iff]
  exact Or.inr (decide_eq_false (by omega))

/-- A BF16 number is in the range of R99. -/
theorem bf16_inRange (b : Nat) : tooLarge ((decodeElem bf16 b).scale 0) = false := by
  have hm : bits b 0 7 < 128 := by unfold bits; omega
  have he : bits b 7 8 < 256 := by unfold bits; omega
  have h1 := log2_small (bits b 0 7) (by omega)
  have h2 := log2_small (128 + bits b 0 7) (by omega)
  unfold decodeElem
  simp only [bf16, Bool.false_eq_true, if_false]
  by_cases e1 : bits b 7 8 = 2 ^ 8 - 1
  · by_cases m0 : bits b 0 7 = 0 <;> simp [e1, m0, Machine.Num.scale, tooLarge]
  · by_cases e0 : bits b 7 8 = 0
    · simp only [e0, show ¬(0 = 2 ^ 8 - 1) by decide, false_and, and_false, not_true, if_true, if_false]
      exact fin_small _ _ _ (by omega)
    · simp only [e0, e1, false_and, and_false, if_false]
      refine fin_small _ _ _ ?_
      have h3 : (Nat.log2 (2 ^ 7 + bits b 0 7) : Int) ≤ 7 := h2
      have h4 : bits b 7 (16 - 1 - 7) < 256 := he
      omega

/-- A tile of BF16 numbers keeps to the range of R99. -/
theorem bf16_tile (bs : List Byte) (i : Nat) : tooLarge ((loadTile ⟨1, false, 0, 0⟩ 0 bs).getD i (.fin false 0 0)) = false := by
  unfold loadTile
  rw [Array.getD_eq_getD_getElem?, Array.getElem?_ofFn]
  split
  · exact bf16_inRange _
  · rfl

/-- Every value of tiles loaded as BF16 with stream scale 1.0 is in range. -/
theorem bf16_val (o : Operand) (tiles : List (List Byte)) (off i j : Nat) (hf : o.form = ⟨1, false, 0, 0⟩) (hs : o.sexp = 0) :
    tooLarge (o.val (o.loaded tiles) off i j) = false := by
  unfold Operand.val Operand.loaded
  have h : ∀ n, ((tiles.map (loadTile o.form o.sexp)).toArray.getD n #[]) = #[] ∨
      ∃ bs, ((tiles.map (loadTile o.form o.sexp)).toArray.getD n #[]) = loadTile ⟨1, false, 0, 0⟩ 0 bs := by
    intro n
    by_cases h : n < tiles.length
    · right; exact ⟨_, by simp [Array.getD, h, hf, hs]; rfl⟩
    · left; simp [Array.getD, h]
  rcases h (j / 64 - off / 64) with e | ⟨bs, e⟩ <;> rw [e]
  · rfl
  · exact bf16_tile _ _

theorem load_loaded (k : CoreState) (o : Operand) (off n : Nat) :
    o.load k off n = o.loaded ((kTiles off n).map (fun j => k.sramRead (o.tileAt j) o.form.raw)) := by
  simp [Operand.load, Operand.loaded, Function.comp_def]

/-- An operand whose values are all in range. -/
theorem range_none (a b : Operand) (ta tb : Array (Array Machine.Num)) (off n : Nat) (ha : ∀ i j, tooLarge (a.val ta off i j) = false)
    (hb : ∀ i j, tooLarge (b.val tb off i j) = false) : rangeBreak false a b ta tb off n = none := by
  simp [rangeBreak, operandVals, ha, hb]

theorem bf16_range (k : CoreState) (a b : Operand) (off n : Nat) (ha : a.form = ⟨1, false, 0, 0⟩) (hb : b.form = ⟨1, false, 0, 0⟩)
    (sa : a.sexp = 0) (sb : b.sexp = 0) : rangeBreak false a b (a.load k off n) (b.load k off n) off n = none := by
  rw [load_loaded, load_loaded]
  exact range_none _ _ _ _ _ _ (fun _ _ => bf16_val _ _ _ _ _ ha sa) (fun _ _ => bf16_val _ _ _ _ _ hb sb)

theorem wit_MatrixProduct_range : InRange ((sMm 1 0).core 0) (mmDesc 1 0) := by
  refine ⟨by decide, by decide, ?_⟩
  exact bf16_range _ _ _ _ _ (by decide) (by decide) (by decide) (by decide)

/-- One cell's residue mismatches, its count still 0. -/
theorem wit_ReplayedProduct : (sMm 1 0).part.hasCore 0 = true ∧ mget 0 (((sMm 1 0).core 0).engine 0).faults (64 * 63 + 63) = 0 := by decide

/-- A plain fused product: the variant has RANK 0. -/
theorem wit_FusedProduct_plain : MatrixReady (sMm 2 0) 0 0 2 (mmDesc 2 0) .empty ⟨.accumulating, 0, [], none⟩ ∧
    wb (mmDesc 2 0).bytes 12 26 1 = 0 ∧ mmRefuse ((sMm 2 0).core 0) .empty (mmDesc 2 0) 1 = none := by
  unfold MatrixReady; decide

theorem wit_FusedProduct_plain_range : InRange ((sMm 2 0).core 0) (mmDesc 2 0) ∧ (sMm 2 0).fusion 0 (mmDesc 2 0).bytes = .ok none := by
  exact ⟨⟨by decide, by decide, bf16_range _ _ _ _ _ (by decide) (by decide) (by decide) (by decide)⟩, rfl⟩

/-- Variant 0 has RANK 1 in BF16, with A in tensor 0 and B in tensor 1. -/
def sMmf : State := { coreOf { kRun with
    mxQ := ⟨1, [mmDesc 2 0], [], []⟩, sdm := [(0xEE00, 1), (0xEE01, 0x10), (0xEE04, 1)],
    inflight := [(0, some ⟨0, 0, 0, 0, 0, 0, false, []⟩)] } with
  stages := [(0, some ⟨0, 1, 1, 0, 0⟩)],
  blobs := [(0x410000, padTo 64 (wordsLE [2 ^ 14, 64, 64]) ++ padTo 64 (wordsLE [1 + 2 ^ 14, 64, 64, 0, 0x10000]))] }

def recA : TensorRec := padTo 64 (wordsLE [2 ^ 14, 64, 64])
def recB : TensorRec := padTo 64 (wordsLE [1 + 2 ^ 14, 64, 64, 0, 0x10000])

theorem wit_FusedProduct_adapter : MatrixReady sMmf 0 0 2 (mmDesc 2 0) .empty ⟨.accumulating, 0, [], none⟩ ∧
    mmRefuse (sMmf.core 0) .empty (mmDesc 2 0) 2 = none ∧ mmfBadField (mmDesc 2 0).bytes ⟨1, 1, recA, recB⟩ = none ∧
    (sMmf.core 0).flight 0 = some ⟨0, 0, 0, 0, 0, 0, false, []⟩ ∧ (sMmf.core 0).heldU 0 (mmDesc 2 0).bytes 0 = none := by
  unfold MatrixReady; decide

/-- The same with an engine that holds the u of these operands. -/
def uHeld : Adapter := ⟨fusedX (mmDesc 2 0).bytes, 0, 0, 0, 1, 1, []⟩
def sHeld : State := sMmf.setCore 0 { sMmf.core 0 with engines := [(0, { Engine.reset with adapter := some uHeld })] }

theorem wit_FusedProduct_held : MatrixReady sHeld 0 0 2 (mmDesc 2 0) .empty ⟨.accumulating, 0, [], none⟩ ∧
    mmRefuse (sHeld.core 0) .empty (mmDesc 2 0) 2 = none ∧ (sHeld.core 0).flight 0 = some ⟨0, 0, 0, 0, 0, 0, false, []⟩ ∧
    (sHeld.core 0).heldU 0 (mmDesc 2 0).bytes 0 = some uHeld ∧ uHeld.rank = 1 ∧ uHeld.ufmt = 1 := by
  unfold MatrixReady; decide

theorem wit_FusedProduct_fusion : (match sMmf.fusion 0 (mmDesc 2 0).bytes with
    | .ok (some fu) => fu = ⟨1, 1, recA, recB⟩
    | _ => false) = true := by decide +kernel

theorem wit_FusedProduct_tiles :
    (match sMmf.fetchTiles 0 1 recA 0 ((adapterA (mmDesc 2 0) ⟨1, 1, recA, recB⟩).flatMap (fun o => o.addrs 0 1)) with
     | .ok (some _, s1) => (match s1.fetchTiles 0 1 recB 0 ((adapterB (mmDesc 2 0) ⟨1, 1, recA, recB⟩).addrs 0 1) with
       | .ok (some _, _) => true
       | _ => false)
     | _ => false) = true := by decide +kernel

theorem wit_FusedProduct_held_tiles : (match sHeld.fetchTiles 0 1 recB 0 ((adapterB (mmDesc 2 0) ⟨1, 1, recA, recB⟩).addrs 0 1) with
    | .ok (some _, _) => true
    | _ => false) = true := by decide +kernel

/-- Whatever the fetched tiles hold, the adapter's operands lie in range: they are BF16. -/
theorem wit_FusedProduct_adapter_range (as bs : List (List Byte)) :
    (∀ o ∈ adapterTiles (mmDesc 2 0) ⟨1, 1, recA, recB⟩ as, rangeBreak false (operandA (mmDesc 2 0).bytes) o.1
        ((operandA (mmDesc 2 0).bytes).load (sMmf.core 0) 0 1) o.2 0 1 = none) ∧
    rangeBreak false (uOperand 1) (adapterB (mmDesc 2 0) ⟨1, 1, recA, recB⟩) #[] ((adapterB (mmDesc 2 0) ⟨1, 1, recA, recB⟩).loaded bs) 0 1 = none := by
  refine ⟨fun o h => ?_, ?_⟩
  · obtain ⟨p, hp, rfl⟩ := List.mem_map.1 h
    have hf : p.1 = tensorOperand recA 0 false := by
      have e : adapterA (mmDesc 2 0) ⟨1, 1, recA, recB⟩ = [tensorOperand recA 0 false] := by decide
      rw [e] at hp; simpa using (List.mem_zipIdx' hp).2
    rw [load_loaded]
    exact range_none _ _ _ _ _ _ (fun _ _ => bf16_val _ _ _ _ _ (by decide) (by decide))
      (fun _ _ => bf16_val _ _ _ _ _ (by rw [hf]; decide) (by rw [hf]; decide))
  · refine range_none _ _ _ _ _ _ (fun i j => ?_) (fun _ _ => bf16_val _ _ _ _ _ (by decide) (by decide))
    simp [Operand.val, Array.getD, tooLarge]

/-- Bank A of engine 0 drains one finished product, with `n` entries in the finished-tile queue. -/
def sDrain (n : Nat) : State := coreOf { kRun with
  engines := [(0, { Engine.reset with bankA := ⟨.draining, 1, [], some (mmDesc 1 0, ⟨0, 0x3F800000, 1, false, 0, 0, 0, false⟩)⟩ })],
  ftq := List.replicate n ⟨0, 0, 0, false, false, false, 0, 0, 0, 1, 0, 0, 0, 0⟩ }

theorem wit_Epilogue : (((sDrain 31).core 0).engine 0).drainingBank = some (0, mmDesc 1 0, ⟨0, 0x3F800000, 1, false, 0, 0, 0, false⟩) ∧
    ((sDrain 31).core 0).ftq.length < 32 ∧ 32 ≤ ((sDrain 32).core 0).ftq.length := by decide

/-! Picks. -/

/-- A core of a one-stage pipeline that picks four micro-batches a step. -/
def sPick (k : CoreState) : State := { coreOf k with
  stages := [(0, some ⟨0, 2, 2, 0, 0⟩)], dict := [(objKey 0x4001 2, 4), (objKey 0x4001 5, 1)] }

theorem wit_PickAndStepend : (sPick kRun).runs 0 = true ∧ ((sPick kRun).core 0).item = none ∧ ((sPick kRun).core 0).itemHolds = false ∧
    ((sPick kRun).stageOf 0).isSome = true ∧ (coreOf kRun).stageOf 0 = none ∧ GoesOn (coreOf kRun) 0 ∧
    ((coreOf { kRun with doneSpan := true }).core 0).doneSpan = true ∧ ((coreOf { kRun with doneSpan := true }).core 0).itemRetired = true ∧
    ((sPick kRun).core 0).doneSpan = false := by unfold GoesOn; decide

/-- A core that waits for its pick, with records in flight and an Oxbow. -/
def kPick (fl : SMap (Option InFlight)) (ox : List OxEntry) (taken : Nat) : CoreState :=
  { kRun with waiting := .pick 2, inflight := fl, oxbow := ox, taken := taken }

/-- Nothing to run; a first forward item; a continued one; a backward one; an Oxbow entry; nothing allowed. -/
theorem wit_PickAnswers : (coreOf (kPick [] [] 0)).choose 0 = .done ∧ (sPick (kPick [] [] 0)).choose 0 = .forward 0 0 ∧
    ((sPick (kPick [] [] 0)).core 0).flight 0 = none ∧
    (sPick (kPick [(0, some ⟨0, 0, 0, 0, 1, 0, false, []⟩)] [] 1)).choose 0 = .forward 0 0 ∧
    (((sPick (kPick [(0, some ⟨0, 0, 0, 0, 1, 0, false, []⟩)] [] 1)).core 0).flight 0).isSome = true ∧
    (sPick (kPick [(0, some ⟨0, 0, 0, 0, 2, 0, false, []⟩)] [] 1)).choose 0 = .backward 0 0 ∧
    (sPick (kPick [] [⟨1, List.replicate 32 0, 0, 0, 0, 0⟩] 4)).choose 0 = .oxbow 0 ∧
    (sPick (kPick [] [] 4)).choose 0 = .wait false ∧
    ((sPick (kPick [] [] 0)).core 0).run = .running ∧ ((sPick (kPick [] [] 0)).core 0).waiting = .pick 2 ∧
    GoesOn (sPick (kPick [] [] 0)) 0 := by unfold GoesOn; decide

/-- The choices of PickOrder are made. -/
theorem wit_PickOrder : (sPick (kPick [] [] 0)).choose 0 = .forward 0 0 ∧
    (sPick (kPick [(0, some ⟨0, 0, 0, 0, 2, 0, false, []⟩)] [] 1)).choose 0 = .backward 0 0 ∧
    (sPick (kPick [] [⟨1, List.replicate 32 0, 0, 0, 0, 0⟩] 4)).choose 0 = .oxbow 0 ∧ (sPick (kPick [] [] 4)).choose 0 = .wait false := by decide

/-! Streams. -/

/-- A stream inside the package: core 0 sends forward with four slots of 8,192 bytes, or receives. -/
def recOf (sends : Bool) : StreamRec := ⟨3, if sends then 0 else 1, if sends then 1 else 0, 0, 0, 0, 0, true, 32, 4, 4, 0, 0, 1, 1⟩

def sStream (sends : Bool) (credit : Nat) (rx : SMap MbEntry) (fault : Bool) (k : CoreState) : State := { coreOf k with
  streams := [(3, some ⟨recOf sends, ⟨rx, [], 0, credit, []⟩, ⟨[], [], 0, 4, []⟩, fault, 0⟩)] }

/-- SEND of one BF16 tile of micro-batch 5 on the forward side. -/
def sendDesc : Desc := descOf [1, 5, 3, 0, 0, 2 ^ 12, 0x3F800000]

def readyOf : ReadySend := ⟨sendDesc, 3, 0, 1, false, padTo 28 (wordsLE [3 + 5 * 2 ^ 16, 0, 0, 0, 1, 0x3F800000, 8192])⟩

theorem wit_SendsAndCredit : ((sStream true 1 [] false { kRun with sendQ := ⟨1, [sendDesc], [], []⟩ }).core 0).ready = none ∧
    (sStream true 1 [] false { kRun with sendQ := ⟨1, [sendDesc], [], []⟩ }).sendRefuse 0 sendDesc = none ∧
    ((sStream true 1 [] false { kRun with sendQ := ⟨1, [sendDesc], [], []⟩ }).coreStream 0 3).isSome = true ∧
    ((sStream true 1 [] false { kRun with ready := some readyOf }).core 0).ready = some readyOf ∧
    (sStream true 1 [] false { kRun with ready := some readyOf }).stream 3 =
      some ⟨recOf true, ⟨[], [], 0, 1, []⟩, ⟨[], [], 0, 4, []⟩, false, 0⟩ ∧
    ReadsClean ((sStream true 1 [] false { kRun with ready := some readyOf }).core 0) [(wb sendDesc.bytes 3 0 24, wb readyOf.header 6 0 17)] ∧
    ((sStream true 1 [] true { kRun with ready := some readyOf }).stream 3).any (fun v => v.fault) = true := by decide

/-- RECV and REL of micro-batch 5 with one message arrived, or one slot held. -/
def recvDesc (op : Nat) : Desc := descOf [op, 5, 3 + (if op = 2 then 2 ^ 13 else 0), 0x100]

def entryOf (arrived : List Accepted) (held : List Nat) : SMap MbEntry := [(5, ⟨true, some 0, 0, 1, false, arrived, held⟩)]

def sRecv (op : Nat) (arrived : List Accepted) (held : List Nat) : State :=
  sStream false 4 (entryOf arrived held) false { kRun with recvQ := ⟨1, [recvDesc op], [], []⟩ }

theorem wit_ReceiveAndRelease : ((sRecv 1 [⟨List.replicate 32 0, [0]⟩] []).core 0).recvQ.waiting = [recvDesc 1] ∧
    ((sRecv 1 [⟨List.replicate 32 0, [0]⟩] []).recvStream 0 (recvDesc 1)).isOk = true ∧
    (∀ v, (sRecv 1 [⟨List.replicate 32 0, [0]⟩] []).stream 3 = some v → v.liveFor 0 5 = true ∧ (v.fwd.entry 5).arrived ≠ []) ∧
    (∀ v, (sRecv 1 [] []).stream 3 = some v → v.liveFor 0 5 = true ∧ (v.fwd.entry 5).arrived = []) ∧
    wb (recvDesc 1).bytes 3 0 16 % 32 = 0 ∧ wb (recvDesc 2).bytes 2 13 10 = 1 ∧
    (∀ v, (sRecv 2 [] [0]).stream 3 = some v → v.liveFor 0 5 = true ∧ 1 ≤ (v.fwd.entry 5).held.length) := by
  refine ⟨by decide, by decide, ?_, ?_, by decide, by decide, ?_⟩ <;> (intro v h; cases h; decide)

/-- A message of one packed tile, with its CRC. -/
def msgOf (attempt mbId index : Nat) : List Byte :=
  let h := wordsLE [3 + attempt * 2 ^ 12 + mbId * 2 ^ 16, 0, 0, index * 2 ^ 16, 1 + 2 ^ 20, 0x3F800000, 16]
  h ++ leBytes 4 (crc32 (h ++ List.replicate 16 0)) ++ List.replicate 16 0

/-- Accepted; late by its attempt, and by its generation; out of order; a stream in FAULT. -/
theorem wit_MessageArrives : (sStream false 4 [] false kRun).part.hasCore 0 = true ∧
    (sStream false 4 [] false kRun).arrival 0 (msgOf 0 5 0) = .accept ∧ (sStream false 4 [] false kRun).arrival 0 (msgOf 1 5 0) = .late false ∧
    (sStream false 4 [] false kRun).arrival 0 (msgOf 0 0x1005 0) = .late true ∧
    (sStream false 4 [] false kRun).arrival 0 (msgOf 0 5 1) = .fault 0x0204 1 ∧
    (sStream false 4 [] true kRun).arrival 0 (msgOf 0 5 0) = .ignored := by decide +kernel

/-- No record; another generation; one slot below the capacity, and at it. -/
theorem wit_CreditReturns : (coreOf kRun).stream 3 = none ∧ (0x1003 / 4096 % 16 ≠ (sStream true 3 [] false kRun).attempt) ∧
    (∀ v, (sStream true 3 [] false kRun).stream 3 = some v →
      v.record.txPkg 0 = (sStream true 3 [] false kRun).position ∧ v.fwd.credit + 1 = v.record.slots 0) ∧
    (∀ v, (sStream true 4 [] false kRun).stream 3 = some v → v.record.slots 0 < v.fwd.credit + 1) ∧
    (∀ v, ({ sStream true 3 [] false kRun with dict := [(objKey 0x4030 1, 9)] } : State).stream 3 = some v →
      v.record.txPkg 0 ≠ ({ sStream true 3 [] false kRun with dict := [(objKey 0x4030 1, 9)] } : State).position) := by
  refine ⟨by decide, by decide, ?_, ?_, ?_⟩ <;> (intro v h; cases h; decide)

/-! Tributary and the update units. -/

/-- Collective 0 of group 0: an all-reduce of four tiles of tensor 0 to die 0, on the ring 5, 6, 0; ports 0 and 1 lead to 5 and 6. -/
def sRing (k : CoreState) (c : Coll) : State := { coreOf k with
  blobs := [(0x403100, wordsLE [3 * 2 ^ 16, 5 + 6 * 2 ^ 16, 0]), (0x403200, wordsLE [2 ^ 12, 0, 4, 0, 0, 0, 0, 0])],
  dict := [(objKey 0x7020 0, 0x8005), (objKey 0x7020 1, 0x8006), (objKey 0x7022 0, 0x8005), (objKey 0x7022 1, 0x8006)],
  trib := { Trib.reset with colls := [(0, c)] } }

/-- The membership of that collective: the third of the ring. -/
def ringMember : Member := ⟨collRecOf (wordsLE [2 ^ 12, 0, 4, 0, 0, 0, 0, 0]), [5, 6, 0], 2⟩

/-- RSEND of BF16 tile `tile` for layer 3. -/
def rsendDesc (tile : Nat) : Desc := descOf [2, 0, 3, 0, tile * 2 ^ 16, 2 ^ 12, 0x3F800000, 0, 1]

def sRsend (tile declared : Nat) (hold : Bool) : State :=
  sRing { kRun with
    sendQ := if hold then ⟨1, [], [1], []⟩ else ⟨1, [rsendDesc tile], [], []⟩,
    drainHold := if hold then [rsendDesc tile] else [], layers := [(3, ⟨declared, 0, 0⟩)] } .start

/-- Below the drain point; at it with a lower tile missing; at it in turn; held until it is met. -/
theorem wit_ReductionSends : (sRsend 0 1 false).member 0 = some ringMember ∧ ((sRsend 0 1 false).core 0).ready = none ∧
    (sRsend 0 1 false).rsendRefuse (rsendDesc 0).bytes = none ∧ ((sRsend 0 1 false).core 0).drained 3 = false ∧
    (sRsend 3 0 false).rsendRefuse (rsendDesc 3).bytes = none ∧ ((sRsend 3 0 false).core 0).drained 3 = true ∧
    ((sRsend 3 0 false).coll 0).next < (sRsend 3 0 false).rsendFirst ringMember (rsendDesc 3).bytes ∧
    (sRsend 0 0 false).rsendFirst ringMember (rsendDesc 0).bytes = ((sRsend 0 0 false).coll 0).next ∧ (sRsend 0 0 false).orderWaits = 0 ∧
    ((sRsend 0 0 false).core 0).poisoned 0 (rsendLength (rsendDesc 0).bytes) = false ∧
    (rsendTiles ((sRsend 0 0 false).core 0) (rsendDesc 0).bytes).isSome = true ∧
    ((sRsend 0 0 true).core 0).drainHold.find? (fun d => ((sRsend 0 0 true).core 0).drained (wb d.bytes 2 0 12)) = some (rsendDesc 0) := by
  decide +kernel

/-- A ring message of one tile, with its CRC. -/
def ringMsg (phase src dir step : Nat) : List Byte :=
  let h := wordsLE [phase * 2 ^ 12 + src * 2 ^ 16, 0, step, 0, dir * 2 ^ 10, 0x3F800000, 4]
  h ++ leBytes 4 (crc32 (h ++ [1, 2, 3, 4])) ++ [1, 2, 3, 4]

def tile0 : TribTile := ⟨[], false, 0, 0x3F800000⟩

theorem wit_RingMessages : (sRing kRun .start).member 0 = some ringMember ∧
    carried { Coll.start with chainOut := [(0, some tile0)] } 0 [(0, some tile0)] = [(0, tile0)] ∧
    (sRing kRun .start).portTo (ringMember.ring.getD (ringMember.hop ringMember.me 0) 0) = some 0 ∧
    (sRing kRun .start).tribCheck (ringMsg 0 6 0 0) = .tiles ringMember ∧ messageTiles ((ringMsg 0 6 0 0).take 32) = [0] ∧
    ((sRing kRun .start).coll 0).fits 0 0 = true ∧ mget none ((sRing kRun .start).coll 0).own 0 = none ∧
    mget none ((sRing kRun { Coll.start with own := [(0, some tile0)] }).coll 0).own 0 = some tile0 ∧
    ringMember.owns 0 = false ∧ ringMember.first 0 = false ∧
    (sRing kRun .start).tribCheck (ringMsg 4 6 0 0) = .window ringMember ∧ (sRing kRun .start).tribCheck (ringMsg 0 6 0 1) = .late ∧
    (sRing kRun .start).tribCheck (ringMsg 0 5 0 0) = .route ∧ (sRing kRun .start).tribCheck [] = .crc ∧ (sRing kRun .start).job.left = false ∧
    windowDir 0 = 1 ∧ windowDir 1 = 0 := by decide +kernel

/-- Tensor 0 of 64 × 64 on core 0, under an update rule, with its state at 64 KiB apart. -/
def tensor0 (rule : Nat) : TensorRec :=
  padTo 64 (wordsLE [2 ^ 12 + 2 ^ 14 + rule * 2 ^ 22, 64, 64, 0, 0, 0, 0, 0, 0x10000, 0, 0x20000, 0, 0, 0, 0x30000])

def sUpd (rule : Nat) (u : UpdUnit) (k : CoreState) : State := { coreOf k with
  blobs := [(0x410000, tensor0 rule)], upd := [(0, u)], stages := [(0, some ⟨0, 2, 2, 0, 0⟩)] }

def grad (tensor step : Nat) : GradTile := ⟨0, tensor, 0, step, false, []⟩

/-- A page of tensor 0's state, in Backwater. -/
def bwPage : Page := ⟨⟨16, 0, 16⟩, 0, 0, 0, 0, 0, 0, [], false, none, false, none, 0, [], [], false, none⟩

def sStatePage (rule : Nat) (pg : Page) : State :=
  { sUpd rule .reset kRun with mem := { Tiered.reset with pages := [(2 * 0x10000, some pg)] } }

theorem pieceSound_of_unmapped {s : State} {g : Agent} {p : Piece} (h : s.page p.key = none) (w : s.pieceWaits g p = false) :
    PieceSound s g p := by
  refine ⟨?_, ?_, ?_, w, fun g e => ?_⟩
  · simp [State.pieceFenced, h]
  · simp [State.piecePoisoned, h]
  · simp [State.pieceDamaged, h]
  · rw [h] at e; cases e

/-- Each outcome of an arriving tile. -/
theorem wit_UpdateArrivals : (sUpd 1 .reset kRun).fate 0 (grad 9 1) = .unknown ∧ (sUpd 0 .reset kRun).fate 0 (grad 0 1) = .frozen (tensor0 0) ∧
    (sUpd 1 { UpdUnit.reset with applied := [0] } kRun).fate 0 (grad 0 1) = .overrun ∧ (sUpd 1 .reset kRun).fate 0 (grad 0 2) = .held ∧
    ({ sUpd 1 .reset kRun with versions := [(vtKey 0 0, List.replicate 8 ⟨.current, 0, 0⟩)] } : State).fate 0 (grad 0 1) = .noVersion ∧
    (match (sUpd 1 .reset kRun).fate 0 (grad 0 1) with
      | .apply r _ => r = tensor0 1
      | _ => false) = true ∧
    ((sUpd 1 .reset kRun).freshenAll 0 ((sUpd 1 .reset kRun).piecesOf (tileWrites (tensor0 1) 0))).isSome = true := by
  decide +kernel

theorem wit_UpdateArrivals_sound : ∀ p ∈ (sUpd 1 .reset kRun).piecesOf (tileState (tensor0 1) 0), PieceSound (sUpd 1 .reset kRun) (.update 0) p :=
  fun p h => pieceSound_of_unmapped
    ((by decide +kernel : ∀ p ∈ (sUpd 1 .reset kRun).piecesOf (tileState (tensor0 1) 0), (sUpd 1 .reset kRun).page p.key = none) p h)
    ((by decide +kernel : ∀ p ∈ (sUpd 1 .reset kRun).piecesOf (tileState (tensor0 1) 0),
      (sUpd 1 .reset kRun).pieceWaits (.update 0) p = false) p h)

/-- A state page in Backwater; with a poisoned line; with a line that resolved wrongly. -/
theorem wit_UpdateArrivals_stops :
    (match (sStatePage 1 bwPage).fate 0 (grad 0 1) with
      | .miss _ => true
      | _ => false) = true ∧
    (match (sStatePage 1 { bwPage with frame := ⟨0, 0, 16⟩, poison := [0] }).fate 0 (grad 0 1) with
      | .ue _ _ => true
      | _ => false) = true ∧
    (match (sStatePage 1 { bwPage with frame := ⟨0, 0, 16⟩, damaged := [0] }).fate 0 (grad 0 1) with
      | .refused _ => true
      | _ => false) = true := by decide +kernel

theorem wit_UpdateArrivals_arrive :
    ({ sUpd 1 .reset kRun with trib := { Trib.reset with deliver := [(0, grad 0 1)] } } : State).trib.deliver.findIdx? (fun p => p.1 = 0) = some 0 ∧
    ((sUpd 1 .reset kRun).unit 0).buffer.length < 512 ∧ (sUpd 1 .reset kRun).dieUp 0 = true := by decide

/-- UFETCH of tensor 0's one tile, frozen or not; with a page of it in Backwater. -/
def ufetchDesc : Desc := descOf [1, 0, 0, 0, 1]

def sUfetch (rule : Nat) (pages : SMap (Option Page)) : State :=
  { sUpd rule .reset { kRun with updQ := ⟨1, [ufetchDesc], [], []⟩ } with mem := { Tiered.reset with pages := pages } }

theorem wit_UpdateArrivals_ufetch : (∀ rule ∈ [0, 1], ((sUfetch rule []).ufetchTarget 0 ufetchDesc.bytes).isOk = true) ∧
    (∀ p ∈ (sUfetch 1 []).ufetchPieces (tensor0 1) 0 1, (sUfetch 1 []).pieceWaits (.update 0) p = false) ∧
    (∃ p ∈ (sUfetch 1 [(2 * 0x10000, some bwPage)]).ufetchPieces (tensor0 1) 0 1,
      (sUfetch 1 [(2 * 0x10000, some bwPage)]).pieceWaits (.update 0) p = true) := by decide +kernel

/-- A matrix-rule program that waits, with its home core at the step's end; one that runs; one whose page is in Backwater. -/
def kEnd : CoreState := { kRun with waiting := .stepend 2 }

theorem wit_SequencerPrograms : (sUpd 4 { UpdUnit.reset with waiting := [0] } kEnd).tensor 0 0 = some (tensor0 4) ∧
    (((sUpd 4 { UpdUnit.reset with waiting := [0] } kEnd).unit 0).waiting.find? (fun x =>
      match (sUpd 4 { UpdUnit.reset with waiting := [0] } kEnd).tensor 0 x with | some y => trHome y = trHome (tensor0 4) | none => false)) = some 0 ∧
    ((sUpd 4 { UpdUnit.reset with waiting := [0] } kEnd).core 0).sequencerReady = true ∧ trHome (tensor0 4) = 0 := by decide

theorem writeTiered_isSome (s : State) (g : Agent) (a n : Nat) (bs : List Byte) (h : bs.length = n)
    (m : (s.mapAll g (s.access a n)).isSome = true) : (s.writeTiered g a bs).isSome = true := by
  unfold State.writeTiered
  rw [h]
  cases e : s.mapAll g (s.access a n) with
  | none => rw [e] at m; cases m
  | some _ => simp [e]

def sScratch : State := sUpd 4 { UpdUnit.reset with waiting := [0] } kEnd

theorem wit_SequencerPrograms_limit : sScratch.obj 0x4103 0 + trHome (tensor0 4) * sScratch.obj 0x4104 0 + scratchBytes (tensor0 4) ≤
    sScratch.tieredLimit := by decide

theorem wit_SequencerPrograms_scratch (u : State) (h : u = { sScratch with free := sScratch.free + 2 }.onCore 0 (fun k =>
      k.sramWrite (sScratch.obj 0x4102 1) (freeRun (1024 * sScratch.obj 0x4102 2) sScratch.free))) :
    (u.writeTiered (.core 0) (sScratch.obj 0x4103 0 + 0 * sScratch.obj 0x4104 0) (freeRun (scratchBytes (tensor0 4)) (sScratch.free + 1))).isSome
      = true := by
  subst h
  refine writeTiered_isSome _ _ _ 65536 _ ?_ (by decide +kernel)
  simp only [freeRun, List.length_map, List.length_range]; decide

def sEnd : State := sUpd 4 { UpdUnit.reset with running := [0] } kEnd

theorem wit_SequencerPrograms_end : (sEnd.unit 0).running.contains 0 = true ∧ (∀ e, e < 8 → sEnd.engineLost 0 e = false) ∧
    (sEnd.freshenAll 0 (sEnd.piecesOf (programExtents (tensor0 4)))).isSome = true ∧
    (∃ p ∈ (sUfetch 4 [(2 * 0x10000, some bwPage)]).piecesOf (programExtents (tensor0 4)),
      (sUfetch 4 [(2 * 0x10000, some bwPage)]).pieceWaits (.update 0) p = true) ∧
    ({ sEnd with nv := { sEnd.nv with repair := [(3, 0x4000)] } } : State).engineLost 0 3 = true := by decide +kernel

theorem wit_SequencerPrograms_sound : ∀ p ∈ sEnd.piecesOf (programExtents (tensor0 4)), PieceSound sEnd (.update 0) p ∧
    ∀ y q, p.tile = some (y, q) → sEnd.locked y = false := fun p h => by
  refine ⟨pieceSound_of_unmapped
    ((by decide +kernel : ∀ p ∈ sEnd.piecesOf (programExtents (tensor0 4)), sEnd.page p.key = none) p h)
    ((by decide +kernel : ∀ p ∈ sEnd.piecesOf (programExtents (tensor0 4)), sEnd.pieceWaits (.update 0) p = false) p h), fun y q _ => ?_⟩
  rfl

/-- Where no mismatch occurs a program meets none. -/
theorem wit_SequencerPrograms_faultless (h : Config.engineMismatches sEnd.free = []) : programFaults sEnd.free = [] := by
  rw [programFaults, h]; rfl

/-! Requests. -/

/-- The code of an object's type. -/
def typeOf (index sub : Nat) : Nat := match objRow index sub with
  | some o => o.ty.code
  | none => 0

/-- A write by session 32 of position 3, and a write that position `p` sends on SESSION 0. -/
def wr (index sub : Nat) (v : List Byte) : NapReq := ⟨.sideband 3, 2, false, true, 32, 7, index, sub, typeOf index sub, 0, v.length, v, [], 0, 0, 0⟩
def cmd (p sub : Nat) (v : List Byte) : NapReq :=
  ⟨.sideband p, 2, false, true, 0, 7, 0x4040, sub, typeOf 0x4040 sub, 0, v.length, v, [], 0, 0, 0⟩

/-- A package with that session, which owns it where `own` holds. -/
def withSession (own : Bool) (s : State) : State := { s with
  nap := { Nap.reset with sessions := [(0, { Session.closed with isOpen := true, gen := 1, carrier := .sideband 3 })] },
  own := { Ownership.reset with owner := if own then some ⟨32, 2, 10, []⟩ else none } }

/-- The package as a request's action finds it. -/
def counted (s : State) : State := s.addObj 0xB200 1 64 1

/-- The conditions of Served, evaluated: the queue is empty, and the sender has no stored responses. -/
def servedB (s : State) (r : NapReq) : Bool :=
  s.power.phase = .run && s.nap.queue = [] && (match r.carrier with | .pf1 _ => false | _ => true) &&
  (match s.sessionOf r with
   | some k => !(s.slot k).authed && (s.slot k).stored = []
   | none => s.nap.pos0 = []) && (counted s).gate r = none

theorem served_of {s : State} {r : NapReq} (h : servedB s r = true) : Served s r (counted s) := by
  unfold servedB at h
  simp only [Bool.and_eq_true, decide_eq_true_eq] at h
  obtain ⟨⟨⟨⟨hp, hq⟩, hc⟩, hs⟩, hg⟩ := h
  refine ⟨s, ⟨hp, Or.inr ⟨hq, ?_⟩, ?_⟩, ⟨?_, ?_⟩, rfl, hg⟩
  · unfold State.arrive; revert hc; cases r.carrier <;> simp
  · intro k hk; rw [hk] at hc; simp at hc
  · intro k hk
    rw [hk] at hs; simp only [Bool.and_eq_true, decide_eq_true_eq, Bool.not_eq_true'] at hs
    refine ⟨by simp [badTag, hs.1], ?_⟩
    rw [hs.2]; exact ⟨by simp, by simp⟩
  · intro hn _ _ q _
    rw [hn] at hs; simp only [decide_eq_true_eq] at hs
    rw [hs]; simp [mget]

/-- The state in which the action of a command write begins. -/
def begun (s : State) (r : NapReq) : State :=
  match objRow r.index r.sub with
  | some o => if o.ty = .blob then ((counted s).takeSegment r blobLimit).1 else counted s
  | none => counted s

def readyB (s : State) (r : NapReq) (index sub : Nat) : Bool :=
  r.opcode = 2 && r.index = index && r.sub = sub && servedB s r && (match (counted s).objGate r with
    | .ok o => objRow r.index r.sub = some o && (o.ty ≠ .blob || ((counted s).takeSegment r blobLimit).2 = .whole (valueOf s r))
    | .error _ => false)

theorem ready_of {s : State} {r : NapReq} {index sub : Nat} (h : readyB s r index sub = true) : Ready s r index sub (begun s r) := by
  unfold readyB at h
  simp only [Bool.and_eq_true, decide_eq_true_eq] at h
  obtain ⟨⟨⟨⟨h1, h2⟩, h3⟩, h4⟩, h5⟩ := h
  cases hg : (counted s).objGate r with
  | error e => rw [hg] at h5; cases h5
  | ok o =>
    rw [hg] at h5
    simp only [Bool.and_eq_true, Bool.or_eq_true, decide_eq_true_eq] at h5
    refine ⟨h1, h2, h3, counted s, o, served_of h4, hg, ?_⟩
    by_cases hb : o.ty = .blob
    · right
      rcases h5.2 with h | h
      · exact absurd hb (by simpa using h)
      · exact ⟨hb, Prod.ext (by simp [begun, h5.1, hb]) h⟩
    · left; exact ⟨hb, by simp [begun, h5.1, hb]⟩

theorem owner_of {s : State} {r : NapReq} {index sub : Nat} (h : (readyB s r index sub && (begun s r).isOwner r) = true) :
    OwnerWrites s r index sub (begun s r) := by
  rw [Bool.and_eq_true] at h; exact ⟨ready_of h.1, h.2⟩

theorem above_of {s : State} {r : NapReq} {sub : Nat}
    (h : (readyB s r 0x4040 sub && fromAbove (begun s r) r && !(begun s r).job.left && decide ((begun s r).obj 0x4035 3 ≤ r.epoch)) = true) : FromAbove s r sub (begun s r) := by
  simp only [Bool.and_eq_true, Bool.not_eq_true', decide_eq_true_eq] at h; exact ⟨ready_of h.1.1.1, h.1.1.2, h.1.2, h.2⟩

theorem below_of {s : State} {r : NapReq} {sub : Nat}
    (h : (readyB s r 0x4040 sub && fromBelow (begun s r) r && !(begun s r).job.left && decide ((begun s r).obj 0x4035 3 ≤ r.epoch)) = true) : FromBelow s r sub (begun s r) := by
  simp only [Bool.and_eq_true, Bool.not_eq_true', decide_eq_true_eq] at h; exact ⟨ready_of h.1.1.1, h.1.1.2, h.1.2, h.2⟩

theorem gated_of {s : State} {r : NapReq} {o : ObjRow} (h : servedB s r = true) (g : (match (counted s).objGate r with
    | .ok p => p = o | _ => false) = true) : Gated s r o (counted s) := by
  refine ⟨served_of h, ?_⟩
  revert g
  cases (counted s).objGate r <;> simp

/-! The cascade. -/

/-- A job in step 5, attempt 2, with step 4 committed. -/
def jobOf (st : Nat) : Job := { Job.reset with st := st, step := 5, attempt := 2, committed := 4 }

/-- Position 0 of a group 0, 1 with deputy 1: its root, a child master under 9, or a member of master 1. -/
inductive Role where
  | root
  | child
  | member

def sTree (role : Role) (st : Nat) : State := { State.reset with
  job := jobOf st,
  dict := match role with
    | .root => [(objKey 0x4030 4, 1), (objKey 0x4030 5, 0xFFFF)]
    | .child => [(objKey 0x4030 4, 1), (objKey 0x4030 5, 9)]
    | .member => [(objKey 0x4030 3, 1), (objKey 0x4030 5, 0xFFFF)],
  blobs := [(objKey 0x4030 6, wordsLE [1 * 2 ^ 16])] }

theorem tree_roles : (sTree .root 1).isRoot = true ∧ (sTree .child 1).isMaster = true ∧ (sTree .child 1).isRoot = false ∧
    (sTree .member 1).isMaster = false ∧ (sTree .root 1).groupMembers = [0, 1] ∧ (sTree .root 1).reporters = [0, 1] := by decide +kernel

theorem wit_VoteReports_send : (sTree .member 1).job.st = 1 ∧ (sTree .member 1).job.left = false ∧ (sTree .member 1).job.voted = false ∧
    (sTree .member 1).job.verdict = none ∧ (sTree .member 1).stepApplied = true := by decide +kernel

/-- The vote of position 1 for step 5, with nothing held, and with that of position 0. -/
def sVotes (role : Role) (l : List Vote) : State := { sTree role 1 with cas := { Cascade.reset with votes := l } }

theorem wit_VoteReports : ∀ role ∈ [Role.root, .child], ∀ l ∈ [[], [(⟨5, 0, false, []⟩ : Vote)]],
    FromBelow (sVotes role l) (cmd 1 1 (voteValue 5 1 true false [7])) 1 (begun (sVotes role l) (cmd 1 1 (voteValue 5 1 true false [7]))) := by
  intro role hr l hl
  simp only [List.mem_cons, List.not_mem_nil, or_false] at hr hl
  rcases hr with rfl | rfl <;> rcases hl with rfl | rfl <;> exact below_of (by decide +kernel)

theorem wit_VoteReports_held : voteOk (voteValue 5 1 true false [7]) = true ∧
    (∀ p ∈ (sVotes .root []).reporters, p = 0 ∨ p = 1) ∧ (∃ p ∈ (sVotes .root []).reporters, p ≠ 1) ∧ (sVotes .root []).cas.decided < 5 ∧
    NoneHeld (sVotes .root []) := by
  refine ⟨by decide, by decide +kernel, ⟨0, by decide +kernel, by decide⟩, by decide, ?_⟩
  intro a h; cases h

/-- SKIP with the halt flag and APPLY of step 5, at a member and at a child master; one of another step. -/
theorem wit_Verdicts : ∀ role ∈ [Role.member, .child], ∀ v ∈ [verdictValue 5 true true, verdictValue 5 false false, verdictValue 4 true false],
    FromAbove (sTree role 1) (cmd (if role matches .child then 9 else 1) 2 v) 2 (begun (sTree role 1) (cmd (if role matches .child then 9 else 1) 2 v)) := by
  intro role hr v hv
  simp only [List.mem_cons, List.not_mem_nil, or_false] at hr hv
  rcases hr with rfl | rfl <;> rcases hv with rfl | rfl | rfl <;> exact above_of (by decide +kernel)

theorem wit_Verdicts_step : stepOf (verdictValue 5 true true) = (sTree .member 1).job.step ∧ wb (verdictValue 5 true true) 2 0 1 = 1 ∧
    wb (verdictValue 5 false false) 2 0 1 = 0 ∧ stepOf (verdictValue 4 true false) ≠ (sTree .member 1).job.step := by decide

/-- A decided step with a core in STEPEND, without and with the halt flag. -/
def sStep (halt : Bool) : State := { coreOf kEnd with
  job := { jobOf 1 with verdict := some false, haltAfter := halt }, dict := (List.range 128).map (fun c => (objKey 0x8012 c, 0)) }

theorem wit_StepBoundaries : (sStep true).stepApplied = true ∧ (sStep false).dueCores = [] ∧ (sStep false).trib.layout = false ∧
    (sStep false).weir.st ≠ .pending ∧ (sStep false).layoutPending = false ∧ ((sStep false).core 0).waiting = .stepend 2 ∧
    (sStep false).weir.replays = [] ∧ (sStep false).load = [] ∧ (sStep false).ckpt.due = none ∧ (sStep false).cas.ending = none ∧
    ((sStep false).cores.map Prod.fst).Nodup ∧ GoesOn (sStep false) 0 := by
  unfold GoesOn; decide +kernel

/-- COMMIT_READY of step 5 from position 1, with nothing held and with that of position 0; STEP_COMMIT of step 5 and of step 4. -/
def sReady (role : Role) (l : List (Nat × Nat)) : State := { sTree role 1 with cas := { Cascade.reset with readies := l } }

theorem wit_StepCommits_ready : ∀ role ∈ [Role.root, .child], ∀ l ∈ [[], [(5, 0)]],
    FromBelow (sReady role l) (cmd 1 9 (commitReadyValue 5 1 false)) 9 (begun (sReady role l) (cmd 1 9 (commitReadyValue 5 1 false))) := by
  intro role hr l hl
  simp only [List.mem_cons, List.not_mem_nil, or_false] at hr hl
  rcases hr with rfl | rfl <;> rcases hl with rfl | rfl <;> exact below_of (by decide +kernel)

theorem wit_StepCommits : ∀ n ∈ [4, 5], FromAbove (sTree .member 1) (cmd 1 0x0A (stepCommitValue n false)) 0x0A
    (begun (sTree .member 1) (cmd 1 0x0A (stepCommitValue n false))) := by
  intro n h
  simp only [List.mem_cons, List.not_mem_nil, or_false] at h
  rcases h with rfl | rfl <;> exact above_of (by decide +kernel)

/-- PERMUTE_DONE of attempt 2 from position 1, and of another attempt; LAYOUT_COMMIT in the layout phase, and at a spare. -/
def sPerm (role : Role) (l : List Nat) : State := { sTree role 1 with cas := { Cascade.reset with permDone := l } }

theorem wit_LayoutChanges_done : ∀ role ∈ [Role.root, .child], ∀ p ∈ [([], 2), ([0], 2), ([], 3)],
    FromBelow (sPerm role p.1) (cmd 1 3 (permuteDoneValue 0 p.2 1 false)) 3 (begun (sPerm role p.1) (cmd 1 3 (permuteDoneValue 0 p.2 1 false))) := by
  intro role hr p hp
  simp only [List.mem_cons, List.not_mem_nil, or_false] at hr hp
  rcases hr with rfl | rfl <;> rcases hp with rfl | rfl | rfl <;> exact below_of (by decide +kernel)

def sLayout : State := { sTree .member 1 with trib := { Trib.reset with layout := true } }
def sSpare : State := { sTree .member 1 with dict := [(objKey 0x4030 3, 1), (objKey 0x4030 5, 0xFFFF), (objKey 0x4030 9, 1)] }

theorem wit_LayoutChanges_commit : FromAbove sLayout (cmd 1 4 (wordsLE [0])) 4 (begun sLayout (cmd 1 4 (wordsLE [0]))) ∧
    FromAbove sSpare (cmd 1 4 (wordsLE [0])) 4 (begun sSpare (cmd 1 4 (wordsLE [0]))) ∧ sLayout.isSpare = false ∧ sSpare.isSpare = true :=
  ⟨above_of (by decide +kernel), above_of (by decide +kernel), by decide +kernel⟩

/-- A live member; a child group of the root; the deputy of a master. -/
def sKids (lost : List Nat) : State := { sTree .root 1 with
  blobs := [(objKey 0x4030 6, wordsLE [1 * 2 ^ 16]), (objKey 0x4030 7, leBytes 2 9)], cas := { Cascade.reset with lost := lost } }
def sDeputy : State := { sTree .member 1 with dict := [(objKey 0x4030 3, 1), (objKey 0x4030 5, 0xFFFF)] }

theorem wit_Masters : 1 ∈ (sKids []).liveMembers ∧ 9 ∉ (sKids []).liveMembers ∧ 9 ∈ (sKids []).childMasters ∧ 9 ∈ positionsOf ((sKids []).blob 0x4030 7) ∧
    9 ∈ (sKids [9]).cas.lost ∧ (sKids []).isMaster = true ∧ (sTree .member 1).isRoot = false ∧ (sTree .member 1).obj 0x4030 4 = (sTree .member 1).position ∧
    (sTree .member 1).isSpare = false := by decide +kernel

theorem wit_Masters_heartbeat : Cascades (sTree .child 1) (cmd 9 5 (leBytes 4 (2 ^ 31))) 5 fromTree (begun (sTree .child 1) (cmd 9 5 (leBytes 4 (2 ^ 31)))) :=
  ⟨ready_of (by decide +kernel), by decide +kernel, by decide +kernel, by decide +kernel⟩

/-- TAKEOVER_MASTER of epoch 1 from the deputy of the group, and from a position outside it; one whose value names an older epoch;
and one that is itself of an older epoch. -/
def sEpoch (role : Role) (e : Nat) : State := (sTree role 1).setObj 0x4035 3 e

def takeoverFrom (p e : Nat) : NapReq := { cmd p 7 (leBytes 4 1) with epoch := e }

theorem wit_Masters_takeover : ∀ x ∈ [(Role.root, 1, 1, 1), (Role.root, 1, 2, 2), (Role.root, 9, 1, 1), (Role.child, 12, 1, 1)],
    Cascades (sEpoch x.1 x.2.2.1) (takeoverFrom x.2.1 x.2.2.2) 7 fromDeputy (begun (sEpoch x.1 x.2.2.1) (takeoverFrom x.2.1 x.2.2.2)) := by
  intro x h
  simp only [List.mem_cons, List.not_mem_nil, or_false] at h
  rcases h with rfl | rfl | rfl | rfl <;> exact ⟨ready_of (by decide +kernel), by decide +kernel, by decide +kernel, by decide +kernel⟩

theorem wit_Masters_stale : (Instr.takeoverMaster, 7, fromDeputy) ∈ cascadeCommands ∧
    Ready (sEpoch .root 2) (takeoverFrom 1 1) 0x4040 7 (begun (sEpoch .root 2) (takeoverFrom 1 1)) ∧
    fromDeputy (begun (sEpoch .root 2) (takeoverFrom 1 1)) (takeoverFrom 1 1) = true ∧
    (takeoverFrom 1 1).epoch < (begun (sEpoch .root 2) (takeoverFrom 1 1)).obj 0x4035 3 :=
  ⟨by simp [cascadeCommands], ready_of (by decide +kernel), by decide +kernel, by decide +kernel⟩

/-- The last segment of a TAKEOVER at a spare, behind the 4,096 bytes that came before. -/
def sTakeover : State := { sSpare with nap := { Nap.reset with assemblies := [(objKey 0x4040 6, .sideband 1, List.replicate 4096 0)] } }
def takeoverReq : NapReq := { cmd 1 6 (List.replicate 28 0) with offset := 4096, total := 4124 }

theorem whole_of (w : State) (r : NapReq) (limit : Nat) (b : List Byte) (ho : r.offset ≠ 0)
    (ha : w.assembly (objKey r.index r.sub) = some (r.who, b)) (hb : b.length = r.offset) (hl : r.last = true)
    (ht : (b ++ r.value).length = r.total) (hm : r.total ≤ limit) :
    w.takeSegment r limit = (w.dropAssembly (objKey r.index r.sub), .whole (b ++ r.value)) := by
  have hm' : r.offset + r.value.length ≤ limit := by rw [← hb, ← List.length_append, ht]; exact hm
  simp [State.takeSegment, State.assembled, ho, ha, hb, hl, ← ht, hm']

theorem ready_last {s : State} {r : NapReq} (h : servedB s r = true) (ho : r.opcode = 2)
    (g : (match (counted s).objGate r with | .ok o => o.ty = .blob | _ => false) = true)
    (e : (counted s).takeSegment r blobLimit = ((counted s).dropAssembly (objKey r.index r.sub), .whole (valueOf s r))) :
    Ready s r r.index r.sub ((counted s).dropAssembly (objKey r.index r.sub)) := by
  cases hg : (counted s).objGate r with
  | error e => rw [hg] at g; cases g
  | ok o => exact ⟨ho, rfl, rfl, counted s, o, served_of h, hg, Or.inr ⟨by rw [hg] at g; simpa using g, e⟩⟩

theorem wit_Masters_spare : FromAbove sTakeover takeoverReq 6 ((counted sTakeover).dropAssembly (objKey 0x4040 6)) ∧ sTakeover.isSpare = true ∧
    (valueOf sTakeover takeoverReq).length = 4124 := by
  have hv : valueOf sTakeover takeoverReq = List.replicate 4096 0 ++ takeoverReq.value := rfl
  have hl : (List.replicate 4096 (0 : Byte) ++ List.replicate 28 0).length = 4124 := by
    rw [List.length_append, List.length_replicate, List.length_replicate]
  refine ⟨⟨ready_last (by decide +kernel) rfl (by decide +kernel) ?_, by decide +kernel, by decide +kernel, by decide +kernel⟩, by decide +kernel, ?_⟩
  · rw [hv]
    exact whole_of _ _ _ _ (by decide) rfl List.length_replicate rfl hl (by decide)
  · rw [hv]; exact hl

/-! Recovery. -/

/-- A fault report of attempt 2 with and without a lost position, and a stale one. -/
theorem wit_FaultReports : ∀ x ∈ [(Role.child, 2, 0xFFFF), (.root, 2, 0xFFFF), (.root, 2, 5), (.root, 3, 0xFFFF)],
    FromBelow (sTree x.1 1) (cmd 1 8 (faultReportValue x.2.1 1 0x10B x.2.2)) 8 (begun (sTree x.1 1) (cmd 1 8 (faultReportValue x.2.1 1 0x10B x.2.2))) ∧
    wb (valueOf (sTree x.1 1) (cmd 1 8 (faultReportValue x.2.1 1 0x10B x.2.2))) 0 0 4 = x.2.1 ∧
    atLeast 8 (valueOf (sTree x.1 1) (cmd 1 8 (faultReportValue x.2.1 1 0x10B x.2.2))) = true ∧
    wb (valueOf (sTree x.1 1) (cmd 1 8 (faultReportValue x.2.1 1 0x10B x.2.2))) 1 16 16 = x.2.2 := by
  intro x h
  simp only [List.mem_cons, List.not_mem_nil, or_false] at h
  rcases h with rfl | rfl | rfl | rfl <;> exact ⟨below_of (by decide +kernel), by decide +kernel⟩

theorem wit_FaultReports_root : (begun (sTree .root 1) (cmd 1 8 (faultReportValue 2 1 0x10B 5))).cas.rolling = none ∧
    (begun (sTree .root 1) (cmd 1 8 (faultReportValue 2 1 0x10B 5))).rollable = true ∧
    (begun (sTree .root 1) (cmd 1 8 (faultReportValue 2 1 0x10B 5))).trib.layout = false ∧ 5 ∉ (sTree .root 1).childMasters ∧
    0xFFFF ∉ (sTree .root 1).childMasters ∧ (sTree .root 1).rootAttempt ≠ 3 ∧ (sTree .root 1).job.attempt % 16 = 2 := by decide +kernel

/-- A running package without pending microcode restarts. -/
def sRoll (role : Role) : State := { sTree role 1 with dict := (sTree role 1).dict ++ (List.range 128).map (fun c => (objKey 0x8012 c, 0)) }

theorem wit_Rollbacks : ∀ x ∈ [(sRoll .member, 1, []), (sRoll .child, 9, []), (sRoll .child, 9, [5, 6]), (sSpare, 1, [5])],
    FromAbove x.1 (cmd x.2.1 0x0B (rollbackValue 4 3 x.2.2)) 0x0B (begun x.1 (cmd x.2.1 0x0B (rollbackValue 4 3 x.2.2))) ∧
    rollbackOk (valueOf x.1 (cmd x.2.1 0x0B (rollbackValue 4 3 x.2.2))) = true ∧
    rollbackLost (valueOf x.1 (cmd x.2.1 0x0B (rollbackValue 4 3 x.2.2))) = x.2.2 := by
  intro x h
  simp only [List.mem_cons, List.not_mem_nil, or_false] at h
  rcases h with rfl | rfl | rfl | rfl <;> exact ⟨above_of (by decide +kernel), by decide +kernel⟩

theorem wit_Rollbacks_running : (sRoll .member).isSpare = false ∧ sSpare.isSpare = true ∧ (sRoll .member).job.st = 1 ∧ (sRoll .member).dueCores = [] ∧
    (sRoll .child).dueCores = [] ∧ (sRoll .member).buddy.copies = [] ∧ (sRoll .child).cas.lost = [] ∧ (sRoll .child).isSpare = false := by decide +kernel

/-- A root in a rollback to step 4 and attempt 3, with RESTART_READYs; packages that RESTART reaches. -/
def sRolling (l : List (Nat × Nat)) : State := { sTree .root 1 with cas := { Cascade.reset with rolling := some ⟨4, 3, []⟩, restarts := l } }

theorem wit_Restarts_ready : ∀ l ∈ [[], [(0, 4)]],
    FromBelow (sRolling l) (cmd 1 0x0C (restartReadyValue 3 1 4 false)) 0x0C (begun (sRolling l) (cmd 1 0x0C (restartReadyValue 3 1 4 false))) ∧
    (begun (sRolling l) (cmd 1 0x0C (restartReadyValue 3 1 4 false))).reporters = [0, 1] ∧ (sRolling l).isRoot = true ∧
    wb (valueOf (sRolling l) (cmd 1 0x0C (restartReadyValue 3 1 4 false))) 0 0 4 = 3 ∧
    wb (valueOf (sRolling l) (cmd 1 0x0C (restartReadyValue 3 1 4 false))) 0 16 12 = 1 ∧
    atLeast 12 (valueOf (sRolling l) (cmd 1 0x0C (restartReadyValue 3 1 4 false))) = true := by
  intro l h
  simp only [List.mem_cons, List.not_mem_nil, or_false] at h
  rcases h with rfl | rfl <;> exact ⟨below_of (by decide +kernel), by decide +kernel⟩

theorem wit_Restarts : ∀ st ∈ [0, 2, 3], FromAbove (sTree .member st) (cmd 1 0x0D (restartValue 5 2)) 0x0D (begun (sTree .member st) (cmd 1 0x0D (restartValue 5 2))) ∧
    (sTree .member st).isSpare = false ∧ (sTree .member st).job.st = st ∧ (sTree .member st).ckpt.held = false ∧ (sTree .member st).layoutPending = false ∧
    (sTree .member st).ckpt.noticed = none ∧ atLeast 12 (restartValue 5 2) = true ∧ wb (restartValue 5 2) 2 0 4 = (sTree .member st).job.attempt % 16 := by
  intro st h
  simp only [List.mem_cons, List.not_mem_nil, or_false] at h
  rcases h with rfl | rfl | rfl <;> exact ⟨above_of (by decide +kernel), by decide +kernel⟩

/-- JOB_START and JOB_END by the owner, at a root whose job stands in each state and at a member; JOB_START with a value that is not 1. -/
theorem wit_Restarts_owner : ∀ x ∈ [(sTree .root 0, 1, 1), (sTree .root 2, 1, 1), (sTree .root 1, 1, 1), (sTree .root 3, 1, 1), (sTree .member 0, 1, 1),
    (sTree .root 0, 1, 2), (sTree .root 2, 2, 1), (sTree .root 1, 2, 1), (sTree .root 3, 2, 1)],
    OwnerWrites (withSession true x.1) (wr 0x4002 x.2.1 [BitVec.ofNat 8 x.2.2]) 0x4002 x.2.1
      (begun (withSession true x.1) (wr 0x4002 x.2.1 [BitVec.ofNat 8 x.2.2])) ∧ leNat (wr 0x4002 x.2.1 [BitVec.ofNat 8 x.2.2]).value = x.2.2 ∧
    x.1.commitWaits = false := by
  intro x h
  simp only [List.mem_cons, List.not_mem_nil, or_false] at h
  rcases h with rfl | rfl | rfl | rfl | rfl | rfl | rfl | rfl | rfl <;> exact ⟨owner_of (by decide +kernel), by decide +kernel⟩

/-! Buddy replication. -/

/-- A page record that checks. -/
def pageOf (step : Nat) (last : Bool) (body : List Byte) : PageRecord :=
  let p : PageRecord := ⟨step, 0x10000, false, 0, 0, if last then [] else body, last, if last then body else []⟩
  { p with crc := BitVec.ofNat 32 (crc32 (leBytes 8 p.step ++ leBytes 8 p.address ++ leBytes 1 (pageKind p) ++ [0] ++ leBytes 2 p.tileCount ++
    leBytes 4 (pageBody p).length ++ leBytes 4 0 ++ pageBody p)) }

/-- A drain of a page, of an image's end, and a takeover transfer; a spare that a transfer reaches. -/
def drainPage (poison : List Nat) : Page := ⟨⟨8, 0, 16⟩, 0, 0, 0, 0, 0, 4, poison, false, none, false, none, 0, [], [], false, none⟩
def sDraining (keys poison : List Nat) : State := { sTree .member 1 with
  mem := { Tiered.reset with pages := [(0x20000, some (drainPage poison))] }, buddy := { Buddy.reset with queue := [(4, keys, [])] } }
def pageHeld : BuddyPage := ⟨0x10000, false, 0, [7], ⟨16, 0, 1⟩⟩
def sTransfer (l : List (Nat × List BuddyPage)) : State := { sTree .member 1 with
  buddy := { Buddy.reset with transfer := some ⟨5, 4, l, []⟩ } }
def sArriving (asked : List (Nat × Nat)) (ending : Option (Nat × List Byte)) : State := { sSpare with
  buddy := { Buddy.reset with arriving := some [], asked := asked, ending := ending } }

theorem wit_BuddyReplication_send : (sDraining [0x20000] []).power.phase = .run ∧ (sDraining [0x20000] []).job.left = false ∧
    (sDraining [0x20000] []).buddy.transfer = none ∧ (sDraining [0x20000] []).job.st ≠ 3 ∧ (sDraining [0x20000] []).buddy.queue = [(4, [0x20000], [])] ∧
    (sDraining [0x20000] []).page 0x20000 = some (drainPage []) ∧ (sDraining [] []).buddy.queue = [(4, [], [])] ∧ (sTree .member 1).buddy.queue = [] ∧
    (sTransfer []).power.phase = .run ∧ (sTransfer []).job.left = false ∧ (sTree .member 1).buddy.arriving = none := by decide +kernel

/-- The page has no lost line, or one. -/
theorem wit_BuddyReplication_judged : (sDraining [] []).judgePage 4 0x20000 = (false, sDraining [] []) ∧
    ((sDraining [] [0]).judgePage 4 0x20000).1 = true := ⟨Prod.ext (by decide +kernel) rfl, by decide +kernel⟩

/-- A holder with no copy, with a record asked for again, with a record that waits, with an image that cannot count, with no frame. -/
def sHolds (asked : List (Nat × Nat)) (ending : Option (List Byte)) (broken : Bool) (held : List (Nat × PageRecord)) : State := { sTree .member 1 with
  buddy := { Buddy.reset with copies := [⟨3, [], none, broken, asked, ending⟩], held := held } }

theorem wit_BuddyReplication_pages : pageGood (pageOf 6 false [1, 2]) = true ∧ pageGood (pageOf 6 true []) = true ∧ pageGood (pageOf 6 true [3]) = true ∧
    pageGood { pageOf 6 false [1, 2] with crc := 0 } = false ∧ (pageOf 6 false [1, 2]).lastPage = false ∧ (pageOf 6 true [3]).lastPage = true ∧
    ((sTree .member 1).copyOf 3).broken = false ∧ pageAsk (pageOf 6 false [1, 2]) = (0x10000, 0) := by decide +kernel

theorem wit_BuddyReplication_holds : (sTree .member 1).retryHeld = sTree .member 1 ∧ (sHolds [(0x10000, 0)] (some []) true []).retryHeld = sHolds [(0x10000, 0)] (some []) true [] ∧
    ((sHolds [(0x10000, 0)] (some []) true []).copyOf 3).asked = [(0x10000, 0)] ∧ ((sHolds [(0x10000, 0)] (some []) true []).copyOf 3).ending = some [] ∧
    ((sHolds [(0x10000, 0)] (some []) true []).copyOf 3).broken = true := ⟨rfl, rfl, rfl, rfl, rfl⟩

/-- A record that waits behind another; a free frame, and none. -/
def sWaits : State := sHolds [] none false [(3, pageOf 6 false [1, 2])]
def sBackwater (k : List (Nat × Nat)) (e : Option (List Byte)) : State := { sHolds k e false [] with
  dict := [(objKey 0x4030 3, 1), (objKey 0x4030 5, 0xFFFF), (objKey 0x6001 2, 1), (objKey 0x6001 3, 1), (objKey 0x6001 4, 1)] }

theorem wit_BuddyReplication_frames : (sWaits.retryHeld.buddy.held.any (fun x => x.1 = 3)) = true ∧
    (sTree .member 1).allocIn tierBw (sectorsOf 2) 0 = none ∧ ((sBackwater [] none).retryHeld.allocIn tierBw (sectorsOf 2) 0).isSome = true ∧
    (sBackwater [] (some [])).retryHeld = sBackwater [] (some []) ∧ ((sBackwater [(0x20000, 0)] none).copyOf 3).asked ≠ [] :=
  ⟨by decide +kernel, by decide +kernel, by decide +kernel, rfl, by decide +kernel⟩

theorem wit_BuddyReplication_arrives : ∀ x ∈ [([], none), ([(0x10000, 0)], some (6, [])), ([(0x20000, 0)], none)],
    (sArriving x.1 x.2).buddy.arriving = some [] ∧ (sArriving x.1 x.2).buddy.asked = x.1 ∧ (sArriving x.1 x.2).buddy.ending = x.2 := by
  decide +kernel

/-- A package that a cut holds, rolled back and halted; a halted root that counts its RESTART_READYs. -/
def sCutHeld (role : Role) (st : Nat) : State := { sTree role st with ckpt := { Ckpt.reset with held := true } }

theorem wit_Restarts_held : ∀ x ∈ [(3, 5), (2, 5), (2, 6)], FromAbove (sCutHeld .member x.1) (cmd 1 0x0D (restartValue x.2 2)) 0x0D
      (begun (sCutHeld .member x.1) (cmd 1 0x0D (restartValue x.2 2))) ∧ (sCutHeld .member x.1).ckpt.held = true ∧ (sCutHeld .member x.1).job.step = 5 ∧
      (sCutHeld .member x.1).layoutPending = false ∧ (sCutHeld .member x.1).ckpt.noticed = none := by
  intro x h
  simp only [List.mem_cons, List.not_mem_nil, or_false] at h
  rcases h with rfl | rfl | rfl <;> exact ⟨above_of (by decide +kernel), by decide +kernel⟩

/-- A frame of Backwater memory is there. -/
def withBack (s : State) : State := { s with dict := [(objKey 0x6001 2, 1), (objKey 0x6001 3, 1), (objKey 0x6001 4, 1)] ++ s.dict }

theorem alloc_of {s : State} {tier n : Nat} (h : (s.allocIn tier n 0).isSome = true) : ∃ f w, s.allocIn tier n 0 = some (f, w) := by
  cases hx : s.allocIn tier n 0 with
  | none => rw [hx] at h; cases h
  | some x => exact ⟨x.1, x.2, rfl⟩

/-- A member with a holder, without a complete image and with the image of step 2. -/
def sLag (lag : Nat) : State := { sTree .member 1 with
  dict := [(objKey 0x4030 3, 1), (objKey 0x4030 5, 0xFFFF), (objKey 0x4030 0x0A, 1), (objKey 0x8006 4, lag), (objKey 0x8006 3, 2)] }

theorem wit_BuddyReplication_ack : ∀ x ∈ [(0xFFFFFFFF, 4), (2, 4), (2, 2), (2, 5), (2, imageLost)],
    Cascades (sLag x.1) (cmd 1 0x13 (leBytes 8 x.2)) 0x13 fromHolder (begun (sLag x.1) (cmd 1 0x13 (leBytes 8 x.2))) ∧
    (sLag x.1).applied = 4 ∧ (sLag x.1).buddy.queue = [] ∧
    (sLag 0xFFFFFFFF).hasImage = false ∧ (sLag 2).hasImage = true ∧ (sLag 2).obj 0x8006 3 = 2 := by
  intro x h
  simp only [List.mem_cons, List.not_mem_nil, or_false] at h
  rcases h with rfl | rfl | rfl | rfl | rfl <;> exact ⟨⟨ready_of (by decide +kernel), by decide +kernel, by decide +kernel, by decide +kernel⟩, by decide +kernel⟩

/-! Freshets. -/

/-- A package in a FRESHET_STATE, owned. -/
def sFreshet (role : Role) (st n : Nat) : State := withSession true ((sTree role st).setObj 0x8001 3 n)

theorem wit_Freshets_pin : ∀ role ∈ [Role.root, .member], ∀ n ∈ [0, 1, 3, 4], (sFreshet role 1 n).power.phase = .run ∧
    (sFreshet role 1 n).power.freshetArmed = true ∧ (sFreshet role 1 n).obj 0x8001 3 = n ∧ (sFreshet role 1 n).trib.layout = false := by decide +kernel

theorem wit_Freshets_owner : ∀ n ∈ [0, 4, 5], OwnerWrites (sFreshet .member 1 n) (wr 0x8001 1 [1]) 0x8001 1 (begun (sFreshet .member 1 n) (wr 0x8001 1 [1])) ∧
    FromBelow (sFreshet .child 1 n) (cmd 1 0x0E (wordsLE [0x10001])) 0x0E (begun (sFreshet .child 1 n) (cmd 1 0x0E (wordsLE [0x10001]))) ∧
    FromBelow (sFreshet .root 1 n) (cmd 1 0x0E (wordsLE [0x10001])) 0x0E (begun (sFreshet .root 1 n) (cmd 1 0x0E (wordsLE [0x10001]))) := by
  intro n h
  simp only [List.mem_cons, List.not_mem_nil, or_false] at h
  rcases h with rfl | rfl | rfl <;> exact ⟨owner_of (by decide +kernel), below_of (by decide +kernel), below_of (by decide +kernel)⟩

/-- CUT_AT of step 4, which the package has applied, with and without the halt flag, and of step 6. -/
theorem wit_Freshets_cut : ∀ v ∈ [cutAtValue 4 true 0, cutAtValue 4 false 1, cutAtValue 6 false 1],
    FromAbove (sTree .member 1) (cmd 1 0x0F v) 0x0F (begun (sTree .member 1) (cmd 1 0x0F v)) ∧ atLeast 12 v = true ∧
    (sTree .member 1).applied = 4 ∧ (sTree .member 1).ckpt.cut = none ∧ (sTree .member 1).isSpare = false := by
  intro v h
  simp only [List.mem_cons, List.not_mem_nil, or_false] at h
  rcases h with rfl | rfl | rfl <;> exact ⟨above_of (by decide +kernel), by decide +kernel⟩

/-- A shard without payload, and an open cut of step 4 to the host. -/
def hShard (written verified : List Nat) (fails : Nat) : Shard :=
  ⟨List.replicate 80 0 ++ sha3 [] ++ List.replicate 16 0, [], 0x800000, [], written, verified, if fails = 0 then [] else [(0, fails)]⟩
def cCut (h : Shard) : Cut := ⟨4, 0, 1, 0x1000, 0x1000000, 0, [h], true, [], false⟩
def sCut (role : Role) (h : Shard) : State := withSession true ({ sTree role 1 with ckpt := { Ckpt.reset with cut := some (cCut h) } }.setObj 0x8004 1 4)

theorem wit_Freshets_resume : OwnerWrites (withSession true (sTree .member 2)) (wr 0x8001 5 [1]) 0x8001 5 (begun (withSession true (sTree .member 2)) (wr 0x8001 5 [1])) ∧
    OwnerWrites (withSession true { sTree .root 2 with ckpt := { Ckpt.reset with held := true } }) (wr 0x8001 5 [1]) 0x8001 5
      (begun (withSession true { sTree .root 2 with ckpt := { Ckpt.reset with held := true } }) (wr 0x8001 5 [1])) ∧
    OwnerWrites (sCut .root (hShard [] [] 0)) (wr 0x8001 6 [1]) 0x8001 6 (begun (sCut .root (hShard [] [] 0)) (wr 0x8001 6 [1])) ∧
    OwnerWrites (withSession true (sTree .root 1)) (wr 0x8001 6 [1]) 0x8001 6 (begun (withSession true (sTree .root 1)) (wr 0x8001 6 [1])) :=
  ⟨owner_of (by decide +kernel), owner_of (by decide +kernel), owner_of (by decide +kernel), owner_of (by decide +kernel)⟩

/-! Checkpoints. -/

theorem wit_Checkpoints_shards : (sCut .member (hShard [] [] 0)).ckpt.cut = some (cCut (hShard [] [] 0)) ∧ (cCut (hShard [] [] 0)).done = false ∧
    (cCut (hShard [] [] 0)).shards[0]? = some (hShard [] [] 0) ∧ (cCut (hShard [] [] 0)).goes 0 = true ∧ 0 ∈ (hShard [0] [] 0).written ∧
    dmaBytes (.data (hShard [0] [] 0).bytes) = some (hShard [0] [] 0).bytes ∧ (hShard [0] [] 0).header.length = 128 ∧
    sha3 (hShard [0] [] 0).payload = ((hShard [0] [] 0).header.drop 80).take 32 ∧ dmaBytes (.failed 1) = none ∧
    mget 0 (hShard [0] [] 1).fails 0 + 1 < 3 ∧ 3 ≤ mget 0 (hShard [0] [] 2).fails 0 + 1 := by decide +kernel

/-- Nothing to judge; a lost line among the shard's source. -/
theorem wit_Checkpoints_judged : (sCut .member (hShard [] [] 0)).judgePieces 4 [] = (false, sCut .member (hShard [] [] 0)) ∧
    ((sDraining [] [0]).judgePieces 4 ((sDraining [] [0]).access 0x10000 64)).1 = true := ⟨rfl, by decide +kernel⟩

theorem wit_Freshets_due : CutDueNow (sTree .member 1) 4 ∧ ¬ CutDueNow (sTree .member 1) 6 ∧ CutDueNow (sTree .member 2) 4 := by
  unfold CutDueNow; decide +kernel

theorem wit_Checkpoints_manifest : ∀ x ∈ (cCut (hShard [] [0] 0)).shards, 0 ∈ x.verified ∧ (sCut .member (hShard [] [0] 0)).hasKey 1 = true ∧
    (cCut (hShard [] [0] 0)).sure = true ∧ 0 ∉ (cCut (hShard [] [0] 0)).manifests ∧
    dmaBytes (.data ((sCut .member (hShard [] [0] 0)).manifest (cCut (hShard [] [0] 0)))) = some ((sCut .member (hShard [] [0] 0)).manifest (cCut (hShard [] [0] 0))) ∧
    dmaBytes (.failed 1) ≠ some ((sCut .member (hShard [] [0] 0)).manifest (cCut (hShard [] [0] 0))) := by
  intro x h
  simp only [cCut, List.mem_singleton] at h
  subst h
  exact ⟨by decide, by decide +kernel, rfl, by decide, rfl, nofun⟩

/-- CKPT_DONE of position 1 with success and with a failure, at a child master and at a root with and without the result of position 0. -/
def sDone (role : Role) (l : List (Nat × Nat)) : State := { sCut role (hShard [] [] 0) with cas := { Cascade.reset with ckptDone := l } }

theorem wit_Checkpoints_done : ∀ x ∈ [(sDone .child [], 0), (sDone .root [], 0), (sDone .root [(0, 0)], 0), (sDone .root [(0, 0)], 7)],
    FromBelow x.1 (cmd 1 0x10 (wordsLE [4, 0, 1 + x.2 * 2 ^ 24])) 0x10 (begun x.1 (cmd 1 0x10 (wordsLE [4, 0, 1 + x.2 * 2 ^ 24]))) ∧
    atLeast 12 (wordsLE [4, 0, 1 + x.2 * 2 ^ 24]) = true ∧ stepOf (wordsLE [4, 0, 1 + x.2 * 2 ^ 24]) = x.1.obj 0x8004 1 ∧
    wb (wordsLE [4, 0, 1 + x.2 * 2 ^ 24]) 2 24 8 = x.2 ∧ x.1.jobPositions = 2 ∧ x.1.ckpt.cut ≠ none := by
  intro x h
  simp only [List.mem_cons, List.not_mem_nil, or_false] at h
  rcases h with rfl | rfl | rfl | rfl <;> exact ⟨below_of (by decide +kernel), by decide +kernel⟩

theorem wit_Checkpoints_outcome : FromAbove (sTree .member 1) (cmd 1 0x11 (stepFlagValue 4 1)) 0x11 (begun (sTree .member 1) (cmd 1 0x11 (stepFlagValue 4 1))) ∧
    FromAbove (sTree .member 1) (cmd 1 0x12 (stepFlagValue 4 0)) 0x12 (begun (sTree .member 1) (cmd 1 0x12 (stepFlagValue 4 0))) ∧
    atLeast 12 (stepFlagValue 4 1) = true ∧ (sTree .member 1).isSpare = false :=
  ⟨above_of (by decide +kernel), above_of (by decide +kernel), by decide +kernel⟩

/-- A shard kept for position 5 in slot 1, and CKPT_EXPORT of it with room and without; of a position for which nothing is kept. -/
def sKept : State := withSession true { sTree .member 1 with ckpt := { Ckpt.reset with kept := [⟨5, 1, 0, [1, 2, 3], ⟨16, 0, 1⟩⟩] } }
def exportValue (p room : Nat) : List Byte := leBytes 2 p ++ [1, 0] ++ leBytes 8 0x1000 ++ leBytes 8 room

theorem wit_Checkpoints_keep : (∃ f w, (withBack (sTree .member 1)).allocIn tierBw (sectorsOf 200) 0 = some (f, w)) ∧
    (sTree .member 1).allocIn tierBw (sectorsOf 200) 0 = none ∧ (sTree .member 1).ckpt.kept = [] :=
  ⟨alloc_of (by decide +kernel), Option.isNone_iff_eq_none.mp (by decide +kernel), rfl⟩

theorem wit_Checkpoints_export : ∀ v ∈ [exportValue 5 0x1000000, exportValue 5 2, exportValue 6 0x1000000, [1]],
    OwnerWrites sKept (wr 0x8007 3 v) 0x8007 3 (begun sKept (wr 0x8007 3 v)) := by
  intro v h
  simp only [List.mem_cons, List.not_mem_nil, or_false] at h
  rcases h with rfl | rfl | rfl | rfl <;> exact owner_of (by decide +kernel)

theorem wit_Checkpoints_slot : slotParts (sKept.ckpt.kept.filter (fun k => k.position = fld (exportValue 5 0x1000000) 0 2 && k.slot = fld (exportValue 5 0x1000000) 2 1)) = [(0, [1, 2, 3])] ∧
    fld (exportValue 5 0x1000000) 12 8 = 0x1000000 ∧ fld (exportValue 5 2) 12 8 = 2 := by decide +kernel

/-! Load sets and restores. -/

/-- An owned package whose window has 4,096 bytes. -/
def sLoad (st : Nat) (l : List Byte) : State := withSession true { sTree .member st with pf0 := [(0x10, 4096)], load := l }

theorem wit_LoadsAndRestores_load : ∀ st ∈ [0, 1, 3], OwnerWrites (sLoad st []) (wr 0x4010 1 (leBytes 4 0)) 0x4010 1 (begun (sLoad st []) (wr 0x4010 1 (leBytes 4 0))) ∧
    (begun (sLoad st []) (wr 0x4010 1 (leBytes 4 0))).load = [] ∧
    (begun (sLoad st []) (wr 0x4010 1 (leBytes 4 0))).loadFail (List.replicate 16 0) = none ∧
    (begun (sLoad st []) (wr 0x4010 1 (leBytes 4 0))).loadFail [] ≠ none ∧ (sLoad st []).pf0Reg 0x10 = 4096 ∧
    OwnerWrites (sLoad st [1]) (wr 0x4010 1 (leBytes 4 0)) 0x4010 1 (begun (sLoad st [1]) (wr 0x4010 1 (leBytes 4 0))) := by
  intro st h
  simp only [List.mem_cons, List.not_mem_nil, or_false] at h
  rcases h with rfl | rfl | rfl <;>
    exact ⟨owner_of (by decide +kernel), by decide +kernel, by decide +kernel, by decide +kernel, by decide +kernel, owner_of (by decide +kernel)⟩

theorem wit_LoadsAndRestores_restore : ∀ st ∈ [0, 1, 2, 3], OwnerWrites (sLoad st []) (wr 0x8007 1 (leBytes 4 0)) 0x8007 1 (begun (sLoad st []) (wr 0x8007 1 (leBytes 4 0))) ∧
    (begun (sLoad st []) (wr 0x8007 1 (leBytes 4 0))).restore = none ∧ (List.replicate 16 (0 : Byte)).length = 16 + 24 * wd (List.replicate 16 0) 0 := by
  intro st h
  simp only [List.mem_cons, List.not_mem_nil, or_false] at h
  rcases h with rfl | rfl | rfl | rfl <;> exact ⟨owner_of (by decide +kernel), by decide +kernel⟩

/-- A restore of one entry. -/
def rOne (chosen : Option Nat) : Restore := ⟨[(0, 0, 0)], 0, [], [], chosen, chosen.isSome⟩
def sRestore (chosen : Option Nat) : State := { sTree .member 0 with restore := some (rOne chosen) }

theorem wit_LoadsAndRestores_none : (rOne none).images = [] ∧ (rOne none).reported = false ∧
    ({ rOne none with images := [⟨0, 0, .data []⟩] } : Restore).choose ((sRestore none).oldManifests { rOne none with images := [⟨0, 0, .data []⟩] }) = none := by
  decide +kernel

/-- A manifest of step 4 under the key with ID zero; it counts where its signature verifies. -/
def oldImage : List Byte := wordsLE [0x4E394D46, 1, 4, 0, 0, 1 * 2 ^ 16, 0, 0] ++ List.replicate 32 0 ++ wordsLE [128, 0]
def sOld : State := { sTree .member 0 with blobs := [(objKey 0x9040 0, List.replicate 32 0)], sec := { State.reset.sec with held := [] } }

theorem wit_LoadsAndRestores_chosen (h : ∀ k m g, Config.mldsaVerify k m g = true) :
    ({ rOne none with images := [⟨0, 0, .data oldImage⟩] } : Restore).choose (sOld.oldManifests { rOne none with images := [⟨0, 0, .data oldImage⟩] }) = some 4 := by
  have hm : sOld.oldManifest oldImage = some ⟨0, 4, 0, 1, oldImage⟩ := by
    have hk : sOld.signerKey ((oldImage.drop 32).take 32) = some ((List.replicate 32 (0 : Byte)).drop 32) := by decide +kernel
    have h0 : wd oldImage 0 = 0x4E394D46 := by decide +kernel
    have h1 : wb oldImage 5 0 12 = 0 ∧ fld oldImage 8 8 = 4 ∧ wd oldImage 4 = 0 ∧ wb oldImage 5 16 13 = 1 := by decide +kernel
    unfold State.oldManifest
    simp [hk, h0, h, h1]
  have hl : sOld.oldManifests { rOne none with images := [⟨0, 0, .data oldImage⟩] } = [⟨0, 4, 0, 1, oldImage⟩] := by
    simp [State.oldManifests, hm]
  rw [hl]; decide +kernel

/-- RESTORE_READY of position 1 with success and with a failure; at the root of two packages and of one. -/
def sAlone : State := { sTree .root 0 with blobs := [] }

theorem wit_LoadsAndRestores_ready : ∀ x ∈ [(sTree .child 0, 0), (sTree .root 0, 0), (sTree .root 0, 7)],
    FromBelow x.1 (cmd 1 0x14 (wordsLE [4, 0, 1 + x.2 * 2 ^ 24])) 0x14 (begun x.1 (cmd 1 0x14 (wordsLE [4, 0, 1 + x.2 * 2 ^ 24]))) ∧
    atLeast 12 (wordsLE [4, 0, 1 + x.2 * 2 ^ 24]) = true ∧ wb (wordsLE [4, 0, 1 + x.2 * 2 ^ 24]) 2 24 8 = x.2 ∧ x.1.jobPositions = 2 ∧
    x.1.cas.restoreReady = [] := by
  intro x h
  simp only [List.mem_cons, List.not_mem_nil, or_false] at h
  rcases h with rfl | rfl | rfl <;> exact ⟨below_of (by decide +kernel), by decide +kernel⟩

theorem wit_LoadsAndRestores_commit : FromAbove (sRestore (some 4)) (cmd 1 0x15 (stepFlagValue 4 0)) 0x15 (begun (sRestore (some 4)) (cmd 1 0x15 (stepFlagValue 4 0))) ∧
    FromAbove (sRestore none) (cmd 1 0x15 (stepFlagValue 4 1)) 0x15 (begun (sRestore none) (cmd 1 0x15 (stepFlagValue 4 1))) ∧
    (begun (sRestore (some 4)) (cmd 1 0x15 (stepFlagValue 4 0))).restore = some (rOne (some 4)) ∧
    (begun (sRestore none) (cmd 1 0x15 (stepFlagValue 4 1))).restore = some (rOne none) :=
  ⟨above_of (by decide +kernel), above_of (by decide +kernel), by decide +kernel⟩

theorem wit_LoadsAndRestores_alone : FromBelow sAlone (cmd 0 0x14 (wordsLE [4, 0, 0])) 0x14 (begun sAlone (cmd 0 0x14 (wordsLE [4, 0, 0]))) ∧
    sAlone.jobPositions ≤ 1 ∧ sAlone.isRoot = true ∧ sAlone.cas.restoreReady = [] ∧ wb (wordsLE [4, 0, 0]) 2 24 8 = 0 :=
  ⟨below_of (by decide +kernel), by decide +kernel⟩

/-! The dictionary. -/

/-- An owned package, and one with a session that owns nothing. -/
def sOwned : State := withSession true (sTree .member 0)
def sOther : State := withSession false (sTree .member 0)

/-- A request of another opcode than WRITE. -/
def ask (opcode index sub : Nat) : NapReq := { wr index sub [] with opcode := opcode }

/-- The object row of an object. -/
def rowOf (index sub : Nat) : ObjRow := match objRow index sub with
  | some o => o
  | none => ⟨0, 0, 0, 0, .u8, .ro, 0, 0, .none, false, false⟩

theorem wit_Dictionary_taken : TakenUp sOther (ask 1 0x1001 1) sOther ∧ FreshRequest sOther (ask 1 0x1001 1) ∧
    sOther.gate (ask 1 0x1001 1) = none ∧ (sOther.gate { ask 1 0x1001 1 with session := 64 }).isSome = true ∧
    TakenUp sOther { ask 1 0x1001 1 with session := 64 } sOther ∧ FreshRequest sOther { ask 1 0x1001 1 with session := 64 } ∧
    (match sOther.objGate (ask 1 5 1) with | .error e => e = (2, 0) | _ => false) = true := by
  have g : ∀ r : NapReq, r.carrier = .sideband 3 → TakenUp sOther r sOther := by
    intro r hr
    exact ⟨rfl, Or.inr ⟨rfl, by simp [State.arrive, hr]⟩, by intro k hk; rw [hr] at hk; cases hk⟩
  refine ⟨g _ rfl, ⟨?_, ?_⟩, by decide +kernel, by decide +kernel, g _ rfl, ⟨?_, ?_⟩, by decide +kernel⟩
  · intro k hk
    have h0 : sOther.sessionOf (ask 1 0x1001 1) = some 0 := by decide +kernel
    rw [h0] at hk; obtain rfl := Option.some.inj hk
    exact ⟨by decide +kernel, by unfold NewSeq; decide +kernel⟩
  · intro _ h; exact absurd h (by decide)
  · intro k hk
    have h0 : sOther.sessionOf { ask 1 0x1001 1 with session := 64 } = none := by decide +kernel
    rw [h0] at hk; cases hk
  · intro _ h; exact absurd h (by decide)

/-- A READ of a number, of a staged number and of a byte string; a staged WRITE by a session that owns nothing, by the owner with a value in
and out of range, and while the bank is busy. -/
theorem wit_Dictionary : ∀ x ∈ [(sOther, ask 1 0x1001 2), (sOther, ask 1 0x4030 3), (sOther, ask 1 0x1011 0), (sOther, wr 0x4030 3 [1, 0]),
    (sOwned, wr 0x4030 3 [1, 0]), (sOwned, wr 0x4030 3 [0, 0x20]), ({ sOwned with weir := { Weir.reset with st := .armed } }, wr 0x4030 3 [1, 0])],
    Gated x.1 x.2 (rowOf x.2.index x.2.sub) (counted x.1) := by
  intro x h
  simp only [List.mem_cons, List.not_mem_nil, or_false] at h
  rcases h with rfl | rfl | rfl | rfl | rfl | rfl | rfl <;> exact gated_of (by decide +kernel) (by decide +kernel)

theorem wit_Dictionary_rows : (rowOf 0x1001 2).acs = .ro ∧ (rowOf 0x1001 2).ty ≠ .blob ∧ (rowOf 0x1001 2).ty ≠ .str ∧ sOther.unmeasured 0x1001 2 = false ∧
    (rowOf 0x4030 3).acs = .staged ∧ sOther.stagedShown (ask 1 0x4030 3) = .scalar 1 ∧ (rowOf 0x1011 0).ty = .blob ∧ (rowOf 0x1011 0).acs = .ro ∧
    writeMeaning 0x4030 3 = none ∧ windowObject 0x4030 3 = false ∧ (writeMeaning 0x2001 1).isSome = true ∧
    sOther.isOwner (wr 0x4030 3 [1, 0]) = false ∧ sOwned.isOwner (wr 0x4030 3 [1, 0]) = true ∧ sOwned.fenced (rowOf 0x4030 3) 3 = false ∧
    scalarOk 0x4030 3 (leNat [1, 0]) = true ∧ scalarOk 0x4030 3 (leNat [0, 0x20]) = false ∧ sOwned.weir.busy = false ∧
    ({ sOwned with weir := { Weir.reset with st := .armed } } : State).weir.busy = true ∧
    bankBytes (stPut sOwned.weir.bank (objKey 0x4030 3) (.scalar 1)) ≤ weirBytes := by decide +kernel

/-- An undefined opcode; ENUM of an object and past the last. -/
theorem wit_Dictionary_served : ∀ r ∈ [ask 0 0x1001 1, ask 6 0x1001 1, ask 5 0x1001 1, ask 5 0xFFFF 1], Served sOther r (counted sOther) := by
  intro r h
  simp only [List.mem_cons, List.not_mem_nil, or_false] at h
  rcases h with rfl | rfl | rfl | rfl <;> exact served_of (by decide +kernel)

theorem wit_Dictionary_enum : nextKey (objKey 0x1001 1) = some (objKey 0x1001 2) ∧ objRow 0x1001 2 = some (rowOf 0x1001 2) ∧
    nextKey (objKey 0xFFFF 1) = none := by decide +kernel

/-- A command between packages from a position with no say; a segment that waits for more, and one out of place. -/
theorem wit_Dictionary_cascade : ∀ r ∈ [cmd 5 2 (verdictValue 5 true true), { cmd 1 2 [1, 2] with last := false, total := 12 },
    { cmd 1 2 [1, 2] with offset := 4, total := 12 }], Gated (sTree .member 1) r (rowOf 0x4040 2) (counted (sTree .member 1)) := by
  intro r h
  simp only [List.mem_cons, List.not_mem_nil, or_false] at h
  rcases h with rfl | rfl | rfl <;> exact gated_of (by decide +kernel) (by decide +kernel)

theorem wit_Dictionary_segments : fromAbove (counted (sTree .member 1)) (cmd 5 2 (verdictValue 5 true true)) = false ∧
    fromAbove (counted (sTree .member 1)) (cmd 1 2 [1, 2]) = true ∧
    ((counted (sTree .member 1)).takeSegment { cmd 1 2 [1, 2] with last := false, total := 12 } blobLimit).2 = .part ∧
    ((counted (sTree .member 1)).takeSegment { cmd 1 2 [1, 2] with offset := 4, total := 12 } blobLimit).2 = .bad := by decide +kernel

/-- A free mailbox slot and a frame that parses; a slot that has begun. -/
theorem wit_Dictionary_mailbox : sOther.power.phase = .run ∧ mget 0xFFFFFFFF sOther.nap.rspLen 0 ≠ 0 ∧
    (parseReq (.pf1 0) (padTo 36 ((overlay ((frameOf (ask 5 0x1001 1)).bytes []) (mget Mailbox.empty sOther.nap.mailbox 0).request).take 36))).isSome
      = true ∧ sOther.nap.queue.length < 64 ∧
    mget 0xFFFFFFFF ({ sOther with nap := { sOther.nap with rspLen := [(0, 0)] } } : State).nap.rspLen 0 = 0 := by decide +kernel

/-- A BLOB read from an offset in its value. -/
theorem wit_Dictionary_blob : Gated sOther (ask 1 0x1011 0) (rowOf 0x1011 0) (counted sOther) ∧
    (ask 1 0x1011 0).offset ≤ ((counted sOther).blobShown 0x1011 0).length :=
  ⟨gated_of (by decide +kernel) (by decide +kernel), Nat.zero_le _⟩

/-- EVENT_SUBSCRIBE and EVENT_SNAPSHOT from a session. -/
theorem wit_Dictionary_live : Ready sOther (wr 0x2006 1 [1]) 0x2006 1 (begun sOther (wr 0x2006 1 [1])) ∧
    Ready sOther (wr 0x2006 1 [2]) 0x2006 1 (begun sOther (wr 0x2006 1 [2])) ∧ (begun sOther (wr 0x2006 1 [1])).sessionOf (wr 0x2006 1 [1]) = some 0 ∧
    Ready sOther (wr 0xB002 1 (leBytes 8 0)) 0xB002 1 (begun sOther (wr 0xB002 1 (leBytes 8 0))) :=
  ⟨ready_of (by decide +kernel), ready_of (by decide +kernel), by decide +kernel, ready_of (by decide +kernel)⟩

/-- Live objects by the owner: a page query; a cap in range and at each end out of it; a release while a job runs and while none does. -/
theorem wit_Dictionary_owner : ∀ x ∈ [(sOwned, 0x6015, leBytes 8 0x10000), (sOwned, 0xA002, leBytes 2 1500), (sOwned, 0xA002, leBytes 2 3000),
    (sOwned, 0xA002, leBytes 2 1499), (sOwned, 0xA002, leBytes 2 3001), (sOwned, 0x6014, leBytes 6 0x10000 ++ leBytes 4 1),
    (withSession true (sTree .member 1), 0x6014, leBytes 6 0x10000 ++ leBytes 4 1)],
    OwnerWrites x.1 (wr x.2.1 1 x.2.2) x.2.1 1 (begun x.1 (wr x.2.1 1 x.2.2)) := by
  intro x h
  simp only [List.mem_cons, List.not_mem_nil, or_false] at h
  rcases h with rfl | rfl | rfl | rfl | rfl | rfl | rfl <;> exact owner_of (by decide +kernel)

theorem wit_Dictionary_values : profileCap (sOwned.obj 0xA001 2) = 3000 ∧ sOwned.obField 1 16 16 = 3000 ∧
    (leBytes 6 0x10000 ++ leBytes 4 1).length = 10 ∧ fld (leBytes 6 0x10000 ++ leBytes 4 1) 0 6 % 65536 = 0 ∧ sOwned.mem.pages = [] := by decide +kernel

/-! Sessions. -/

/-- Every slot is open. -/
def sFull : State := { sOther with nap := { sOther.nap with
  sessions := (List.range 32).map (fun i => (i, { Session.closed with isOpen := true, gen := 1, carrier := .sideband 3 })) } }

theorem wit_Sessions : Served sOther (ask 3 0 0) (counted sOther) ∧ Served sFull (ask 3 0 0) (counted sFull) ∧
    firstBelow 32 (fun i => !((counted sOther).slot i).isOpen) = some 1 ∧ (∀ i, i < 32 → ((counted sFull).slot i).isOpen = true) ∧
    Served sOwned (ask 4 0 0) (counted sOwned) ∧ (counted sOwned).sessionOf (ask 4 0 0) = some 0 ∧
    (counted sOwned).ownerSession = sessionId 0 ((counted sOwned).slot 0).gen ∧ Served sOther (ask 4 0 0) (counted sOther) ∧
    (counted sOther).ownerSession ≠ sessionId 0 ((counted sOther).slot 0).gen ∧ (sOther.slot 0).isOpen = true ∧
    Gated sOther (ask 1 0x2005 1) (rowOf 0x2005 1) (counted sOther) :=
  ⟨served_of (by decide +kernel), served_of (by decide +kernel), by decide +kernel, by decide +kernel, served_of (by decide +kernel),
    by decide +kernel, by decide +kernel, served_of (by decide +kernel), by decide +kernel, by decide +kernel,
    gated_of (by decide +kernel) (by decide +kernel)⟩

/-- The last segment of an AUTH_RESPONSE from a UDP session whose challenge is open; the one trusted master has key ID zero. -/
def sAuth : State := { sTree .member 0 with
  blobs := [(objKey 0x9010 0, List.replicate 1344 0)],
  nap := { Nap.reset with
    sessions := [(0, { Session.closed with isOpen := true, gen := 1, carrier := .udp 1 2, nonce := some (List.replicate 32 7) })],
    assemblies := [(objKey 0x2005 2, .pf1 32, List.replicate 3600 0)] } }
def authReq : NapReq := { wr 0x2005 2 (List.replicate 36 0) with carrier := .udp 1 2, offset := 3600, total := 3636 }
theorem wit_Sessions_auth : Ready sAuth authReq 0x2005 2 ((counted sAuth).dropAssembly (objKey 0x2005 2)) ∧ authReq.isUdp = true ∧
    (valueOf sAuth authReq).length = 3636 ∧ ((counted sAuth).dropAssembly (objKey 0x2005 2)).sessionOf authReq = some 0 := by
  have hv : valueOf sAuth authReq = List.replicate 3600 0 ++ authReq.value := rfl
  have hl : (List.replicate 3600 (0 : Byte) ++ List.replicate 36 0).length = 3636 := by
    rw [List.length_append, List.length_replicate, List.length_replicate]
  refine ⟨ready_last (by decide +kernel) rfl (by decide +kernel) ?_, rfl, ?_, by decide +kernel⟩
  · rw [hv]
    exact whole_of _ _ _ _ (by decide) rfl List.length_replicate rfl hl (by decide)
  · rw [hv]; exact hl

theorem wit_Sessions_verifies (h : ∀ k m g, Config.mldsaVerify k m g = true) : ∃ pk, ((counted sAuth).dropAssembly (objKey 0x2005 2)).trustedMaster
    ((valueOf sAuth authReq).take 32) = some pk ∧ (((counted sAuth).dropAssembly (objKey 0x2005 2)).slot 0).nonce.isSome = true ∧
    ((counted sAuth).dropAssembly (objKey 0x2005 2)).hasKey 0 = true ∧ ∀ m g, Config.mldsaVerify pk m g = true := by
  have hm : (((counted sAuth).dropAssembly (objKey 0x2005 2)).trustedMaster ((valueOf sAuth authReq).take 32)).isSome = true := by decide +kernel
  cases hx : ((counted sAuth).dropAssembly (objKey 0x2005 2)).trustedMaster ((valueOf sAuth authReq).take 32) with
  | none => rw [hx] at hm; cases hm
  | some pk => exact ⟨pk, rfl, by decide +kernel, by decide +kernel, h pk⟩

/-- Without a trusted master no response verifies. -/
theorem wit_Sessions_refused : ∀ id, ({ sAuth with blobs := [] } : State).trustedMaster id = none := by
  intro id
  simp [State.trustedMaster, State.blob, mget]

/-! Ownership. -/

theorem wit_Ownership_others : (.ownerHeartbeat, 0x2001, 2) ∈ ownerCommands ∧ Gated sOther (wr 0x2001 2 (leBytes 4 1)) (rowOf 0x2001 2) (counted sOther) ∧
    (counted sOther).isOwner (wr 0x2001 2 (leBytes 4 1)) = false := ⟨by simp [ownerCommands], gated_of (by decide +kernel) (by decide +kernel), by decide +kernel⟩

/-- A package that session 64 owns. -/
def sTheirs : State := { sOther with own := { Ownership.reset with owner := some ⟨64, 2, 10, []⟩ } }

/-- Claims of priority 10 with no owner and with another one, and an emergency claim. -/
theorem wit_Ownership_claims : ∀ x ∈ [(sOther, 10), (sTheirs, 10), (sOther, 255), (sTheirs, 255)],
    Ready x.1 (wr 0x2001 1 (leBytes 8 x.2)) 0x2001 1 (begun x.1 (wr 0x2001 1 (leBytes 8 x.2))) ∧
    (begun x.1 (wr 0x2001 1 (leBytes 8 x.2))).isOwner (wr 0x2001 1 (leBytes 8 x.2)) = false ∧ fld (leBytes 8 x.2) 0 1 = x.2 ∧
    (wr 0x2001 1 (leBytes 8 x.2)).isUdp = false := by
  intro x h
  simp only [List.mem_cons, List.not_mem_nil, or_false] at h
  rcases h with rfl | rfl | rfl | rfl <;> exact ⟨ready_of (by decide +kernel), by decide +kernel⟩

/-- Two claims, of which the first wins, and two that tie. -/
def claimOf (session priority nonce : Nat) : Claim := ⟨{ wr 0x2001 1 [] with session := session }, session, priority, nonce⟩

theorem wit_Ownership_window : competing [claimOf 32 20 1, claimOf 64 10 9] = [claimOf 32 20 1, claimOf 64 10 9] ∧
    (claimOf 32 20 1).beats (claimOf 64 10 9) = true ∧ competing [claimOf 32 20 1, claimOf 64 20 1] = [claimOf 32 20 1, claimOf 64 20 1] ∧
    (claimOf 32 20 1).beats (claimOf 64 20 1) = false ∧ (claimOf 64 20 1).beats (claimOf 32 20 1) = false ∧
    (claimOf 32 20 1).beats (claimOf 32 20 1) = false ∧ (claimOf 64 20 1).beats (claimOf 64 20 1) = false := by decide +kernel

theorem wit_Ownership_owner : ∀ x ∈ [(2, leBytes 4 1), (3, [1]), (4, leBytes 2 64), (4, leBytes 2 0)],
    OwnerWrites sOwned (wr 0x2001 x.1 x.2) 0x2001 x.1 (begun sOwned (wr 0x2001 x.1 x.2)) := by
  intro x h
  simp only [List.mem_cons, List.not_mem_nil, or_false] at h
  rcases h with rfl | rfl | rfl | rfl <;> exact owner_of (by decide +kernel)

/-- The owner's claims, of its own; an emergency claim of a UDP session that need not be authenticated and is not. -/
def sUdp : State := { sOther with
  ob := (factoryOb .hn9_8x).take 24 ++ leBytes 4 3 ++ (factoryOb .hn9_8x).drop 28,
  nap := { Nap.reset with sessions := [(0, { Session.closed with isOpen := true, gen := 1, carrier := .udp 1 2 })] } }
def udpClaim : NapReq := { wr 0x2001 1 (leBytes 8 255) with carrier := .udp 1 2 }

theorem wit_Ownership_own : (∀ n ∈ [10, 255], Ready sOwned (wr 0x2001 1 (leBytes 8 n)) 0x2001 1 (begun sOwned (wr 0x2001 1 (leBytes 8 n))) ∧
      (begun sOwned (wr 0x2001 1 (leBytes 8 n))).isOwner (wr 0x2001 1 (leBytes 8 n)) = true ∧ (wr 0x2001 1 (leBytes 8 n)).isUdp = false) ∧
    Ready sUdp udpClaim 0x2001 1 (begun sUdp udpClaim) ∧ fld (valueOf sUdp udpClaim) 0 1 = 255 ∧ udpClaim.isUdp = true ∧
    ((begun sUdp udpClaim).slot (udpClaim.session % 32)).authed = false := by
  refine ⟨?_, ready_of (by decide +kernel), by decide +kernel⟩
  intro n h
  simp only [List.mem_cons, List.not_mem_nil, or_false] at h
  rcases h with rfl | rfl <;> exact ⟨ready_of (by decide +kernel), by decide +kernel⟩

/-- Ownership offered to session 32. -/
def sOffered : State := { sTheirs with own := { sTheirs.own with offer := some 32 } }

theorem wit_Ownership_accept : ∀ n ∈ [0, 1], Ready sOffered (wr 0x2001 5 (leBytes 4 n)) 0x2001 5 (begun sOffered (wr 0x2001 5 (leBytes 4 n))) ∧
    (begun sOffered (wr 0x2001 5 (leBytes 4 n))).own.offer = some (wr 0x2001 5 (leBytes 4 n)).session ∧
    (begun sOffered (wr 0x2001 5 (leBytes 4 n))).ownerEpoch = 0 ∧ sOffered.own.owner ≠ none := by
  intro n h
  simp only [List.mem_cons, List.not_mem_nil, or_false] at h
  rcases h with rfl | rfl <;> exact ⟨ready_of (by decide +kernel), by decide +kernel⟩

/-! Weir. -/

/-- An owned package with a bank in a state; key 0xA00101 is group-only or not. -/
def sWeir (job : Nat) (st : WeirSt) (bank : List (Nat × StVal)) : State := { withSession true (sTree .member job) with
  weir := { Weir.reset with st := st, bank := bank } }

/-- Banks: of a group-only object, of one that waits for a boundary, of one that acts at once. -/
def bankGroup : List (Nat × StVal) := [(objKey 0x4030 3, .scalar 1)]
def bankStep : List (Nat × StVal) := [(objKey 0x6013 2, .scalar 3)]
def bankOnce : List (Nat × StVal) := [(objKey 0x8002 6, .scalar 3)]

theorem wit_WeirCommands : ∀ x ∈ [(0, .staged, bankStep, 1), (0, .valid, bankStep, 1), (0, .armed, bankStep, 1), (0, .valid, bankGroup, 2), (1, .valid, bankStep, 2),
    (3, .valid, bankStep, 2), (0, .valid, bankStep, 2), (1, .valid, bankOnce, 2), (0, .staged, bankStep, 3), (0, .valid, bankStep, 3), (0, .staged, bankStep, 4), (0, .valid, bankStep, 4), (0, .empty, [], 4)],
    OwnerWrites (sWeir x.1 x.2.1 x.2.2.1) (wr 0x3001 1 [BitVec.ofNat 8 x.2.2.2]) 0x3001 1 (begun (sWeir x.1 x.2.1 x.2.2.1) (wr 0x3001 1 [BitVec.ofNat 8 x.2.2.2])) ∧
    leNat (wr 0x3001 1 [BitVec.ofNat 8 x.2.2.2]).value = x.2.2.2 := by
  intro x h
  simp only [List.mem_cons, List.not_mem_nil, or_false] at h
  rcases h with rfl | rfl | rfl | rfl | rfl | rfl | rfl | rfl | rfl | rfl | rfl | rfl | rfl <;> exact ⟨owner_of (by decide +kernel), by decide⟩

theorem wit_WeirCommands_banks : (sWeir 0 .valid bankGroup).weir.groupOnly = true ∧ (sWeir 1 .valid bankStep).weir.groupOnly = false ∧
    (sWeir 1 .valid bankStep).weir.atOnce = false ∧ (sWeir 1 .valid bankOnce).weir.atOnce = true ∧ (sWeir 1 .valid bankOnce).weir.groupOnly = false ∧
    (sWeir 0 .armed bankStep).weir.busy = true ∧ (bankOnce.map Prod.fst).Nodup ∧ (bankStep.map Prod.fst).Nodup := by decide +kernel

theorem wit_WeirCommands_types : ∀ e ∈ bankStep ++ bankOnce, StagedType e.1 e.2 := by
  intro e h
  simp only [bankStep, bankOnce, List.cons_append, List.nil_append, List.mem_cons, List.not_mem_nil, or_false] at h
  rcases h with rfl | rfl
  · exact ⟨rowOf 0x6013 2, by decide +kernel, by decide +kernel, Or.inr ⟨by decide +kernel, _, rfl⟩⟩
  · exact ⟨rowOf 0x8002 6, by decide +kernel, by decide +kernel, Or.inr ⟨by decide +kernel, _, rfl⟩⟩

/-- A bank in validation that passes, and one that does not. -/
theorem wit_WeirCommands_validate : (sWeir 0 .validating bankStep).validate = none ∧
    (sWeir 0 .validating [(objKey 0x6013 2, .scalar 26)]).validate ≠ none ∧ (sWeir 0 .validating bankStep).weir.orphan = false :=
  ⟨Option.isNone_iff_eq_none.mp (by decide +kernel), Option.isSome_iff_ne_none.mp (by decide +kernel), rfl⟩

/-! Group commits. -/

/-- A GROUP_ARMED of position `p`. -/
def reportOf (p status : Nat) : List Byte := wordsLE [p + status * 2 ^ 16, 3, 0, 0] ++ List.replicate 88 0 ++ wordsLE [0xFFFF, 0, 0]
def sArmed (role : Role) (job : Nat) (l : List Report) : State := { sTree role job with cas := { Cascade.reset with armed := l } }

theorem wit_GroupCommits_armed : ∀ x ∈ [(0, [], 0), (0, [(0, reportOf 0 0)], 0), (1, [(0, reportOf 0 0)], 0), (0, [(0, reportOf 0 0)], 4)],
    Ready (sArmed .root x.1 x.2.1) (cmd 1 0x16 (reportOf 1 x.2.2)) 0x4040 0x16 (begun (sArmed .root x.1 x.2.1) (cmd 1 0x16 (reportOf 1 x.2.2))) ∧
    groupBelow (begun (sArmed .root x.1 x.2.1) (cmd 1 0x16 (reportOf 1 x.2.2))) (cmd 1 0x16 (reportOf 1 x.2.2)) = true ∧
    armedOk (reportOf 1 x.2.2) = true ∧ (sArmed .root x.1 x.2.1).armers = [0, 1] ∧ (sArmed .root x.1 x.2.1).groupView.position = 0 ∧
    (sArmed .root x.1 x.2.1).groupView.isRoot = true ∧ ((sArmed .root x.1 x.2.1).groupView.below true).head? = some 1 := by
  intro x h
  simp only [List.mem_cons, List.not_mem_nil, or_false] at h
  rcases h with rfl | rfl | rfl | rfl <;> exact ⟨ready_of (by decide +kernel), by decide +kernel⟩

theorem wit_GroupCommits_checks : (∀ st ∈ [0, 4], (reportIns (1, reportOf 1 st) [(0, reportOf 0 0)]).find? (fun x => x.1 = 0) = some (0, reportOf 0 0)) ∧
    crossChecks (0, reportOf 0 0) (reportIns (1, reportOf 1 0) [(0, reportOf 0 0)]) (reportIns (1, reportOf 1 0) [(0, reportOf 0 0)])
      (begun (sArmed .root 0 []) (cmd 1 0x16 (reportOf 1 0))).would.nonSpares = none ∧
    (crossChecks (0, reportOf 0 0) (reportIns (1, reportOf 1 4) [(0, reportOf 0 0)]) (reportIns (1, reportOf 1 4) [(0, reportOf 0 0)])
      (begun (sArmed .root 0 []) (cmd 1 0x16 (reportOf 1 0))).would.nonSpares).isSome = true := by decide +kernel

theorem wit_GroupCommits_timeout : (sArmed .root 0 [(0, reportOf 0 0)]).groupView.isRoot = true ∧ (sArmed .root 0 [(0, reportOf 0 0)]).armers = [0, 1] ∧
    (sArmed .root 0 [(0, reportOf 0 0)]).cas.armed = [(0, reportOf 0 0)] := by decide +kernel

/-- An armed member; one that has acted on GROUP_SEQ 3. -/
def sTakes (job : Nat) (st : WeirSt) (seen : List Nat) : State := { sTree .member job with weir := { Weir.reset with st := st, bank := bankOnce, seen := seen } }

theorem wit_GroupCommits_commit : ∀ x ∈ [(0, true, []), (1, true, []), (1, false, []), (1, false, [3])],
    Ready (sTakes x.1 .armed x.2.2) (cmd 1 0x17 (groupCommitValue 3 x.2.1 6)) 0x4040 0x17 (begun (sTakes x.1 .armed x.2.2) (cmd 1 0x17 (groupCommitValue 3 x.2.1 6))) ∧
    groupAbove (begun (sTakes x.1 .armed x.2.2) (cmd 1 0x17 (groupCommitValue 3 x.2.1 6))) (cmd 1 0x17 (groupCommitValue 3 x.2.1 6)) = true ∧
    (groupCommitValue 3 x.2.1 6).length = 16 ∧ wd (groupCommitValue 3 x.2.1 6) 0 = 3 ∧ wb (groupCommitValue 3 x.2.1 6) 1 0 1 = b01 x.2.1 := by
  intro x h
  simp only [List.mem_cons, List.not_mem_nil, or_false] at h
  rcases h with rfl | rfl | rfl | rfl <;> exact ⟨ready_of (by decide +kernel), by decide +kernel⟩

/-- A child master that reports a member missing, and that is told to commit. -/
theorem wit_GroupCommits_child : (sArmed .child 0 [(0, reportOf 0 0)]).groupView.isMaster = true ∧
    (sArmed .child 0 [(0, reportOf 0 0)]).groupView.isRoot = false ∧ 1 ∈ (sArmed .child 0 [(0, reportOf 0 0)]).armers ∧
    (sArmed .child 0 [(0, reportOf 0 0)]).cas.armed.find? (fun x => x.1 = (sArmed .child 0 [(0, reportOf 0 0)]).groupView.position) = some (0, reportOf 0 0) ∧
    Ready (sTree .child 0) (cmd 9 0x17 (groupCommitValue 3 true 6)) 0x4040 0x17 (begun (sTree .child 0) (cmd 9 0x17 (groupCommitValue 3 true 6))) ∧
    groupAbove (begun (sTree .child 0) (cmd 9 0x17 (groupCommitValue 3 true 6))) (cmd 9 0x17 (groupCommitValue 3 true 6)) = true ∧
    (begun (sTree .child 0) (cmd 9 0x17 (groupCommitValue 3 true 6))).groupView.isMaster = true ∧
    (begun (sTree .child 0) (cmd 9 0x17 (groupCommitValue 3 true 6))).groupView.isRoot = false ∧
    ((begun (sTree .child 0) (cmd 9 0x17 (groupCommitValue 3 true 6))).groupView.below true).head? = some 1 ∧
    (begun (sTree .child 0) (cmd 9 0x17 (groupCommitValue 3 true 6))).groupPosition = 0 :=
  ⟨by decide +kernel, by decide +kernel, by decide +kernel, by decide +kernel, ready_of (by decide +kernel), by decide +kernel,
    by decide +kernel, by decide +kernel, by decide +kernel, by decide +kernel⟩

theorem wit_GroupCommits_reject : ∀ st ∈ [WeirSt.armed, .staged], Ready (sTakes 0 st []) (cmd 1 0x18 (groupRejectValue 3 ⟨6, 0, 0, 1⟩)) 0x4040 0x18
      (begun (sTakes 0 st []) (cmd 1 0x18 (groupRejectValue 3 ⟨6, 0, 0, 1⟩))) ∧
    groupAbove (begun (sTakes 0 st []) (cmd 1 0x18 (groupRejectValue 3 ⟨6, 0, 0, 1⟩))) (cmd 1 0x18 (groupRejectValue 3 ⟨6, 0, 0, 1⟩)) = true ∧
    (groupRejectValue 3 ⟨6, 0, 0, 1⟩).length = 16 ∧ (sTakes 0 st []).weir.orphan = false := by
  intro st h
  simp only [List.mem_cons, List.not_mem_nil, or_false] at h
  rcases h with rfl | rfl <;> exact ⟨ready_of (by decide +kernel), by decide +kernel⟩

/-! Reset, power and clocks. -/

def sPhase (p : Phase) (locked : List Nat) : State := { State.reset with power := { Power.reset with phase := p, locked := locked } }

/-- What a release finds: two Backwater channels, which the option bytes do not expect. -/
def envTwo : BootEnv := ⟨2, 1, 0, [], true⟩

theorem wit_Resets : (∀ p ∈ [Phase.powerOn, .stretch, .hold, .release, .recovery, .run], (sPhase p []).power.phase = p ∧ (sPhase p []).power.locked = []) ∧
    (∀ c ∈ State.reset.nv.subst, c < 128) ∧ (sPhase .run []).hasDomain 1 = true ∧ (sPhase .run []).portEnabled 0 = true ∧
    (∀ d ∈ [0, 1, 7, 0x20], d ∈ (sPhase .run [0, 1, 7, 0x20]).power.locked) ∧ (sPhase .release []).hasDomain 0 = true ∧
    ({ sPhase .release [] with power := { Power.reset with phase := .release, locked := [], env := some envTwo } } : State).power.env = some envTwo := by
  decide +kernel

theorem wit_Resets_request : ∀ n ∈ [1, 2], OwnerWrites sOwned (wr 0xC002 1 [BitVec.ofNat 8 n]) 0xC002 1 (begun sOwned (wr 0xC002 1 [BitVec.ofNat 8 n])) ∧
    leNat (wr 0xC002 1 [BitVec.ofNat 8 n]).value = n := by
  intro n h
  simp only [List.mem_cons, List.not_mem_nil, or_false] at h
  rcases h with rfl | rfl <;> exact ⟨owner_of (by decide +kernel), by decide⟩

theorem ready_single {s : State} {r : NapReq} (h : servedB s r = true) (hr : r.opcode = 2 ∧ r.offset = 0 ∧ r.last = true ∧ r.total = r.value.length ∧ r.value.length ≤ blobLimit)
    (g : (match (counted s).objGate r with | .ok o => o.ty = .blob | _ => false) = true) :
    Ready s r r.index r.sub ((counted s).dropAssembly (objKey r.index r.sub)) :=
  ready_last h hr.1 g (by simp [State.takeSegment, Safety.valueOf, hr])

/-- OB_WRITE of the factory bytes, and of bytes whose magic is wrong. -/
theorem wit_Resets_ob : ∀ x ∈ [(sOwned, factoryOb .hn9_8x), (sOwned, List.replicate 256 0), (withSession true (sTree .member 1), factoryOb .hn9_8x)],
    OwnerWrites x.1 (wr 0xC001 1 x.2) 0xC001 1 ((counted x.1).dropAssembly (objKey 0xC001 1)) ∧ x.2.length = 256 := by
  intro x h
  simp only [List.mem_cons, List.not_mem_nil, or_false] at h
  rcases h with rfl | rfl | rfl <;>
    exact ⟨⟨ready_single (by decide +kernel) (by decide +kernel) (by decide +kernel), by decide +kernel⟩, by decide +kernel⟩

theorem wit_Resets_words : (∀ i, i < 64 → sOwned.obWordOk (factoryOb .hn9_8x) i = true) ∧ (List.range 64).find? (fun i => !sOwned.obWordOk (List.replicate 256 0) i) = some 0 ∧
    ∀ n, sOwned.part.ports ≤ n → n < 6 → bitOf (wd (factoryOb .hn9_8x) 3) n = false :=
  ⟨by decide +kernel, by decide +kernel, by intro n h1 h2; exact absurd h2 (Nat.not_lt.mpr (Nat.le_trans (by decide) h1))⟩

/-- Bytes that enable a port which HN9-6L lacks. -/
def sSmall : State := { sOwned with part := .hn9_6l }
def fivePorts : List Byte := (factoryOb .hn9_6l).take 12 ++ leBytes 4 (2 ^ 5) ++ (factoryOb .hn9_6l).drop 16
theorem wit_Resets_absent : OwnerWrites sSmall (wr 0xC001 1 fivePorts) 0xC001 1 ((counted sSmall).dropAssembly (objKey 0xC001 1)) ∧
    fivePorts.length = 256 ∧ sSmall.part.ports ≤ 5 ∧ bitOf (wd fivePorts 3) 5 = true :=
  ⟨⟨ready_single (by decide +kernel) (by decide +kernel) (by decide +kernel), by decide +kernel⟩, by decide +kernel⟩

/-- Readings of `w` watts from every regulator with dies at 110 °C, and the same without the first regulator. -/
def readings (w : Nat) (gap : Bool) : Readings :=
  ⟨(List.range 20).map (fun i => if gap && i = 0 then none else some (800, w)), List.replicate 9 1100, List.replicate 16 500⟩

/-- A package with a power cap, a duty step and a power offset; one whose option bytes state a hold-up of 20 ms. -/
def sControl (cap duty cut : Nat) : State := { State.reset with dict := [(objKey 0xA002 1, cap), (objKey 0xA002 3, duty), (objKey 0xA002 4, cut)] }
def sStrong : State := { State.reset with ob := (factoryOb .hn9_8x).take 8 ++ leBytes 4 (20 + 50 * 2 ^ 8) ++ (factoryOb .hn9_8x).drop 12 }
def sEarly : State := { State.reset with power := { Power.reset with hubUp := false } }

/-- 440 W against caps of 100 W, 430 W and 1,500 W. -/
theorem wit_PowerAndThermal : (∀ n ∈ State.reset.regulators, railOf (readings 40 false) n = some (800, 40)) ∧
    (∃ n ∈ State.reset.regulators, railOf (readings 40 true) n = none) ∧
    State.reset.regulators.foldl (fun (a : Nat) (_ : Nat) => a + 40) 0 = 440 ∧ 11 * 100 < 10 * 440 ∧ 430 < 440 ∧ 10 * 440 ≤ 11 * 430 ∧ 50 * 440 < 49 * 1500 ∧
    State.reset.hasRail 0 = true ∧ State.reset.dieUp 0 = true ∧ 650 < State.reset.obj 0xA003 0 ∧ 699 + 50 < State.reset.obj 0xA003 0 ∧ State.reset.obj 0xA003 0 ≤ 700 + 50 ∧
    0 ∈ State.reset.activeDies ∧ State.reset.hasThermal 0 = true ∧ State.reset.hasThermal 0x10 = true ∧ sStrong.holdupState = 0 ∧ sStrong.power.hubUp = true ∧
    sEarly.power.hubUp = false ∧ (sControl 1500 3 10).obj 0xA002 3 = 3 ∧ (sControl 1500 16 10).obj 0xA002 4 = 10 ∧ (sControl 430 16 10).obj 0xA002 1 = 430 := by decide +kernel

/-- The duty step in force. -/
theorem wit_PowerAndThermal_hot : 1050 ≤ sx 32 (1100 : Nat) ∧ (1149 : Int) < 1150 ∧ (1050 : Int) ≤ 1050 := by decide

/-! Kolfin. -/

/-- A link in a state; an arbiter that has a packet and credit for it. -/
def sLink (st : LinkSt) (attempt : Nat) : State := { State.reset with links := [(0, { Link.reset with st := st, attempt := attempt, mask := 2 ^ 64 - 1, agreed := 2 ^ 64 - 1 })] }
def sArb (sender : Nat) : State := { State.reset with arbs := [(sender, { Arbiter.reset with queues := [(0, [⟨0, 0, [1]⟩])], credit := [(0, 1)] })] }
def kFrame (good : Bool) (seq : Nat) : KolfinFrame := ⟨good, seq, 0, [1], [1]⟩

theorem wit_Kolfin_frames : State.reset.linkRuns (rxLink 0) = true ∧ State.reset.linkRuns (rxLink 0x97) = true ∧ (kFrame true 0).seq = (State.reset.link 0).rxSeq ∧
    (kFrame true 5).seq ≠ (State.reset.link 0).rxSeq ∧ (kFrame false 0).crcGood = false ∧ State.reset.dieUp 0 = true ∧ State.reset.dieUp 1 = true ∧
    ∀ n ∈ [0, 0x40, 0x47], State.reset.linkRuns (txLink n) = true ∧ ((sArb n).arb n).ready 0 = true ∧ (State.reset.arb n).ready 0 = false := by decide +kernel

/-- Where a packet goes is the part's own rule; any rule that sends this one to die 1 meets the clause. -/
theorem wit_Kolfin_dest (h : Config.kolfinDest (kFrame true 0).payload = 1) : (1 : Nat) = Config.kolfinDest (kFrame true 0).payload ∧ 1 ≠ 0 := ⟨h.symm, by decide⟩

/-- Sixteen replays asked for within 65,536 frames. -/
theorem wit_Kolfin_asks : 16 ≤ ((List.range 16).filter (fun x => 16 + 1 < x + 65536)).length := by decide

/-- A link that may retrain and one that may not; a good lane frame and a bad one; an offer and an echo of 64 lanes and of 32. -/
theorem wit_Kolfin_width : State.reset.hasLink 0 = true ∧ State.reset.canRetrain 0 = true ∧ (sLink .down 0).canRetrain 0 = false ∧ laneFrameOk [] = false ∧
    (∀ m ∈ [2 ^ 64 - 1, 2 ^ 32 - 1], ∀ e ∈ [true, false], laneFrameOk (offerWords 0 m e 0) = true ∧
      (((offerWords 0 m e 0).getD 0 0).toNat + ((offerWords 0 m e 0).getD 1 0).toNat * 2 ^ 32 = m) ∧ ((offerWords 0 m e 0).getD 2 0).getLsbD 7 = e ∧ lanesOf m ≠ []) ∧
    (∀ st ∈ [LinkSt.offered, .echoed], ∀ a ∈ [0, 3, 4], ((sLink st a).link 0).st = st ∧ ((sLink st a).link 0).attempt = a ∧ ((sLink st a).link 0).before = none ∧
      ((sLink st a).link 0).agreed = 2 ^ 64 - 1) := by decide +kernel

/-- A boundary queue with room and a full one. -/
def sQueued (q n : Nat) : State := { State.reset with bq := [(q, List.replicate n [1])] }
theorem wit_Kolfin_boundary : kolfinDomain ((State.reset.linkDies (rxLink 0)).headD 0) = 0x20 ∧ State.reset.boundaryFull (rxQueue 0x20) = false ∧
    (sQueued (rxQueue 0x20) 16).boundaryFull (rxQueue 0x20) = true ∧ kolfinDomain (txDie State.reset.part.dies 0x41) = 0x21 ∧
    ∀ n ∈ [3, 16], ((sQueued (txQueue 0x21) n).boundary (txQueue 0x21)).length ≤ boundaryDepth := by decide +kernel

/-! Dies and cores. -/

/-- Die 1 of a member is in a DIE_STATE. -/
def sDie (job st : Nat) : State := withSession true ((sTree .member job).setObj 0x8010 1 st)

theorem wit_DiesAndCores : (sDie 1 0).dieUp 1 = true ∧ (sDie 1 0).job.left = false ∧ (sDie 1 1).dieUp 1 = false ∧ (sDie 1 0).power.phase = .run ∧
    (∀ x ∈ [(1, 1), (3, 1), (0, 1), (0, 0)], OwnerWrites (sDie x.1 x.2) (wr 0x8015 1 [1]) 0x8015 1 (begun (sDie x.1 x.2) (wr 0x8015 1 [1]))) ∧
    leNat [1] = 1 ∧ firstBelow (sDie 0 2).part.dies (fun d => (sDie 0 2).obj 0x8010 d = 2) = some 1 := by
  refine ⟨by decide +kernel, by decide +kernel, by decide +kernel, rfl, ?_, by decide, by decide +kernel⟩
  intro x h
  simp only [List.mem_cons, List.not_mem_nil, or_false] at h
  rcases h with rfl | rfl | rfl | rfl <;> exact owner_of (by decide +kernel)

/-- Core 17 is quarantined, with and without its die's spare core in use, and while a core has not reached its step's end. -/
def sQuarantine (job spare : Nat) (k : CoreState) : State := { sTree .member job with cores := [(0, k)], dict := [(objKey 0x8012 17, 1), (objKey 0x8011 1, spare)] }

theorem wit_DiesAndCores_core (h : Config.spareConsumed 1 = false) : (sQuarantine 0 0 kRun).spareCore 1 = 0 ∧ (sQuarantine 0 1 kRun).spareCore 1 ≠ 0 ∧
    (sQuarantine 0 0 kRun).part.hasCore 17 = true ∧ (sQuarantine 0 0 kRun).obj 0x8012 17 = 1 ∧ (sQuarantine 0 0 kRun).dieUp 1 = true ∧
    (sQuarantine 1 0 kEnd).stepEnd = true ∧ (sQuarantine 1 0 kRun).stepEnd = false := by
  have h0 : (sQuarantine 0 0 kRun).obj 0x8011 1 = 0 := by decide +kernel
  refine ⟨by simp [State.spareCore, h0, h], ?_⟩
  have h1 : (sQuarantine 0 1 kRun).obj 0x8011 1 = 1 := by decide +kernel
  exact ⟨by simp [State.spareCore, h1], by decide +kernel⟩

/-! Memory. -/

/-- A page with a frame, a move, a demand promotion and a poisoned line, in a package with one Backwater channel. -/
def pageAt (tier : Nat) (move : Option Frame) (demand : Option Nat) : Page :=
  { frame := ⟨tier, 0, 16⟩, lead := 0, leadCnt := 0, prevCnt := 0, heat := 5, acc := 3, written := 0, poison := [65], held := false, demand := demand,
    fetched := false, move := move, order := 0, later := [], damaged := [], fresh := false, old := none }
def sPage (p : Page) : State := withBack { State.reset with mem := { Tiered.reset with pages := [(2, some p)] } }

def sOdd : State := { State.reset with mem := { Tiered.reset with pages := [(1, some (pageAt 0 none none))] } }

theorem wit_MemoryUpkeep : ((sPage (pageAt 0 none none)).mem.pages.map Prod.fst).Nodup ∧ (∀ p ∈ [pageAt 0 none none, pageAt 0 (some ⟨16, 0, 16⟩) none,
      pageAt 16 (some ⟨0, 0, 16⟩) none, pageAt 0 (some ⟨1, 0, 16⟩) none, pageAt 16 none (some 0)], (sPage p).page 2 = some p) ∧ 2 < retainedBase ∧
    (((sPage (pageAt 16 none (some 0))).dieOrder 0).findSome? (fun e => (sPage (pageAt 16 none (some 0))).allocOnDie e 16 0)).isSome = true ∧
    State.reset.dieUp 0 = true ∧ 0x20 ∈ State.reset.power.locked ∧ 0x20 ∉ (sPhase .run []).power.locked ∧ State.reset.scrubs 0 = true ∧
    (sPage (pageAt 0 none none)).scrubs 16 = true ∧ 0 < 64 * State.reset.tierSectors 0 ∧ 0 < State.reset.tierLines 0 ∧ 0 < (sPage (pageAt 0 none none)).tierLines 16 ∧
    (sPage (pageAt 0 none none)).pageOfLine 0 65 = some (2, pageAt 0 none none) ∧
    2 ^ 40 * 0 + 7 ∈ ({ Tiered.reset with ceSeen := [7] } : Tiered).ceSeen ∧ State.reset.job.st ≠ 1 ∧ (sTree .member 1).job.st = 1 := by decide +kernel

/-- A move that nothing is ahead of, and one behind the move of an earlier close. -/
def sTwoMoves : State := { State.reset with mem := { Tiered.reset with
  pages := [(2, some (pageAt 0 (some ⟨16, 0, 16⟩) none)), (0x20000, some { pageAt 0 (some ⟨16, 16, 16⟩) none with order := 2 }),
    (0x40000, some { pageAt 0 (some ⟨16, 32, 16⟩) none with order := 1 })] } }

theorem wit_MemoryUpkeep_moves : (∀ t ∈ [0, 16], (sPage (pageAt t (some ⟨16 - t, 0, 16⟩) none)).movesAhead 0 = false ∧
      (pageAt t (some ⟨16 - t, 0, 16⟩) none).later = [] ∧
      (sPage (pageAt t (some ⟨16 - t, 0, 16⟩) none)).errorLines ⟨t, 0, 16⟩ 0 (64 * (sPage (pageAt t (some ⟨16 - t, 0, 16⟩) none)).keySectors 2) = []) ∧
    sTwoMoves.movesAhead 2 = true ∧ (sPage (pageAt 16 none (some 0))).errorLines ⟨16, 0, 16⟩ 0 (64 * (sPage (pageAt 16 none (some 0))).keySectors 2) = [] := by
  decide +kernel

/-- What strikes a line: nothing; one symbol, in a stack and in Backwater; three; a pattern that is a code word, the checks of the data 0, …, 0, 1. -/
def struckWord : SMap Nat := [(63, 1), (64, 15), (65, 54), (66, 120), (67, 64)]

theorem wit_MemoryUpkeep_scrub : (tierCode 0).decode (State.reset.patternOf 0 7 []) = .clean [] ∧
    (tierCode 0).decode (State.reset.patternOf 0 7 [(3, 7)]) = .corrected [] ∧ (tierCode 16).decode (State.reset.patternOf 16 7 [(3, 7)]) = .corrected [] ∧
    (tierCode 0).decode (State.reset.patternOf 0 7 [(0, 1), (1, 2), (2, 4)]) = .uncorrectable ∧
    (tierCode 0).decode (State.reset.patternOf 0 7 struckWord) = .clean struckWord ∧
    (sOdd.pageOfLine 0 65) = some (1, pageAt 0 none none) := by decide +kernel

/-- No die in service has room: every die is fenced. -/
theorem wit_MemoryUpkeep_full : (((sPage (pageAt 16 none (some 0))).dieOrder 0).findSome? (fun e =>
    ({ sPage (pageAt 16 none (some 0)) with dict := (List.range 8).map (fun d => (objKey 0x8010 d, 1)) } : State).allocOnDie e 16 0)).isNone = true := by decide +kernel

/-- A merged tile of 4,096 bytes at the base of an INT8 region, whose descriptor has begun; one of which the holder waits to read the tile. -/
def sMerge (merged : Option (List Byte)) : State := { coreOf { kRun with tmQ := ⟨1, [], [1], []⟩ } with
  blobs := [(objKey 0x6010 0, leBytes 8 0 ++ wordsLE [16, 8])],
  mem := { Tiered.reset with
    pages := [(1, some { pageAt 0 none none with poison := [] })],
    locks := [(0, [⟨.core 0, some (descOf []), 0, [9], merged⟩])] } }

theorem wit_MemoryUpkeep_lock (o : Option (List Byte)) : mget [] (sMerge o).mem.locks 0 = [⟨.core 0, some (descOf []), 0, [9], o⟩] ∧
    (∃ r, (sMerge o).regionAt 0 = some r ∧ (0 - r.base) % r.form.stride = 0 ∧ (List.replicate 4096 (7 : Byte)).length = r.form.raw ∧
      Merge.whole ⟨.core 0, some (descOf []), 0, [9], none⟩ 0 r = false) ∧
    (sMerge o).page ((sMerge o).pageKey 0) ≠ none ∧ (sMerge o).mergeOpen ⟨.core 0, some (descOf []), 0, [9], o⟩ = true ∧
    ∀ e ∈ (sMerge o).mem.locks, e.1 = 0 := by
  have g : (sMerge o).regionAt 0 = (sMerge none).regionAt 0 := rfl
  have h : (sMerge o).regionAt 0 = (sMerge none).regionAt 0 ∧ (sMerge o).pageKey 0 = (sMerge none).pageKey 0 :=
    ⟨g, by unfold State.pageKey; rw [g]⟩
  refine ⟨rfl, ⟨⟨0, 16, ⟨8, false, 0, 0⟩⟩, h.1.trans (by decide +kernel), by decide, ?_, by decide +kernel⟩, ?_, rfl, ?_⟩
  · rw [List.length_replicate]; decide +kernel
  · rw [h.2]; exact (by decide +kernel : (sMerge none).page ((sMerge none).pageKey 0) ≠ none)
  · intro e he; simp only [sMerge, List.mem_singleton] at he; rw [he]

theorem wit_MemoryUpkeep_reads : PieceSound (sMerge none) (.core 0) ((sMerge none).pieceAt 0 4096) := by
  refine ⟨by decide +kernel, by decide +kernel, by decide +kernel, by decide +kernel, fun g h => ?_⟩
  have e : (sMerge none).mem.errors = [] := rfl
  simp [State.errorLines, e]

/-! Security. -/

theorem wit_Security : Ready sOther (wr 0x9021 1 (List.replicate 32 5)) 0x9021 1 (begun sOther (wr 0x9021 1 (List.replicate 32 5))) ∧
    (begun sOther (wr 0x9021 1 (List.replicate 32 5))).hasKey 0 = true ∧ Ready sOther (wr 0x9021 1 [5]) 0x9021 1 (begun sOther (wr 0x9021 1 [5])) ∧
    OwnerWrites sOwned (wr 0x9003 1 [1]) 0x9003 1 (begun sOwned (wr 0x9003 1 [1])) ∧
    OwnerWrites (withSession true (sTree .member 1)) (wr 0x9003 1 [1]) 0x9003 1 (begun (withSession true (sTree .member 1)) (wr 0x9003 1 [1])) ∧
    sOwned.ckpt.cut = none ∧ leNat [(1 : Byte)] = 1 :=
  ⟨ready_of (by decide +kernel), by decide +kernel, ready_of (by decide +kernel), owner_of (by decide +kernel), owner_of (by decide +kernel), rfl, by decide⟩

/-- An owner has had the identity key erased. -/
def sErased : State := { sOther with sec := { sOther.sec with held := [1, 2] } }
theorem wit_Security_erased : Ready sErased (wr 0x9021 1 (List.replicate 32 5)) 0x9021 1 (begun sErased (wr 0x9021 1 (List.replicate 32 5))) ∧
    (begun sErased (wr 0x9021 1 (List.replicate 32 5))).hasKey 0 = false := ⟨ready_of (by decide +kernel), by decide +kernel⟩

theorem wit_Security_update : ∀ st ∈ [0, 1], OwnerWrites (sLoad st []) (wr 0x9003 2 (leBytes 4 0)) 0x9003 2 (begun (sLoad st []) (wr 0x9003 2 (leBytes 4 0))) ∧
    (begun (sLoad st []) (wr 0x9003 2 (leBytes 4 0))).windowStatus [] ≠ 0 := by
  intro st h
  simp only [List.mem_cons, List.not_mem_nil, or_false] at h
  rcases h with rfl | rfl <;> exact ⟨owner_of (by decide +kernel), by decide +kernel⟩

/-- A public key of zeros. -/
def zeroKey : List Byte := List.replicate 1312 0

/-- A bank image of one empty image of a type: it passes where the part holds its key's digest and the signature verifies. -/
def imageHead (ty : Nat) : List Byte := wordsLE [0x4E39494D, 1 + ty * 2 ^ 16, 0, 0, 0, 0]
def imageOf (ty : Nat) : List Byte := imageHead ty ++ (sha3 [] ++ (sha3 zeroKey ++ (List.replicate 40 0 ++ (zeroKey ++ List.replicate 2420 0))))
def recordOf : List Byte := wordsLE ([0x4E39424B, 1, 1] ++ List.replicate 12 0)
def bankOf (ty : Nat) : List Byte := (recordOf ++ leBytes 4 (crc32 recordOf)) ++ imageOf ty

theorem zeroKey_length : zeroKey.length = 1312 := List.length_replicate
theorem imageOf_length (ty : Nat) : (imageOf ty).length = 3860 := by
  simp only [imageOf, imageHead, List.length_append, wordsLE_length, sha3_length, List.length_replicate, zeroKey_length, List.length_cons, List.length_nil]

theorem imageOf_parts (ty : Nat) : (imageOf ty).drop 24 = sha3 [] ++ (sha3 zeroKey ++ (List.replicate 40 0 ++ (zeroKey ++ List.replicate 2420 0))) ∧
    (imageOf ty).drop 56 = sha3 zeroKey ++ (List.replicate 40 0 ++ (zeroKey ++ List.replicate 2420 0)) ∧
    (imageOf ty).drop 88 = List.replicate 40 0 ++ (zeroKey ++ List.replicate 2420 0) ∧ (imageOf ty).drop 128 = zeroKey ++ List.replicate 2420 0 := by
  have h1 : (imageOf ty).drop 24 = sha3 [] ++ (sha3 zeroKey ++ (List.replicate 40 0 ++ (zeroKey ++ List.replicate 2420 0))) :=
    List.drop_left' (by simp only [imageHead, wordsLE_length, List.length_cons, List.length_nil])
  have h2 : (imageOf ty).drop 56 = sha3 zeroKey ++ (List.replicate 40 0 ++ (zeroKey ++ List.replicate 2420 0)) := by
    rw [show 56 = 24 + 32 from rfl, ← List.drop_drop, h1]; exact List.drop_left' (sha3_length _)
  have h3 : (imageOf ty).drop 88 = List.replicate 40 0 ++ (zeroKey ++ List.replicate 2420 0) := by
    rw [show 88 = 56 + 32 from rfl, ← List.drop_drop, h2]; exact List.drop_left' (sha3_length _)
  refine ⟨h1, h2, h3, ?_⟩
  rw [show 128 = 88 + 40 from rfl, ← List.drop_drop, h3]; exact List.drop_left' List.length_replicate

theorem wd_append (a b : List Byte) (i : Nat) (h : 4 * i + 4 ≤ a.length) : wd (a ++ b) i = wd a i := by
  unfold wd fld
  rw [List.drop_append_of_le_length (by omega), List.take_append_of_le_length (by rw [List.length_drop]; omega)]

theorem imageOf_ok (ty : Nat) (s : State) (hs : s.obj 0x1012 ty = 0) (ht : ty ∈ [2, 3]) (hd : sha3 zeroKey ∈ Config.romDigests)
    (hv : ∀ k m g, Config.mldsaVerify k m g = true) : s.imageOk (imageOf ty) = true := by
  have w : ∀ i, i < 6 → wd (imageOf ty) i = wd (imageHead ty) i := fun i h =>
    wd_append _ _ _ (by simp only [imageHead, wordsLE_length, List.length_cons, List.length_nil]; omega)
  obtain ⟨p1, p2, p3, p4⟩ := imageOf_parts ty
  have h : ∀ t ∈ [2, 3], wd (imageHead t) 0 = 0x4E39494D ∧ wb (imageHead t) 1 0 16 = 1 ∧ imgType (imageHead t) = t ∧ wb (imageHead t) 5 16 16 = 0 ∧
      wd (imageHead t) 4 = 0 ∧ wb (imageHead t) 5 0 16 = 0 ∧ 1 ≤ t ∧ t ≤ 6 := by decide +kernel
  obtain ⟨h1, h2, h3, h4, h5, h6, h7, h8⟩ := h ty ht
  have q1 : ((imageOf ty).drop 24).take 32 = sha3 [] := by rw [p1]; exact List.take_left' (sha3_length _)
  have q2 : ((imageOf ty).drop 56).take 32 = sha3 zeroKey := by rw [p2]; exact List.take_left' (sha3_length _)
  have q3 : (((imageOf ty).drop 88).take 40).all (fun x => x = 0) = true := by rw [p3, List.take_left' List.length_replicate]; decide +kernel
  have q4 : ((imageOf ty).drop 128).take 1312 = zeroKey := by rw [p4]; exact List.take_left' zeroKey_length
  have q5 : (imageOf ty).drop 3860 = [] := List.drop_eq_nil_of_le (Nat.le_of_eq (imageOf_length ty))
  have r1 : imgType (imageOf ty) = ty := by unfold imgType wb at h3 ⊢; rw [w 1 (by decide)]; exact h3
  simp only [wb] at h2 h4 h6
  simp only [State.imageOk, q1, q2, q3, q4, q5, r1, wb, w 0 (by decide), w 1 (by decide), w 4 (by decide), w 5 (by decide), h1, h2, h4, h5, h6, h7, h8, hs, hv]
  simp [hd]

theorem wit_Security_passes (hd : sha3 zeroKey ∈ Config.romDigests) (hv : ∀ k m g, Config.mldsaVerify k m g = true) (s : State) (hs : s.obj 0x1012 2 = 0) :
    s.windowStatus (bankOf 2) = 0 := by
  have l : (recordOf ++ leBytes 4 (crc32 recordOf)).length = 64 := by decide +kernel
  have t : (bankOf 2).take 64 = recordOf ++ leBytes 4 (crc32 recordOf) := List.take_left' l
  have d : (bankOf 2).drop 64 = imageOf 2 := List.drop_left' l
  have n : ¬ (bankOf 2).length < 64 := by rw [bankOf, List.length_append, l]; omega
  have k : bankOk (recordOf ++ leBytes 4 (crc32 recordOf)) = true ∧ bankCount (recordOf ++ leBytes 4 (crc32 recordOf)) = 1 ∧
      ∀ x, imageOffsets (recordOf ++ leBytes 4 (crc32 recordOf)) x = [0] := ⟨by decide +kernel, by decide +kernel, fun x => rfl⟩
  have w : wd (imageOf 2) 4 = 0 := by
    rw [imageOf, wd_append _ _ _ (by decide)]; decide
  have z : imageSize (imageOf 2) = 3860 := by rw [imageSize, w]
  have g := imageOf_ok 2 s hs (by decide) hd hv
  have i : (imageOf 2).take 3860 = imageOf 2 := List.take_of_length_le (Nat.le_of_eq (imageOf_length 2))
  simp only [State.windowStatus, t, d, bankEnd, bankImages, k.2.2, k.1, k.2.1, List.foldl_cons, List.foldl_nil, List.map_cons, List.map_nil, List.drop_zero, z,
    imageOf_length, i, List.all_cons, List.all_nil, g, n]
  decide

/-- A boot bank with one microcode image, for a rejoin. -/
def sMicro : State := { State.reset with sec := { State.reset.sec with records := [(0, recordOf ++ leBytes 4 (crc32 recordOf))], banks := [(0, imageOf 3)] } }

theorem wit_DiesAndCores_microcode (hd : sha3 zeroKey ∈ Config.romDigests) (hv : ∀ k m g, Config.mldsaVerify k m g = true) : sMicro.microcode ≠ none := by
  have b : sMicro.bootBank = 0 := by decide +kernel
  have k : ∀ x, imageOffsets (recordOf ++ leBytes 4 (crc32 recordOf)) x = [0] := fun x => rfl
  have w : wd (imageOf 3) 4 = 0 ∧ imgType (imageOf 3) = 3 := by
    rw [imgType, wb, imageOf, wd_append _ _ _ (by decide), wd_append _ _ _ (by decide)]; decide
  have z : imageSize (imageOf 3) = 3860 := by rw [imageSize, w.1]
  have g := imageOf_ok 3 sMicro (by decide +kernel) (by decide) hd hv
  have i : (imageOf 3).take 3860 = imageOf 3 := List.take_of_length_le (Nat.le_of_eq (imageOf_length 3))
  have r : mget [] sMicro.sec.records 0 = recordOf ++ leBytes 4 (crc32 recordOf) := rfl
  have m : mget [] sMicro.sec.banks 0 = imageOf 3 := rfl
  simp [State.microcode, b, r, m, bankImages, k, z, i, w.2, g]

theorem wit_Security_alarm : State.reset.armed 0 0 = true ∧ State.reset.armed 2 9 = false ∧ State.reset.obj 0x1012 2 = 0 ∧
    State.reset.alarmLevel = 0 ∧ (State.reset.setObj 0x9020 1 1).alarmLevel = 1 ∧ State.reset.sec.raised = [] ∧ (∃ k, k < 4 ∧ State.reset.sensorLevel k = 0) ∧
    (∃ k, k < 4 ∧ 1 ≤ ({ State.reset with ob := (factoryOb .hn9_8x).take 60 ++ leBytes 4 2 ++ (factoryOb .hn9_8x).drop 64 } : State).sensorLevel k) := by decide +kernel

theorem wit_Security_recovery : ({ sPhase .recovery [] with pf0 := [(0x10, 8192)] } : State).power.phase = .recovery ∧
    (bankOf 2).length ≤ ({ sPhase .recovery [] with pf0 := [(0x10, 8192)] } : State).pf0Reg 0x10 - 0 ∧
    ({ sPhase .recovery [] with pf0 := [(0x10, 8192)] } : State).windowStatus [] ≠ 0 := by
  refine ⟨rfl, ?_, by decide +kernel⟩
  rw [bankOf, List.length_append, imageOf_length, show (recordOf ++ leBytes 4 (crc32 recordOf)).length = 64 by decide +kernel]
  decide +kernel

/-! Ports. -/

/-- Port 0 in a state, in use between positions 0 and 5. -/
def sPort (st : Nat) (p : Port) : State := { sTree .member 1 with ports := [(0, p)], dict := (sTree .member 1).dict ++ [(objKey 0x7002 0, st), (objKey 0x7020 0, 5 + 2 ^ 15)] }
def keysAt (stage : Nat) : LinkKeys := ⟨[], [], [], 5, 0, 0, [], [], [], stage⟩
def pFrame (seq : Nat) (good : Bool) : PortFrame := ⟨good, false, 0, 0, seq, 0, false, 0, 0, 0, []⟩

theorem wit_Ports_train : (sPhase .powerOn []).canTrain 0 = false ∧ State.reset.canTrain 0 = true ∧ portWidth (1 &&& 2) = 0 ∧ portWidth (15 &&& 15) ≠ 0 ∧
    State.reset.hasKey 0 = true ∧ (State.reset.port 0).tries < 4 ∧ 4 ≤ ((sPort 1 { Port.reset with tries := 4 }).port 0).tries := by decide +kernel

theorem wit_Ports_boundary : (sPort 3 Port.reset).cas.adopting = false ∧ (sQueued (rxQueue (portDomain 0)) 16).boundaryFull (rxQueue (portDomain 0)) = true ∧
    (sPort 3 Port.reset).boundaryFull (rxQueue (portDomain 0)) = false ∧ ({ sPort 3 Port.reset with cas := { Cascade.reset with adopting := true } } : State).cas.adopting = true ∧
    ∀ n ∈ [3, 16], ((sQueued (txQueue (portDomain 0)) n).boundary (txQueue (portDomain 0))).length ≤ boundaryDepth := by decide +kernel

theorem wit_Ports_auth : (∀ k ∈ [1, 2, 3, 4], (sPort 2 { Port.reset with auth := some (keysAt k) }).obj 0x7002 0 = 2 ∧
      ((sPort 2 { Port.reset with auth := some (keysAt k) }).port 0).auth = some (keysAt k)) ∧
    certOk [] = false ∧ initiates 0 0 5 0 = true ∧ initiates 0 0 0 0 = false ∧ (sPort 2 Port.reset).hasKey 0 = true ∧
    bitOf ((sPort 2 Port.reset).obj 0x7020 0) 15 = true ∧ bits ((sPort 2 Port.reset).obj 0x7020 0) 0 15 = (keysAt 4).peerPos % 4096 + (keysAt 4).peerPort % 8 * 2 ^ 12 ∧
    bits ((sPort 2 Port.reset).obj 0x7020 0) 0 15 ≠ ({ keysAt 4 with peerPos := 6 } : LinkKeys).peerPos % 4096 := by decide +kernel

theorem wit_Ports_cert (h : ∀ k m g, Config.mldsaVerify k m g = true) : certOk (List.replicate 3733 0) = true := by
  unfold certOk
  simp only [h, List.length_replicate]; decide

theorem wit_Ports_frames : (sPort 3 Port.reset).obj 0x7002 0 = 3 ∧ (∀ v, v < 4 → Port.reset.ready v = false) ∧
    ({ Port.reset with tx := [(0, [[1, 2]])] } : Port).ready 0 = true ∧ Port.reset.unacked.length < 256 ∧
    (pFrame 0 true).seq = (Port.reset.last + 1) % 4096 ∧ (pFrame 3 true).seq ≠ (Port.reset.last + 1) % 4096 ∧ (pFrame 0 false).crcGood = false ∧
    Port.reset.gap = false ∧ ({ Port.reset with gap := true } : Port).gap = true := by decide +kernel

/-- A permute record for position 9, which CTRL_ROUTE reaches by port 2, at a package of another position. -/
def bkgRecord : List Byte := leBytes 4 (5 + 36 * 256) ++ wordsLE [3 * 2 ^ 12, 0, 0, 0, 0, 0, 0, 0]
def sForward : State := { sPort 3 Port.reset with
  blobs := [(objKey 0x4033 0, wordsLE [0, 9 * 2 ^ 16, 0, 0, 0, 0, 1, 0]), (objKey 0x7021 0, List.replicate 9 0xFF ++ [2])] }
def forwardFrame : PortFrame := { pFrame 0 true with pvc := 3, payload := bkgRecord }
theorem wit_Ports_forward : forwardFrame.seq = ((sForward.port 0).last + 1) % 4096 ∧ (takeRecords 3 36 bkgRecord).1 = [bkgRecord] ∧
    sForward.bkgDest bkgRecord = 9 ∧ sForward.position ≠ 9 ∧ sForward.route 9 = some 2 := by decide +kernel
theorem test_bkg_forwarded : (match exec (.portFrameReceive 0 forwardFrame) sForward with
    | .next t => decide (mget [] (t.port 2).tx 3 = [bkgRecord]) && decide (t.out = sForward.out)
    | _ => false) = true := by decide +kernel

theorem wit_Ports_down : (sPort 4 Port.reset).job.st = 1 ∧ (sPort 4 Port.reset).job.left = false ∧ 0 < (sPort 4 Port.reset).part.ports ∧
    bitOf ((sPort 4 Port.reset).obj 0x7020 0) 15 = true ∧ (sPort 4 Port.reset).obj 0x7002 0 ≠ 3 ∧ Port.reset.downAt = none ∧ (sPort 4 Port.reset).job.attempt = 2 ∧
    ({ Port.reset with downAt := some 1, downRun := 2 } : Port).downRun = 2 := by decide +kernel

/-- The port's third report in three attempts, from the higher of its two positions. -/
theorem wit_Ports_leaves : bits (({ sPort 4 { Port.reset with downAt := some 1, downRun := 2 } with
    dict := [(objKey 0x4030 3, 7), (objKey 0x7020 0, 5 + 2 ^ 15)] } : State).obj 0x7020 0) 0 12 <
    ({ sPort 4 { Port.reset with downAt := some 1, downRun := 2 } with dict := [(objKey 0x4030 3, 7), (objKey 0x7020 0, 5 + 2 ^ 15)] } : State).obj 0x4030 3 := by decide +kernel

/-! The host. -/

theorem wit_HostSide : State.reset.power.phase = .run ∧ (sPhase .recovery []).power.phase = .recovery ∧ 7 ∈ State.reset.power.locked ∧
    (sCut .member (hShard [] [] 0)).ckpt.cut = some (cCut (hShard [] [] 0)) ∧ (cCut (hShard [] [] 0)).goes 0 = true ∧
    ringSizeOk 64 = true ∧ ringSizeOk 65 = false ∧ bitOf (State.reset.pf0Reg 0x2C) 0 = false ∧ State.reset.nap.queue.length < 64 := by decide +kernel

/-- UDP with IPv4 and IPv6 in use; ARP for the package's own address and for another. -/
def sMgmt (flags : Nat) : State := { State.reset with ob := (factoryOb .hn9_8x).take 24 ++ leBytes 4 flags ++ leBytes 4 0x0A000001 ++ (factoryOb .hn9_8x).drop 32 }

theorem wit_HostSide_mgmt : (sMgmt 3).obField 6 1 1 = 1 ∧ (sMgmt 3).obField 7 0 32 = 0x0A000001 ∧ (sMgmt 3).ipv6 = true ∧ (sMgmt 3).ipv4 = true ∧ (sMgmt 0).ipv4 = false ∧
    (parseReq (.udp 1 2) ((frameOf (ask 5 0x1001 1)).bytes [])).isSome = true ∧ (sMgmt 3).mgmtAddr false = 0x0A000001 := by decide +kernel

/-! Invariants and events. -/

/-- A page of data in tiered memory and a core's memory. -/
theorem wit_CanonicalKept : Canonical { coreOf { kRun with sdm := [(0, 1), (0xEE00, 2)], tableCopy := [(0xEE00, 2)] } with mem := { Tiered.reset with cells := [(5, 9)] } } :=
  ⟨by decide, fun c => by
    by_cases h : c = 0
    · subst h; unfold coreCanonical tablesCanonical; decide
    · have hc : ({ coreOf { kRun with sdm := [(0, 1), (0xEE00, 2)], tableCopy := [(0xEE00, 2)] } with mem := { Tiered.reset with cells := [(5, 9)] } } : State).core c = CoreState.reset := by
        simp [State.core, coreOf, mget, Ne.symm h]
      rw [hc]; unfold coreCanonical tablesCanonical; decide⟩

/-- An event counter at its end; a full log; a ring with room and a full one. -/
theorem wit_EventRecords : State.reset.log.count ≠ 0xFFFFFFFF ∧ ({ State.reset with log := { State.reset.log with count := 0xFFFFFFFF } } : State).log.count = 0xFFFFFFFF ∧
    State.reset.nv.writable = true ∧ State.reset.log.records.length < 4096 ∧
    (∀ tail ∈ [0, 1], bitOf (({ State.reset with pf0 := [(0x28, 64), (0x2C, 1), (0x34, tail)] } : State).pf0Reg 0x2C) 0 = true ∧
      ({ State.reset with pf0 := [(0x28, 64), (0x2C, 1), (0x34, tail)] } : State).pf0Reg 0x28 ≠ 0) ∧ (0 + 1) % 64 ≠ 0 % 64 ∧ (0 + 1) % 64 = 1 % 64 := by decide +kernel

/-- The end of an epoch that cannot be stored; a subscriber towards which there is no route. -/
theorem wit_EventRecords_more : ({ State.reset with log := { State.reset.log with count := 0xFFFFFFFF }, nv := { State.reset.nv with writable := false } } : State).epochUnstored
      = true ∧ State.reset.epochUnstored = false ∧ State.reset.unrouted = [] ∧
    ({ sOther with nap := { Nap.reset with
      sessions := [(0, { Session.closed with isOpen := true, gen := 1, carrier := .sideband 3, subscribe := 1 })] } } : State).unrouted = [3] := by
  decide +kernel

theorem wit_DiesAndCores_rejoins : ({ sMicro with dict := [(objKey 0x8010 0, 2)] } : State).refLocked 0 = true ∧
    ({ sMicro with dict := [(objKey 0x8010 0, 2)] } : State).wornStack 0 = false ∧
    ({ sMicro with dict := [(objKey 0x8010 0, 2)] } : State).obj 0x7010 0 ≠ 0 ∧
    firstBelow 8 (fun d => ({ sMicro with dict := [(objKey 0x8010 0, 2)] } : State).obj 0x8010 d = 2) = some 0 ∧
    ({ sMicro with power := { State.reset.power with locked := [] } } : State).refLocked 0 = false := by decide +kernel

end Sys2Proof.Tests
end

section
/-! SUPPORT. Kolfin links, arbiters and boundary queues (R16, R20 to R22, R27, R313 to R315): their laws, and O50 settled. -/

namespace Sys2Proof.Machine

open Sys2Proof.Safety

/-! Links, arbiters and boundary queues: what each reader gives after each writer. -/

@[simp] theorem State.link_setLink_self (s : State) (n : Nat) (l : Link) : (s.setLink n l).link n = l := mget_mset_self ..

theorem State.link_setLink (s : State) (n m : Nat) (l : Link) : (s.setLink n l).link m = if n = m then l else s.link m := mget_mset ..

@[simp] theorem State.setLink_obj (s : State) (n : Nat) (l : Link) (i m : Nat) : (s.setLink n l).obj i m = s.obj i m := rfl
@[simp] theorem State.setLink_out (s : State) (n : Nat) (l : Link) : (s.setLink n l).out = s.out := rfl
@[simp] theorem State.setObj_link (s : State) (i n v m : Nat) : (s.setObj i n v).link m = s.link m := rfl
@[simp] theorem State.addObj_link (s : State) (i n w v m : Nat) : (s.addObj i n w v).link m = s.link m := rfl
@[simp] theorem State.emit_link (s : State) (o : Output) (m : Nat) : (s.emit o).link m = s.link m := rfl
@[simp] theorem State.emit_arb (s : State) (o : Output) (e : Nat) : (s.emit o).arb e = s.arb e := rfl
@[simp] theorem State.emit_out (s : State) (o : Output) : (s.emit o).out = s.out ++ [o] := rfl
@[simp] theorem State.setArb_out (s : State) (e : Nat) (a : Arbiter) : (s.setArb e a).out = s.out := rfl

@[simp] theorem State.arb_setArb_self (s : State) (e : Nat) (a : Arbiter) : (s.setArb e a).arb e = a := mget_mset_self ..

theorem State.arb_setArb_ne (s : State) {e f : Nat} (a : Arbiter) (h : e ≠ f) : (s.setArb e a).arb f = s.arb f :=
  mget_mset_ne _ _ a h

theorem State.serving_of_run {s : State} (h : s.power.phase = .run) : s.serving = true := decide_eq_true h

theorem part_dies_le (p : Part) : p.dies ≤ 8 := by cases p <;> decide

theorem State.hasLink_lt {s : State} {n : Nat} (h : s.hasLink n = true) : n < 8 ∨ 0x10 ≤ n ∧ n < 0x18 := by
  have := part_dies_le s.part
  simp only [State.hasLink, Bool.or_eq_true, Bool.and_eq_true, decide_eq_true_eq] at h
  omega

theorem State.linkRuns_iff {s : State} {n : Nat} :
    s.linkRuns n = true ↔ s.hasLink n = true ∧ ((s.link n).st = .up ∨ (s.link n).st = .limping) := by
  simp [State.linkRuns]

/-- A state whose boundary queues alone differ. -/
def OnlyBoundary (s t : State) : Prop := t = { s with bq := t.bq }

theorem OnlyBoundary.trans {s t u : State} (h : OnlyBoundary s t) (g : OnlyBoundary t u) : OnlyBoundary s u := by
  unfold OnlyBoundary at *
  rw [g, h]

theorem OnlyBoundary.out {s t : State} (h : OnlyBoundary s t) : t.out = s.out := by
  rw [h]

theorem OnlyBoundary.arb {s t : State} (h : OnlyBoundary s t) (e : Nat) : t.arb e = s.arb e := by
  rw [h]
  rfl

theorem State.boundaryTake_frame (s : State) (k : Nat) : OnlyBoundary s ((s.boundaryTake k).elim s (fun x => x.2)) := by
  unfold State.boundaryTake
  cases s.boundary k <;> rfl

theorem State.boundaryPut_frame (s : State) (k : Nat) (e : List Byte) : OnlyBoundary s ((s.boundaryPut k e).getD s) := by
  unfold State.boundaryPut
  split <;> rfl

/-- Sending towards an interface changes the boundary queues alone. -/
theorem State.boundarySend_frame (s : State) (d : Nat) (e : List Byte) : OnlyBoundary s (s.boundarySend d e) := by
  unfold State.boundarySend
  simp only
  split
  · exact (s.boundaryTake_frame _).trans (State.boundaryPut_frame _ _ e)
  · exact s.boundaryPut_frame _ e

/-- An entry put in a queue with room stands last. -/
theorem State.boundary_boundaryPut (s : State) (k : Nat) (e : List Byte) (h : (s.boundary k).length < boundaryDepth) :
    ((s.boundaryPut k e).getD s).boundary k = s.boundary k ++ [e] := by
  have hroom : s.boundaryFull k = false := by simpa [State.boundaryFull] using h
  simp [State.boundaryPut, hroom, State.boundary]

/-- The oldest entry is read first. -/
theorem State.boundary_boundaryTake (s : State) (k : Nat) :
    ((s.boundaryTake k).elim s (fun x => x.2)).boundary k = (s.boundary k).drop 1 := by
  unfold State.boundaryTake
  cases h : s.boundary k with
  | nil => exact h
  | cons e rest => exact mget_mset_self ..

/-- An entry sent goes behind those that wait; the oldest is read first from a full queue (R27). -/
theorem State.boundary_boundarySend (s : State) (d : Nat) (e : List Byte) (h : (s.boundary (txQueue d)).length ≤ boundaryDepth) :
    (s.boundarySend d e).boundary (txQueue d) =
      (if s.boundaryFull (txQueue d) then (s.boundary (txQueue d)).drop 1 else s.boundary (txQueue d)) ++ [e] := by
  unfold State.boundarySend
  cases hf : s.boundaryFull (txQueue d) with
  | true =>
    simp only [hf, if_true]
    rw [State.boundary_boundaryPut, State.boundary_boundaryTake]
    rw [State.boundary_boundaryTake, List.length_drop]
    have : boundaryDepth = 16 := rfl
    omega
  | false =>
    simp only [hf, Bool.false_eq_true, if_false]
    exact s.boundary_boundaryPut _ e (by simpa [State.boundaryFull] using hf)

/-! Recording an event: the log, and what it leaves of links and objects. -/

theorem State.telemetry_log (s : State) (r : List Byte) : (s.telemetry r).log = s.log := by
  unfold State.telemetry
  simp only
  split
  · rfl
  · split
    · exact State.setPf0_log _ _ _
    · split <;> simp only [State.interrupt, State.emit_log, State.setPf0_log]

theorem State.notify_log (s : State) (r : List Byte) : (s.notify r).log = s.log := by
  refine foldl_keeps (fun u => u.log) _ (fun u e => ?_) _ s
  simp only
  split
  · rfl
  · unfold State.sideband
    split <;> rfl
  · rfl

/-- A record put in the log is its newest, and its numbering goes on. -/
theorem State.logRecord_log (s : State) (r : List Byte) :
    (s.logRecord r).log.records.getLast? = some r ∧ (s.logRecord r).log.epoch = s.log.epoch ∧
      (s.logRecord r).log.count = s.log.count := by
  unfold State.logRecord
  split
  · exact ⟨List.getLast?_concat .., rfl, rfl⟩
  · exact ⟨List.getLast?_concat .., rfl, rfl⟩

theorem State.recordOne_log (s : State) (e : Event) : (s.recordOne e).log.records.getLast? =
    some (e.record (s.recordOne e).log.epoch (s.recordOne e).log.count s.job.step s.position) := by
  have key : ∀ r : List Byte, (((s.nextSeq.logRecord r).telemetry r).notify r).log = (s.nextSeq.logRecord r).log := fun r => by
    rw [State.notify_log, State.telemetry_log]
  have last := s.nextSeq.logRecord_log (e.record s.nextSeq.log.epoch s.nextSeq.log.count s.job.step s.position)
  obtain ⟨hlast, hepoch, hcount⟩ := last
  have hlog : (s.recordOne e).log =
      (s.nextSeq.logRecord (e.record s.nextSeq.log.epoch s.nextSeq.log.count s.job.step s.position)).log := by
    unfold State.recordOne
    simp only
    split <;> exact key _
  rw [hlog, hlast, hepoch, hcount]

theorem State.record_lastEvent (s : State) (e : Event) : LastEvent s (s.record e) e := by
  intro hu he
  have h1 : s.record e = s.recordOne e := by simp [State.record, hu, he]
  rw [h1]
  exact s.recordOne_log e

/-- `s` and `w` would record an event alike: in one step, at one position, with the same numbering, subscribers and routes. -/
structure RecordAlike (s w : State) : Prop where
  routes   : w.unrouted = s.unrouted
  epoch    : w.epochUnstored = s.epochUnstored
  step     : w.job.step = s.job.step
  position : w.position = s.position

theorem RecordAlike.trans {s t u : State} (h : RecordAlike s t) (g : RecordAlike t u) : RecordAlike s u :=
  ⟨g.routes.trans h.routes, g.epoch.trans h.epoch, g.step.trans h.step, g.position.trans h.position⟩

theorem RecordAlike.setLink (s : State) (n : Nat) (l : Link) : RecordAlike s (s.setLink n l) := ⟨rfl, rfl, rfl, rfl⟩

/-- JOB_POSITION is 0x4030 sub-index 1. -/
theorem RecordAlike.setObj (s : State) {i n : Nat} (v : Nat) (h : 0x403100 ≤ i * 256 + n) : RecordAlike s (s.setObj i n v) :=
  ⟨rfl, rfl, rfl, s.obj_setObj_ne v (by simp only [objKey]; omega)⟩

theorem RecordAlike.lastEvent {s w t : State} {e : Event} (h : RecordAlike s w) (g : LastEvent w t e) : LastEvent s t e := by
  obtain ⟨hroutes, hepoch, hstep, hposition⟩ := h
  intro h1 h2
  rw [← hstep, ← hposition]
  exact g (hroutes.trans h1) (hepoch.trans h2)

theorem Logs.link {s t : State} (h : Logs s t) (n : Nat) : t.link n = s.link n := by
  obtain ⟨h, -⟩ := h
  rw [h]; rfl

theorem State.record_link (s : State) (e : Event) (n : Nat) : (s.record e).link n = s.link n := (Logs.record s e).link n

theorem State.record_obj (s : State) (e : Event) {i n : Nat} (h : objKey i n ≠ 0xB00204) : (s.record e).obj i n = s.obj i n := by
  obtain ⟨-, hobj, -⟩ := Logs.record s e
  exact hobj i n h

/-! What a link's failure keeps of the receivers: a retrain, width 0 and the fence of a die (R313, R315, R317). -/

/-- Every receiver of `t` expects the frame that it expects in `s`, the replays asked for stand as in `s`, and `t` has sent what `s`
has, then more. -/
def KeepsReceivers (s t : State) : Prop :=
  t.part = s.part ∧ (∀ n, (t.link n).rxSeq = (s.link n).rxSeq) ∧ (∀ n, n < 0x100 → t.obj 0x8016 n = s.obj 0x8016 n) ∧
    ∃ l, t.out = s.out ++ l

namespace KeepsReceivers

theorem refl (s : State) : KeepsReceivers s s := ⟨rfl, fun _ => rfl, fun _ _ => rfl, [], by simp⟩

theorem trans {s t u : State} (h : KeepsReceivers s t) (g : KeepsReceivers t u) : KeepsReceivers s u := by
  obtain ⟨hpart, hseq, hobj, l, hout⟩ := h
  obtain ⟨gpart, gseq, gobj, m, gout⟩ := g
  exact ⟨gpart.trans hpart, fun n => (gseq n).trans (hseq n), fun n hn => (gobj n hn).trans (hobj n hn), l ++ m,
    by rw [gout, hout, List.append_assoc]⟩

/-- A change of what no receiver has a part in. -/
theorem of_eq {s t : State} (hpart : t.part = s.part) (hlinks : t.links = s.links) (hdict : t.dict = s.dict) (hout : t.out = s.out) :
    KeepsReceivers s t :=
  ⟨hpart, fun n => by simp only [State.link, hlinks], fun n _ => by simp only [State.obj, hpart, hdict], [], by simp [hout]⟩

theorem foldl {α : Type} (f : State → α → State) (l : List α) (hf : ∀ x ∈ l, ∀ s, KeepsReceivers s (f s x)) (s : State) :
    KeepsReceivers s (l.foldl f s) := by
  induction l generalizing s with
  | nil => exact refl s
  | cons x l ih =>
    exact (hf x (by simp) s).trans (ih (fun y hy => hf y (by simp [hy])) (f s x))

theorem of_logs {s t : State} (h : Logs s t) : KeepsReceivers s t := by
  have hlink := h.link
  obtain ⟨hfr, hobj, hout⟩ := h
  exact ⟨by rw [hfr], fun n => by rw [hlink], fun n hn => hobj _ _ (by simp only [objKey]; omega), hout⟩

theorem setObj (s : State) {i n : Nat} (v : Nat) (h : i * 256 + n < 0x801600) : KeepsReceivers s (s.setObj i n v) :=
  ⟨rfl, fun _ => rfl, fun m _ => s.obj_setObj_ne v (by simp only [objKey]; omega), [], by simp⟩

theorem setLink (s : State) {n : Nat} {l : Link} (h : l.rxSeq = (s.link n).rxSeq) : KeepsReceivers s (s.setLink n l) := by
  refine ⟨rfl, fun m => ?_, fun _ _ => rfl, [], by simp⟩
  rw [State.link_setLink]
  split
  · next e => rw [← e, h]
  · rfl

theorem setCore (s : State) (c : Nat) (k : CoreState) : KeepsReceivers s (s.setCore c k) := of_eq rfl rfl rfl rfl

theorem token (s : State) {c : Nat} (tag q eng code detail : Nat) (h : c < 0x100) : KeepsReceivers s (s.token c tag q eng code detail) := by
  unfold State.token
  simp only
  split
  · exact setCore ..
  · exact setObj _ _ (by omega)

theorem failDesc (s : State) {c : Nat} (q : Nat) (d : Desc) (code detail : Nat) (h : c < 0x100) :
    KeepsReceivers s (s.failDesc c q d code detail) := (setCore s _ _).trans (token _ _ _ _ _ _ h)

theorem absentCore (s : State) {c : Nat} (d : Nat) (h : c < 0x100) : KeepsReceivers s (s.absentCore c d) :=
  foldl _ _ (fun q _ t => foldl _ _ (fun x _ u => failDesc u q x _ _ h) t) s

theorem moveQueues (s : State) (a b : Nat) : KeepsReceivers s (s.moveQueues a b) := by
  unfold State.moveQueues
  simp only
  split
  · exact refl s
  · exact of_eq rfl rfl rfl rfl

theorem linkDown (s : State) {n : Nat} (h : n < 0x98) : KeepsReceivers s (s.linkDown n) := by
  have hst : KeepsReceivers s (s.setLink n { s.link n with st := .down }) := setLink s rfl
  have hdown : KeepsReceivers s ((s.setLink n { s.link n with st := .down }).setObj 0x7010 n 0) := hst.trans (setObj _ _ (by omega))
  unfold State.linkDown
  simp only
  split
  · exact hdown
  · exact (hdown.trans (moveQueues ..)).trans (moveQueues ..)

theorem setJobState (s : State) (v : Nat) : KeepsReceivers s (s.setJobState v) := by
  have hjob : KeepsReceivers s { s with job := { s.job with st := v } } := of_eq rfl rfl rfl rfl
  unfold State.setJobState
  split
  · exact refl s
  · exact hjob.trans (of_logs (Logs.interrupt _ _))

theorem leaveJob (s : State) : KeepsReceivers s s.leaveJob := by
  have hleft : KeepsReceivers s { s.restartCores with job := { s.job with left := true } } := of_eq rfl rfl rfl rfl
  exact hleft.trans (setJobState _ 0)

theorem event (s : State) (e : Event) : KeepsReceivers s (s.event e) := by
  cases h : e.selfLost with
  | false => exact of_logs (Logs.event s e h)
  | true =>
    have hpin : KeepsReceivers s { s.record e with power := { (s.record e).power with faultN := true } } :=
      (of_logs (Logs.record s e)).trans (of_eq rfl rfl rfl rfl)
    unfold State.event
    simp only [h, if_true]
    split
    · exact (hpin.trans (of_logs (Logs.command _ _ _ _ _))).trans (leaveJob _)
    · exact hpin

theorem tribAndCores (s : State) (x : Trib) (cs : SMap CoreState) : KeepsReceivers s { s with trib := x, cores := cs } :=
  of_eq rfl rfl rfl rfl

/-- The cores of a fenced die: their states kept for the host, their descriptors completed (R317). -/
theorem fencedCores (s : State) {d : Nat} (h : d < 8) : KeepsReceivers s ((List.range 14).foldl (fun (t : State) (c : Nat) =>
    (t.setObj 0x4012 (16 * d + c) (t.core (16 * d + c)).run.code).absentCore (16 * d + c) d) s) := by
  refine foldl _ _ (fun c hc t => ?_) s
  have : c < 14 := List.mem_range.1 hc
  exact (setObj t _ (by omega)).trans (absentCore _ _ (by omega))

theorem fence (s : State) (d cause : Nat) : KeepsReceivers s (s.fence d cause) := by
  unfold State.fence
  split
  · exact refl s
  · next hup =>
    have hparts := part_dies_le s.part
    have hd : d < s.part.dies := by
      by_contra hge
      simp [State.dieUp, hge] at hup
    have hprev : (d + s.part.dies - 1) % s.part.dies < s.part.dies := Nat.mod_lt _ (by omega)
    simp only
    refine KeepsReceivers.trans ?_ (event _ _)
    refine KeepsReceivers.trans ?_ (setObj _ _ (by omega))
    refine KeepsReceivers.trans ?_ (setObj _ _ (by omega))
    have hlinks : KeepsReceivers s ((s.linkDown (0x10 + d)).linkDown (0x10 + (d + s.part.dies - 1) % s.part.dies)) :=
      (linkDown s (by omega)).trans (linkDown _ (by omega))
    have hcores := hlinks.trans (fencedCores _ (d := d) (by omega))
    exact hcores.trans (tribAndCores _ _ _)

theorem linkLost (s : State) {n : Nat} (h : n < 0x98) : KeepsReceivers s (s.linkLost n) := by
  unfold State.linkLost
  simp only
  split
  · exact (linkDown s h).trans (fence ..)
  · exact linkDown s h

theorem replayBudget (s : State) {n : Nat} (asks : List Nat) (h : n < 0x98) : KeepsReceivers s (s.replayBudget n asks) := by
  unfold State.replayBudget
  simp only
  split
  · exact refl s
  · split
    · exact linkLost s h
    · exact setLink s rfl

end KeepsReceivers

/-- A link that does not limp moves no packet when its replays are counted. -/
theorem State.replayBudget_arbs (s : State) (n : Nat) (asks : List Nat) (h : (s.link n).st ≠ .limping) :
    (s.replayBudget n asks).arbs = s.arbs := by
  unfold State.replayBudget
  split
  · rfl
  · simp only [h, if_false]; rfl

/-- More than 16 replays take a link that does not limp back to its lane test (R313). -/
theorem State.replayBudget_retrains (s : State) (n : Nat) (asks : List Nat) (hasks : 16 < asks.length) (h : (s.link n).st ≠ .limping) :
    ((s.replayBudget n asks).link n).st = .testing := by
  unfold State.replayBudget
  rw [if_neg (by omega)]
  simp [h]

/-! Arbiters (R20 to R22). -/

theorem Arbiter.grant_concat (a : Arbiter) (l : List Nat) (c : Nat) : (a.grant (l ++ [c])).credit =
    if l.length < 6 then mset 0 (a.grant l).credit l.length (mget 0 (a.grant l).credit l.length + c) else (a.grant l).credit := by
  simp [Arbiter.grant, List.zipIdx_append]

/-- Each channel's credit grows by what a frame grants it. -/
theorem Arbiter.credit_grant (a : Arbiter) (l : List Nat) {v : Nat} (hv : v < 6) :
    mget 0 (a.grant l).credit v = mget 0 a.credit v + l.getD v 0 := by
  induction l using List.reverseRecOn with
  | nil => rfl
  | append_singleton l c ih =>
    rw [Arbiter.grant_concat]
    have hone : mget 0 (if l.length < 6 then mset 0 (a.grant l).credit l.length (mget 0 (a.grant l).credit l.length + c)
        else (a.grant l).credit) v = mget 0 (a.grant l).credit v + if l.length = v then c else 0 := by
      by_cases he : l.length = v
      · simp [he, hv]
      · split <;> simp [mget_mset, he]
    rw [hone, ih, Nat.add_assoc]
    congr 1
    rcases Nat.lt_trichotomy v l.length with h | rfl | h
    · rw [if_neg (by omega), List.getD_append _ _ _ _ h, Nat.add_zero]
    · simp
    · rw [if_neg (by omega), List.getD_eq_default _ _ (by omega), List.getD_eq_default _ _ (by simp; omega)]

@[simp] theorem Arbiter.add_credit (a : Arbiter) (vc : Nat) (p : KPacket) : (a.add vc p).credit = a.credit := rfl

/-- Of a channel's packets the oldest is one that no other exceeds in age (R22). -/
theorem oldest_spec (l : List KPacket) (h : l ≠ []) : ∃ x, oldest l = some x ∧ x ∈ l ∧ ∀ y ∈ l, y.age ≤ x.age := by
  induction l using List.reverseRecOn with
  | nil => exact absurd rfl h
  | append_singleton l p ih =>
    by_cases hl : l = []
    · subst hl
      exact ⟨p, rfl, by simp, by simp⟩
    · obtain ⟨x, hx, hmem, hage⟩ := ih hl
      have hstep : oldest (l ++ [p]) = if x.age < p.age ∨ (x.age = p.age ∧ p.input < x.input) then some p else some x := by
        unfold oldest at *
        rw [List.foldl_append, hx]
        rfl
      rw [hstep]
      split
      · next hc =>
        refine ⟨p, rfl, by simp, fun y hy => ?_⟩
        rcases List.mem_append.1 hy with hy | hy
        · have := hage y hy
          omega
        · rw [List.mem_singleton.1 hy]
      · next hc =>
        refine ⟨x, rfl, by simp [hmem], fun y hy => ?_⟩
        rcases List.mem_append.1 hy with hy | hy
        · exact hage y hy
        · rw [List.mem_singleton.1 hy]
          omega

/-- A pick leaves the packets and the credit of its arbiter. -/
def PickKeeps (a b : Arbiter) : Prop := b.queues = a.queues ∧ b.credit = a.credit

theorem head_getD_mem {l : List Nat} {d : Nat} (h : l ≠ []) : l.head?.getD d ∈ l := by
  cases l with
  | nil => exact absurd rfl h
  | cons x l => simp

/-- An arbiter picks a ready channel, VC4 before every other (R21). -/
theorem Arbiter.pick_ready (a : Arbiter) (percent : Nat) (h : ∃ v, v < 6 ∧ a.ready v = true) :
    ∃ v b, a.pick percent = (some v, b) ∧ PickKeeps a b ∧ v < 6 ∧ a.ready v = true ∧ (a.ready 4 = true → v = 4) := by
  by_cases h4 : a.ready 4 = true
  · exact ⟨4, a, if_pos h4, ⟨rfl, rfl⟩, by omega, h4, fun _ => rfl⟩
  · unfold Arbiter.pick
    simp only [h4, Bool.false_eq_true, if_false]
    split
    · next hfg =>
      have h5 : a.ready 5 = true := by
        obtain ⟨v, hv, hr⟩ := h
        have hcases : v ∈ [0, 1, 2, 3] ∨ v = 4 ∨ v = 5 := by simp; omega
        rcases hcases with hlow | rfl | rfl
        · exact absurd hr (List.filter_eq_nil_iff.1 hfg v hlow)
        · exact absurd hr h4
        · exact hr
      exact ⟨5, a, by rw [if_pos h5], ⟨rfl, rfl⟩, by omega, h5, False.elim⟩
    · next hfg =>
      split
      · next h5 => exact ⟨5, _, rfl, by rw [if_pos h5.1]; exact ⟨rfl, rfl⟩, by omega, h5.1, False.elim⟩
      · generalize hleft : ([0, 1, 2, 3].filter a.ready).filter (fun vc => decide (a.quota.getD vc 0 ≠ 0)) = left
        have hmem : ((if left = [] then [0, 1, 2, 3].filter a.ready else left).head?).getD 0 ∈ [0, 1, 2, 3].filter a.ready := by
          split
          · exact head_getD_mem hfg
          · next hne =>
            have hin := head_getD_mem (d := 0) hne
            rw [← hleft] at hin ⊢
            exact (List.mem_filter.1 hin).1
        obtain ⟨hlow, hready⟩ := List.mem_filter.1 hmem
        exact ⟨_, _, rfl, by split <;> exact ⟨rfl, rfl⟩, by simp at hlow; omega, hready, False.elim⟩

/-- An arbiter without a ready channel picks none. -/
theorem Arbiter.pick_idle (a : Arbiter) (percent : Nat) (h : ∀ v, v < 6 → a.ready v = false) : (a.pick percent).1 = none := by
  have hfg : [0, 1, 2, 3].filter a.ready = [] := by simp [h]
  simp [Arbiter.pick, h, hfg]


/-- An arbiter that has sent a packet of a channel: its credit spent, the packets that wait one round older (R20, R22). -/
def Arbiter.sent (a : Arbiter) (vc : Nat) (x : KPacket) : Arbiter :=
  ({ a with
    queues := mset [] a.queues vc ((mget [] a.queues vc).erase x),
    credit := mset 0 a.credit vc (mget 0 a.credit vc - 1) }).aged

theorem Arbiter.credit_sent (a : Arbiter) (vc : Nat) (x : KPacket) : mget 0 (a.sent vc x).credit vc = mget 0 a.credit vc - 1 :=
  mget_mset_self ..

/-- A packet added spends and grants no credit. -/
theorem State.credit_add (s : State) (d vc e : Nat) (p : KPacket) :
    ((s.setArb d ((s.arb d).add vc p)).arb e).credit = (s.arb e).credit := by
  by_cases h : d = e
  · subst h
    rw [State.arb_setArb_self, Arbiter.add_credit]
  · rw [State.arb_setArb_ne _ _ h]

/-! Frames received (R16, R17, R20, R27, R313). -/

theorem exec_kolfinFrameReceive (n : Nat) (f : KolfinFrame) (s : State) :
    exec (.kolfinFrameReceive n f) s = execKolfinFrameReceive n f s := rfl

@[simp] theorem State.deliverFrame_out (s : State) (n : Nat) (f : KolfinFrame) : (s.deliverFrame n f).out = s.out := by
  unfold State.deliverFrame
  simp only
  split <;> rfl

@[simp] theorem State.deliverFrame_link (s : State) (n : Nat) (f : KolfinFrame) (m : Nat) : (s.deliverFrame n f).link m = s.link m := by
  unfold State.deliverFrame
  simp only
  split <;> rfl

/-- A frame's credits go to the sender at the receiver's end (R20). -/
theorem State.credit_deliverFrame (s : State) (n : Nat) (f : KolfinFrame) {v : Nat} (hv : v < 6) :
    mget 0 ((s.deliverFrame n f).arb (txOf n)).credit v = mget 0 (s.arb (txOf n)).credit v + f.credits.getD v 0 := by
  have hgrant := (s.arb (txOf n)).credit_grant f.credits hv
  unfold State.deliverFrame
  simp only
  split
  · rw [State.credit_add, State.arb_setArb_self, hgrant]
  · rw [State.arb_setArb_self, hgrant]

/-- At HD a packet for another die in service waits behind those of its channel at that die's output (R17). -/
theorem State.queues_deliverFrame (s : State) {n : Nat} {f : KolfinFrame} (hn : n < 0x10) (hne : Config.kolfinDest f.payload ≠ n)
    (hd : s.dieUp (Config.kolfinDest f.payload) = true) (hup : s.dieUp n = true) (hvc : f.vc < 6) :
    mget [] ((s.deliverFrame n f).arb (0x40 + Config.kolfinDest f.payload)).queues f.vc =
      mget [] (s.arb (0x40 + Config.kolfinDest f.payload)).queues f.vc ++ [⟨n, 0, f.payload⟩] := by
  have hlt : Config.kolfinDest f.payload < s.part.dies := by
    simp only [State.dieUp, Bool.and_eq_true, decide_eq_true_eq] at hd
    exact hd.1
  have htx : txOf n ≠ 0x40 + Config.kolfinDest f.payload := by
    rw [txOf, if_pos hn]
    omega
  unfold State.deliverFrame
  rw [if_pos ⟨hn, hlt, hne, hd, hup, hvc⟩, State.arb_setArb_self, State.arb_setArb_ne _ _ htx]
  exact mget_mset_self ..

/-- The boundary queue through which a receiver's frames come (R27). -/
def State.rxBoundary (s : State) (n : Nat) : Nat := rxQueue (kolfinDomain ((s.linkDies (rxLink n)).headD 0))

/-- A frame may come to receiver `n`. -/
structure FrameComes (s : State) (n : Nat) : Prop where
  run  : s.power.phase = .run
  isRx : n < 0x98
  runs : s.linkRuns (rxLink n) = true
  room : s.boundaryFull (s.rxBoundary n) = false

theorem FrameComes.guard {s : State} {n : Nat} (h : FrameComes s n) :
    ¬((!s.serving) = true ∨ 0x98 ≤ n ∨ (!s.linkRuns (rxLink n)) = true ∨ s.boundaryFull (s.rxBoundary n) = true) := by
  obtain ⟨hrun, hn, hl, hb⟩ := h
  simp [State.serving_of_run hrun, hl, hb, hn]

theorem FrameComes.link_lt {s : State} {n : Nat} (h : FrameComes s n) : rxLink n < 0x98 := by
  have := State.hasLink_lt (State.linkRuns_iff.1 h.runs).1
  omega

/-- Of a receiver's replays those that count at its next frame: asked for among the last 65,536 (R313). -/
def Link.counted (l : Link) : List Nat := l.asks.filter (fun x => l.frames + 1 < x + 65536)

/-- A receiver that has taken the next frame in order. -/
def State.frameTaken (s : State) (n : Nat) : State :=
  let l := s.link n
  s.setLink n { l with frames := l.frames + 1, asks := l.counted, rxSeq := l.rxSeq + 1 }

/-- A receiver that has discarded a frame and asked for a replay. -/
def State.frameDiscarded (s : State) (n : Nat) : State :=
  let l := s.link n
  ((s.setLink n { l with frames := l.frames + 1, asks := l.counted ++ [l.frames + 1] }).addObj 0x8016 (rxLink n) 64 1).emit
    (.kolfinReplay n l.rxSeq)

theorem kolfinFrameReceive_full {s : State} {n : Nat} (f : KolfinFrame) (h : s.boundaryFull (s.rxBoundary n) = true) :
    exec (.kolfinFrameReceive n f) s = .next s := by
  rw [exec_kolfinFrameReceive]
  exact if_pos (.inr (.inr (.inr h)))

theorem kolfinFrameReceive_inOrder {s : State} {n : Nat} {f : KolfinFrame} (h : FrameComes s n) (hcrc : f.crcGood = true)
    (hseq : f.seq = (s.link n).rxSeq) : exec (.kolfinFrameReceive n f) s = .next ((s.frameTaken n).deliverFrame n f) := by
  rw [exec_kolfinFrameReceive]
  exact (if_neg h.guard).trans (if_pos ⟨hcrc, hseq⟩)

theorem kolfinFrameReceive_outOfOrder {s : State} {n : Nat} {f : KolfinFrame} (h : FrameComes s n)
    (hbad : f.crcGood = false ∨ f.seq ≠ (s.link n).rxSeq) : exec (.kolfinFrameReceive n f) s =
      .next ((s.frameDiscarded n).replayBudget (rxLink n) ((s.link n).counted ++ [(s.link n).frames + 1])) := by
  have hnot : ¬(f.crcGood = true ∧ f.seq = (s.link n).rxSeq) := by
    rintro ⟨hcrc, hseq⟩
    rcases hbad with hbad | hbad
    · rw [hcrc] at hbad
      cases hbad
    · exact hbad hseq
  rw [exec_kolfinFrameReceive]
  exact (if_neg h.guard).trans (if_neg hnot)

/-- A discarded frame leaves how far every link has come, and what it expects next. -/
theorem State.frameDiscarded_link (s : State) (n m : Nat) :
    ((s.frameDiscarded n).link m).st = (s.link m).st ∧ ((s.frameDiscarded n).link m).rxSeq = (s.link m).rxSeq := by
  simp only [State.frameDiscarded, State.emit_link, State.addObj_link, State.link_setLink]
  split
  · next e => subst e; exact ⟨rfl, rfl⟩
  · exact ⟨rfl, rfl⟩

/-- R16, R17, R20: the next frame in order is delivered with its credits. -/
theorem kolfin_delivers {s : State} {n : Nat} {f : KolfinFrame} (h : FrameComes s n) (hcrc : f.crcGood = true)
    (hseq : f.seq = (s.link n).rxSeq) :
    ∃ t, exec (.kolfinFrameReceive n f) s = .next t ∧ t.out = s.out ∧ (t.link n).rxSeq = (s.link n).rxSeq + 1 ∧
      (∀ v, v < 6 → mget 0 (t.arb (txOf n)).credit v = mget 0 (s.arb (txOf n)).credit v + f.credits.getD v 0) ∧
      (∀ d, d = Config.kolfinDest f.payload → n < 0x10 → d ≠ n → s.dieUp d = true → s.dieUp n = true → f.vc < 6 →
        mget [] (t.arb (0x40 + d)).queues f.vc = mget [] (s.arb (0x40 + d)).queues f.vc ++ [⟨n, 0, f.payload⟩]) := by
  refine ⟨_, kolfinFrameReceive_inOrder h hcrc hseq, ?_, ?_, fun v hv => ?_, ?_⟩
  · rw [State.deliverFrame_out]
    rfl
  · rw [State.deliverFrame_link]
    simp [State.frameTaken]
  · exact State.credit_deliverFrame _ n f hv
  · rintro d rfl hn hne hd hup hvc
    exact State.queues_deliverFrame (s.frameTaken n) hn hne hd hup hvc

/-- R16, R313: any other frame is discarded and a replay asked for, which counts against the link. -/
theorem kolfin_asks {s : State} {n : Nat} {f : KolfinFrame} (h : FrameComes s n)
    (hbad : f.crcGood = false ∨ f.seq ≠ (s.link n).rxSeq) :
    ∃ t l, exec (.kolfinFrameReceive n f) s = .next t ∧ ((s.link (rxLink n)).st ≠ .limping → t.arbs = s.arbs) ∧
      t.out = s.out ++ .kolfinReplay n (s.link n).rxSeq :: l ∧ (t.link n).rxSeq = (s.link n).rxSeq ∧
      t.obj 0x8016 (rxLink n) = (s.obj 0x8016 (rxLink n) + 1) % 2 ^ 64 ∧
      (16 ≤ (s.link n).counted.length → (s.link (rxLink n)).st = .up → (t.link (rxLink n)).st = .testing) := by
  have hlt := h.link_lt
  obtain ⟨hst, -⟩ := s.frameDiscarded_link n (rxLink n)
  obtain ⟨-, hseq⟩ := s.frameDiscarded_link n n
  obtain ⟨-, kseq, kobj, l, kout⟩ :=
    KeepsReceivers.replayBudget (s.frameDiscarded n) ((s.link n).counted ++ [(s.link n).frames + 1]) hlt
  refine ⟨_, l, kolfinFrameReceive_outOfOrder h hbad, fun hl => ?_, ?_, ?_, ?_, fun hasks hup => ?_⟩
  · exact State.replayBudget_arbs _ _ _ (by rw [hst]; exact hl)
  · rw [kout]
    simp [State.frameDiscarded]
  · rw [kseq, hseq]
  · rw [kobj _ (by omega)]
    simp [State.frameDiscarded]
  · exact State.replayBudget_retrains _ _ _ (by simp; omega) (by rw [hst, hup]; decide)

/-! Frames sent (R20 to R22, R27). -/

theorem exec_kolfinFrameSend (sender : Nat) (s : State) : exec (.kolfinFrameSend sender) s = execKolfinFrameSend sender s := rfl

/-- A sender of the part whose link carries frames. -/
structure MaySend (s : State) (sender : Nat) : Prop where
  run  : s.power.phase = .run
  isTx : sender < 0x48
  runs : s.linkRuns (txLink sender) = true
  up   : 0x40 ≤ sender → s.dieUp (sender - 0x40) = true

theorem MaySend.guard {s : State} {sender : Nat} (h : MaySend s sender) :
    ¬((!s.serving) = true ∨ 0x48 ≤ sender ∨ (!s.linkRuns (txLink sender)) = true ∨
      (0x40 ≤ sender ∧ (!s.dieUp (sender - 0x40)) = true)) := by
  obtain ⟨hrun, hn, hl, hup⟩ := h
  rintro (hs | hs | hs | ⟨hs, hs'⟩)
  · simp [State.serving_of_run hrun] at hs
  · omega
  · simp [hl] at hs
  · simp [hup hs] at hs'

/-- The state after a sender's packet has gone out on a channel, its arbiter being `a` once picked. -/
def State.packetSent (s : State) (sender vc : Nat) (a : Arbiter) (x : KPacket) : State :=
  ((s.setArb sender (a.sent vc x)).boundarySend (kolfinDomain (txDie s.part.dies sender)) x.payload).emit (.kolfin sender vc x.payload)

theorem kolfinFrameSend_picked {s : State} {sender vc : Nat} {a : Arbiter} {x : KPacket} (h : MaySend s sender)
    (hpick : (s.arb sender).pick (bkgPercent (s.obj 0xA001 2)) = (some vc, a)) (hx : oldest (mget [] a.queues vc) = some x) :
    exec (.kolfinFrameSend sender) s = .next (s.packetSent sender vc a x) := by
  rw [exec_kolfinFrameSend]
  refine (if_neg h.guard).trans ?_
  simp only [hpick, hx]
  rfl

theorem kolfinFrameSend_none {s : State} {sender : Nat} (h : MaySend s sender)
    (hpick : ((s.arb sender).pick (bkgPercent (s.obj 0xA001 2))).1 = none) : exec (.kolfinFrameSend sender) s = .next s := by
  rw [exec_kolfinFrameSend]
  refine (if_neg h.guard).trans ?_
  simp only [hpick]

/-- R20 to R22, R27: a sender sends the oldest packet of a ready channel, VC4 first, through its boundary queue. -/
theorem kolfin_sends {s : State} {sender : Nat} (h : MaySend s sender) (hready : ∃ v, v < 6 ∧ (s.arb sender).ready v = true) :
    ∃ t v x, exec (.kolfinFrameSend sender) s = .next t ∧ v < 6 ∧
      (s.arb sender).ready v = true ∧ ((s.arb sender).ready 4 = true → v = 4) ∧ x ∈ mget [] (s.arb sender).queues v ∧
      (∀ y ∈ mget [] (s.arb sender).queues v, y.age ≤ x.age) ∧ t.out = s.out ++ [.kolfin sender v x.payload] ∧
      mget 0 (t.arb sender).credit v = mget 0 (s.arb sender).credit v - 1 ∧ (∀ e, e ≠ sender → t.arb e = s.arb e) ∧
      t = { s with arbs := t.arbs, out := t.out, bq := t.bq } ∧
      ∀ q, q = txQueue (kolfinDomain (txDie s.part.dies sender)) → (s.boundary q).length ≤ boundaryDepth →
        t.boundary q = (if s.boundaryFull q then (s.boundary q).drop 1 else s.boundary q) ++ [x.payload] := by
  obtain ⟨v, a, hpick, ⟨hqueues, hcredit⟩, hv, hvready, hfirst⟩ := (s.arb sender).pick_ready (bkgPercent (s.obj 0xA001 2)) hready
  have hne : mget [] (s.arb sender).queues v ≠ [] := by
    simp only [Arbiter.ready, Bool.and_eq_true, decide_eq_true_eq] at hvready
    exact hvready.1
  obtain ⟨x, hx, hmem, hage⟩ := oldest_spec _ hne
  have hframe := (s.setArb sender (a.sent v x)).boundarySend_frame (kolfinDomain (txDie s.part.dies sender)) x.payload
  refine ⟨_, v, x, kolfinFrameSend_picked h hpick (by rw [hqueues]; exact hx), hv, hvready, hfirst, hmem, hage, ?_, ?_, fun e he => ?_,
    ?_, ?_⟩
  · rw [State.packetSent, State.emit_out, hframe.out, State.setArb_out]
  · rw [State.packetSent, State.emit_arb, hframe.arb, State.arb_setArb_self, Arbiter.credit_sent, hcredit]
  · rw [State.packetSent, State.emit_arb, hframe.arb, State.arb_setArb_ne _ _ (Ne.symm he)]
  · unfold State.packetSent
    generalize (s.setArb sender (a.sent v x)).boundarySend (kolfinDomain (txDie s.part.dies sender)) x.payload = w at hframe
    unfold OnlyBoundary at hframe
    rw [hframe]
    rfl
  · rintro q rfl hroom
    exact State.boundary_boundarySend (s.setArb sender (a.sent v x)) _ _ hroom

theorem kolfin_waits {s : State} {sender : Nat} (h : MaySend s sender) (hidle : ∀ v, v < 6 → (s.arb sender).ready v = false) :
    exec (.kolfinFrameSend sender) s = .next s := kolfinFrameSend_none h ((s.arb sender).pick_idle _ hidle)

/-! Lanes (R313 to R315). -/

theorem exec_kolfinRetrain (n : Nat) (clean : BitVec 64) (s : State) : exec (.kolfinRetrain n clean) s = execKolfinRetrain n clean s := rfl

theorem exec_laneOfferReceive (n : Nat) (words : List (BitVec 32)) (s : State) :
    exec (.laneOfferReceive n words) s = execLaneOfferReceive n words s := rfl

theorem exec_laneOfferTimeout (n : Nat) (s : State) : exec (.laneOfferTimeout n) s = execLaneOfferTimeout n s := rfl

theorem bitOf_toNat (w : BitVec 32) (i : Nat) : bitOf w.toNat i = w.getLsbD i := by
  simp [bitOf, BitVec.getLsbD, Nat.testBit_eq_decide_div_mod_eq]

@[simp] theorem State.clearAsks_obj (s : State) (n i m : Nat) : (s.clearAsks n).obj i m = s.obj i m := rfl

@[simp] theorem State.link_clearAsks (s : State) (n : Nat) : (s.clearAsks n).link n = { s.link n with asks := [] } := by
  simp [State.clearAsks, State.link_setLink]

theorem RecordAlike.clearAsks (s : State) (n : Nat) : RecordAlike s (s.clearAsks n) := (setLink s _ _).trans (setLink _ _ _)

/-- A link set with its asks forgotten, and its width. -/
theorem RecordAlike.setWidth (s : State) {n : Nat} (l : Link) (v : Nat) :
    RecordAlike s (((s.setLink n l).clearAsks n).setObj 0x7010 n v) :=
  ((setLink s n l).trans (clearAsks _ n)).trans (setObj _ v (by omega))

@[simp] theorem State.linkDegraded_link (s : State) (n w : Nat) (b : Bool) (m : Nat) : (s.linkDegraded n w b).link m = s.link m :=
  s.record_link _ m

theorem State.linkDegraded_width (s : State) {n : Nat} (w : Nat) (b : Bool) (h : n < 0x100) :
    (s.linkDegraded n w b).obj 0x7010 n = s.obj 0x7010 n :=
  s.record_obj _ (by simp only [objKey]; omega)

/-- A link's DEGRADED event names the die at the link's own number. -/
theorem State.linkDegraded_lastEvent (s : State) {n w d1 : Nat} {b : Bool} (h : n < 8 ∨ 0x10 ≤ n ∧ n < 0x18)
    (hd : w + b01 b * 2 ^ 31 = d1) :
    LastEvent s (s.linkDegraded n w b) { code := 0x0502, cls := .degraded, die := n % 0x10, d0 := n, d1 := d1 } := by
  have hdie : (if n < 0x10 then n else n - 0x10) = n % 0x10 := by split <;> omega
  unfold State.linkDegraded
  rw [hdie, hd]
  exact s.record_lastEvent _

theorem kolfinRetrain_refused {s : State} {n : Nat} (clean : BitVec 64) (h : s.canRetrain n = false) :
    exec (.kolfinRetrain n clean) s = .next s := by
  rw [exec_kolfinRetrain]
  exact if_pos (by simp [h])

theorem kolfinRetrain_offers {s : State} {n : Nat} (clean : BitVec 64) (hrun : s.power.phase = .run) (hn : s.hasLink n = true)
    (h : s.canRetrain n = true) : ∃ l : Link, l.st = .offered ∧ l.mask = clean.toNat % 2 ^ linkMax n ∧
      exec (.kolfinRetrain n clean) s =
        .next ((((s.setLink n l).addObj 0x8017 n 32 1).record { code := 0x0501, cls := .note, d0 := n }).emit
          (.laneOffer n (offerWords n l.mask false l.attempt))) := by
  refine ⟨_, ?_, ?_, (exec_kolfinRetrain n clean s).trans (if_neg (by simp [State.serving_of_run hrun, hn, h]))⟩ <;> rfl

/-- R313: a retrain offers the lanes that this end received clean. -/
theorem kolfin_offers {s : State} {n : Nat} (clean : BitVec 64) (hrun : s.power.phase = .run) (hn : s.hasLink n = true)
    (h : s.canRetrain n = true) : ∃ t, exec (.kolfinRetrain n clean) s = .next t ∧ (t.link n).st = .offered ∧
      (t.link n).mask = clean.toNat % 2 ^ linkMax n ∧ t.obj 0x8017 n = (s.obj 0x8017 n + 1) % 2 ^ 32 ∧
      LastEvent s t { code := 0x0501, cls := .note, d0 := n } ∧
      .laneOffer n (offerWords n (t.link n).mask false (t.link n).attempt) ∈ t.out := by
  obtain ⟨l, hst, hmask, hexec⟩ := kolfinRetrain_offers clean hrun hn h
  have hlt := State.hasLink_lt hn
  have hlink : (((s.setLink n l).addObj 0x8017 n 32 1).record { code := 0x0501, cls := .note, d0 := n }).link n = l := by
    rw [State.record_link, State.addObj_link, State.link_setLink_self]
  refine ⟨_, hexec, ?_, ?_, ?_, ?_, ?_⟩
  · rw [State.emit_link, hlink, hst]
  · rw [State.emit_link, hlink, hmask]
  · rw [State.emit_obj, State.record_obj _ _ (by simp only [objKey]; omega), State.obj_addObj_self, State.setLink_obj]
  · have halike : RecordAlike s ((s.setLink n l).addObj 0x8017 n 32 1) := (RecordAlike.setLink s n l).trans (.setObj _ _ (by omega))
    exact halike.lastEvent (State.record_lastEvent _ _)
  · rw [State.emit_link, hlink]
    simp

theorem laneOfferReceive_bad (s : State) (n : Nat) {words : List (BitVec 32)} (h : laneFrameOk words = false) :
    exec (.laneOfferReceive n words) s = .next s := by
  rw [exec_laneOfferReceive]
  exact if_pos (by simp [h])

/-- R314: an offer that bears out the attempt before is answered by the echo of the agreed mask. -/
theorem kolfin_echoes {s : State} {n : Nat} {words : List (BitVec 32)} {peer both : Nat} (hrun : s.power.phase = .run)
    (hn : s.hasLink n = true) (hok : laneFrameOk words = true)
    (hpeer : peer = (words.getD 0 0).toNat + (words.getD 1 0).toNat * 2 ^ 32) (hboth : both = (s.link n).mask &&& peer)
    (hst : (s.link n).st = .offered) (hbit : (words.getD 2 0).getLsbD 7 = false)
    (hbefore : ∀ b, (s.link n).before = some b → b = both) :
    ∃ t, exec (.laneOfferReceive n words) s = .next t ∧ (t.link n).st = .echoed ∧ (t.link n).agreed = agreedMask n both ∧
      t.out = s.out ++ [.laneOffer n (offerWords n (agreedMask n both) true (s.link n).attempt)] := by
  have hany : (s.link n).before.any (fun b => decide (b ≠ both)) = false := by
    cases hb : (s.link n).before with
    | none => rfl
    | some b => simp [hbefore b hb]
  have hexec : exec (.laneOfferReceive n words) s =
      .next ((s.setLink n { s.link n with st := .echoed, agreed := agreedMask n both, before := some both }).emit
        (.laneOffer n (offerWords n (agreedMask n both) true (s.link n).attempt))) := by
    subst hboth hpeer
    rw [exec_laneOfferReceive]
    refine (if_neg (by simp [State.serving_of_run hrun, hn, hok])).trans ?_
    simp only [hst, bitOf_toNat, hbit, hany]
    rfl
  refine ⟨_, hexec, ?_, ?_, rfl⟩
  · rw [State.emit_link, State.link_setLink_self]
  · rw [State.emit_link, State.link_setLink_self]

/-- The link up at the width of its agreed mask (R314). -/
def State.linkAgreed (s : State) (n : Nat) : State :=
  (((s.setLink n { s.link n with st := .up, attempt := 0, before := none }).clearAsks n).setObj 0x7010 n (lanesOf (s.link n).agreed).length)

theorem State.linkAgreed_link (s : State) (n : Nat) : ((s.linkAgreed n).link n).st = .up := by simp [State.linkAgreed]

theorem State.linkAgreed_width (s : State) (n : Nat) : (s.linkAgreed n).obj 0x7010 n = (lanesOf (s.link n).agreed).length := by
  simp [State.linkAgreed]

/-- R314: an echo of the agreed mask brings the link up at its width. -/
theorem kolfin_comesUp {s : State} {n : Nat} {words : List (BitVec 32)} {peer : Nat} (hrun : s.power.phase = .run)
    (hn : s.hasLink n = true) (hok : laneFrameOk words = true)
    (hpeer : peer = (words.getD 0 0).toNat + (words.getD 1 0).toNat * 2 ^ 32)
    (hst : (s.link n).st = .echoed) (hbit : (words.getD 2 0).getLsbD 7 = true) (heq : peer = (s.link n).agreed)
    (hsome : lanesOf peer ≠ []) :
    ∃ t, exec (.laneOfferReceive n words) s = .next t ∧ (t.link n).st = .up ∧ t.obj 0x7010 n = (lanesOf peer).length ∧
      ((lanesOf peer).length < linkMax n → LastEvent s t
        { code := 0x0502, cls := .degraded, die := n % 0x10, d0 := n, d1 := (lanesOf peer).length }) := by
  have hlt := State.hasLink_lt hn
  have hexec : exec (.laneOfferReceive n words) s = .next (if (lanesOf peer).length < linkMax n then
      (s.linkAgreed n).linkDegraded n (lanesOf peer).length false else s.linkAgreed n) := by
    have hlen : (lanesOf peer).length ≠ 0 := by simpa using hsome
    rw [exec_laneOfferReceive]
    refine (if_neg (by simp [State.serving_of_run hrun, hn, hok])).trans ?_
    simp only [hst, bitOf_toNat, hbit, ← hpeer, ← heq, ne_eq, not_true_eq_false, if_false, hlen]
    simp only [State.linkAgreed, ← heq]
  refine ⟨_, hexec, ?_, ?_, fun hless => ?_⟩
  · split
    · rw [State.linkDegraded_link, State.linkAgreed_link]
    · exact s.linkAgreed_link n
  · split
    · rw [State.linkDegraded_width _ _ _ (by omega), State.linkAgreed_width, heq]
    · rw [State.linkAgreed_width, heq]
  · rw [if_pos hless]
    exact (RecordAlike.setWidth s _ _).lastEvent (State.linkDegraded_lastEvent _ hlt (by simp [b01]))

theorem laneOfferTimeout_retries {s : State} {n : Nat} (hrun : s.power.phase = .run) (hn : s.hasLink n = true)
    (hst : (s.link n).st = .offered ∨ (s.link n).st = .echoed) :
    exec (.laneOfferTimeout n) s = .next (s.linkRetry n (s.link n).before) := by
  rw [exec_laneOfferTimeout]
  exact if_pos ⟨State.serving_of_run hrun, hn, hst⟩

/-- R314: an attempt without agreement is made again. -/
theorem kolfin_triesAgain {s : State} {n : Nat} (hrun : s.power.phase = .run) (hn : s.hasLink n = true)
    (hst : (s.link n).st = .offered ∨ (s.link n).st = .echoed) (h : (s.link n).attempt < 4) :
    ∃ t, exec (.laneOfferTimeout n) s = .next t ∧ t.out = s.out ∧ (t.link n).st = .testing ∧
      (t.link n).attempt = (s.link n).attempt + 1 := by
  refine ⟨_, laneOfferTimeout_retries hrun hn hst, ?_⟩
  simp [State.linkRetry, h]

/-- R315: after the fifth attempt the link limps, on one lane. -/
theorem kolfin_limps {s : State} {n : Nat} (hrun : s.power.phase = .run) (hn : s.hasLink n = true)
    (hst : (s.link n).st = .offered ∨ (s.link n).st = .echoed) (h : 4 ≤ (s.link n).attempt) :
    ∃ t, exec (.laneOfferTimeout n) s = .next t ∧ (t.link n).st = .limping ∧ t.obj 0x7010 n = 1 ∧
      LastEvent s t { code := 0x0502, cls := .degraded, die := n % 0x10, d0 := n, d1 := 1 + 2 ^ 31 } := by
  have hlt := State.hasLink_lt hn
  have hretry : s.linkRetry n (s.link n).before =
      (((s.setLink n { s.link n with st := .limping }).clearAsks n).setObj 0x7010 n 1).linkDegraded n 1 true := if_neg (by omega)
  refine ⟨_, laneOfferTimeout_retries hrun hn hst, ?_, ?_, ?_⟩
  · rw [hretry, State.linkDegraded_link]
    simp
  · rw [hretry, State.linkDegraded_width _ _ _ (by omega), State.obj_setObj_self]
  · rw [hretry]
    exact (RecordAlike.setWidth s _ _).lastEvent (State.linkDegraded_lastEvent _ hlt (by simp [b01]))

/-- Settles O50: frames received, frames sent and lanes, each by its own lemma. -/
theorem kolfin : Obligations.Kolfin := by
  intro s n sender f clean words hrun
  refine ⟨fun _ hfull => kolfinFrameReceive_full f hfull, fun hn hl hroom => ?_, fun hs hl hup => ?_, fun hn => ?_⟩
  · have hcomes : FrameComes s n := ⟨hrun, hn, hl, hroom⟩
    exact ⟨kolfin_delivers hcomes, kolfin_asks hcomes⟩
  · have hmay : MaySend s sender := ⟨hrun, hs, hl, hup⟩
    exact ⟨kolfin_sends hmay, kolfin_waits hmay⟩
  · refine ⟨kolfinRetrain_refused clean, kolfin_offers clean hrun hn, laneOfferReceive_bad s n,
      fun peer both hok hpeer hboth => ⟨?_, ?_⟩, fun hst => ⟨kolfin_triesAgain hrun hn hst, kolfin_limps hrun hn hst⟩⟩
    · exact kolfin_echoes hrun hn hok hpeer hboth
    · exact kolfin_comesUp hrun hn hok hpeer

end Sys2Proof.Machine
end

section
/-! SUPPORT. Vector descriptors (R114 to R126): what a run with sound sources does, what completing a descriptor leaves as it was, and
the masks that compares and mask logic write (R120), with O9 settled. -/

namespace Sys2Proof.Safety

open Sys2Proof.Machine

/-! What changes one core and counters only. -/

theorem OnlyCoreDict.refl (c : Nat) (s : State) : OnlyCoreDict c s s := ⟨rfl, fun _ _ => rfl⟩

theorem OnlyCoreDict.trans {c : Nat} {s t u : State} (h : OnlyCoreDict c s t) (g : OnlyCoreDict c t u) : OnlyCoreDict c s u := by
  obtain ⟨hstate, hcore⟩ := h
  obtain ⟨gstate, gcore⟩ := g
  refine ⟨?_, fun e he => (gcore e he).trans (hcore e he)⟩
  rw [hstate] at gstate
  exact gstate

theorem OnlyCoreDict.setObj (c : Nat) (s : State) (i n v : Nat) : OnlyCoreDict c s (s.setObj i n v) := ⟨rfl, fun _ _ => rfl⟩

theorem OnlyCoreDict.addObj (c : Nat) (s : State) (i n w v : Nat) : OnlyCoreDict c s (s.addObj i n w v) := .setObj c s i n _

theorem OnlyCoreDict.onCore (c : Nat) (s : State) (f : CoreState → CoreState) : OnlyCoreDict c s (s.onCore c f) :=
  ⟨rfl, fun _ he => s.core_onCore_ne f (Ne.symm he)⟩

end Sys2Proof.Safety

namespace Sys2Proof.Machine

open Sys2Proof.Safety

/-! Sources: what a descriptor that can run reads (R116, R126, R186). -/

/-- A read that meets no flipped bit corrects nothing. -/
theorem State.readWindow_untouched {s : State} {c : Nat} {xs : List (Nat × Nat)}
    (h : ∀ x ∈ xs, ∀ w ∈ (s.core c).flips, wordIn x.1 x.2 w.1 = false) : s.readWindow c xs = s := by
  have hnone : (s.core c).flips.filter (fun w => xs.any (fun x => wordIn x.1 x.2 w.1)) = [] := by
    refine List.filter_eq_nil_iff.2 fun w hw => ?_
    simpa using fun a n hx => h (a, n) hx w hw
  rw [State.readWindow, hnone]
  rfl

/-- The loaded sources of a vector descriptor. -/
def vLoads (k : CoreState) (d : Desc) (nsrc : Nat) : List (Array (Nat × Bool)) :=
  ((List.range nsrc).map (vSrc d.bytes)).map (vLoad k (boundTile k d.bytes nsrc) (vVl d.bytes))

/-- The unmasked elements below VL that widening saturated, counted over the sources (R116). -/
def vSats (k : CoreState) (d : Desc) (nsrc : Nat) : Nat :=
  (vLoads k d nsrc).foldl (fun n a =>
    ((List.range (vVl d.bytes)).filter (fun i => !vMasked k d.bytes i && (a.getD i (0, false)).2)).length + n) 0

theorem vAt_vLoads (k : CoreState) (d : Desc) {nsrc j : Nat} (h : j < nsrc) (i : Nat) :
    vAt (vLoads k d nsrc) j i = vecElem k d nsrc j i := by
  simp [vAt, vLoads, vecElem, List.getD_eq_getElem?_getD, h]

/-- The entry that a run binds is the oldest one where a source is FTQ (R126). -/
theorem boundTile_eq (k : CoreState) (b : List Byte) (nsrc : Nat) :
    (if vUsesFtq ((List.range nsrc).map (vSrc b)) then k.ftq.head? else none) = boundTile k b nsrc := by
  simp only [boundTile, vUsesFtq, List.any_map, Function.comp_def]

/-- A descriptor that can run does not wait for a finished tile. -/
theorem boundTile_ne_none {s : State} {c op nsrc : Nat} {d : Desc} (h : VecReady s c op nsrc d)
    (huses : vUsesFtq ((List.range nsrc).map (vSrc d.bytes)) = true) : boundTile (s.core c) d.bytes nsrc ≠ none := by
  obtain ⟨-, -, hsrc⟩ := h
  rw [← boundTile_eq, if_pos huses]
  simp only [vUsesFtq, List.any_map, List.any_eq_true, List.mem_range, Function.comp_apply, decide_eq_true_eq] at huses
  obtain ⟨i, hi, hkind⟩ := huses
  obtain ⟨⟨-, htile, -⟩, -⟩ := hsrc i hi
  simpa using htile hkind

/-- What holds of each source of a descriptor that can run, over the list of its sources. -/
theorem source_of_vecReady {s : State} {c op nsrc : Nat} {d : Desc} (h : VecReady s c op nsrc d) {x : VSrc}
    (hx : x ∈ (List.range nsrc).map (vSrc d.bytes)) :
    vSrcBad (vVl d.bytes) x = none ∧ ftqBad (boundTile (s.core c) d.bytes nsrc) x = none ∧
      ReadsClean (s.core c) (vReads (boundTile (s.core c) d.bytes nsrc) (vVl d.bytes) x) := by
  obtain ⟨-, -, hsrc⟩ := h
  obtain ⟨i, hi, rfl⟩ := List.mem_map.1 hx
  obtain ⟨⟨hbad, -, hftq⟩, hclean⟩ := hsrc i (List.mem_range.1 hi)
  exact ⟨hbad, hftq, hclean⟩

/-- A vector operation that can run, and whose own check finds nothing, acts on its loaded sources; elements that widening saturated
are counted (R116). -/
theorem State.vRun_ready {s : State} {c op nsrc : Nat} {d : Desc} {extra : CoreState → List Byte → Option (Nat × Nat)}
    (go : CoreState → Desc → Option Ftq → List (Array (Nat × Bool)) → State → State) (h : VecReady s c op nsrc d)
    (hextra : extra (s.core c) d.bytes = none) :
    s.vRun c op nsrc extra go = .next (go (s.core c) d (boundTile (s.core c) d.bytes nsrc) (vLoads (s.core c) d nsrc)
      (s.addObj 0x5012 c 64 (vSats (s.core c) d nsrc))) := by
  have ⟨hhead, hle, _⟩ := h
  have hvl : ¬ 4096 < vVl d.bytes := Nat.not_lt.2 hle
  have hwait : ¬ (vUsesFtq ((List.range nsrc).map (vSrc d.bytes)) = true ∧ boundTile (s.core c) d.bytes nsrc = none) :=
    fun hw => boundTile_ne_none h hw.1 hw.2
  have hbad : ((List.range nsrc).map (vSrc d.bytes)).findSome? (vSrcBad (vVl d.bytes)) = none :=
    List.findSome?_eq_none_iff.2 fun x hx => (source_of_vecReady h hx).1
  have hftq : ((List.range nsrc).map (vSrc d.bytes)).findSome? (ftqBad (boundTile (s.core c) d.bytes nsrc)) = none :=
    List.findSome?_eq_none_iff.2 fun x hx => (source_of_vecReady h hx).2.1
  have hread : s.readWindow c (((List.range nsrc).map (vSrc d.bytes)).flatMap
      (vReads (boundTile (s.core c) d.bytes nsrc) (vVl d.bytes))) = s := by
    refine State.readWindow_untouched fun e he => ?_
    obtain ⟨x, hx, hex⟩ := List.mem_flatMap.1 he
    exact ((source_of_vecReady h hx).2.2 e hex).2
  have hpoison : ((List.range nsrc).map (vSrc d.bytes)).any
      (vPoison (s.core c) (boundTile (s.core c) d.bytes nsrc) (vVl d.bytes)) = false := by
    refine List.any_eq_false.2 fun x hx => ?_
    simpa [vPoison] using fun a n hex => ((source_of_vecReady h hx).2.2 (a, n) hex).1
  simp only [State.vRun, State.vRunOn, hhead, if_neg hvl, hbad, hextra, boundTile_eq, if_neg hwait, hftq, hread, hpoison, if_true,
    Bool.and_false, Bool.false_eq_true, if_false]
  rfl

/-! Completion of a descriptor: the summary register that it names, the release of its finished tile and its retirement
(R121, R123, R124, R126). -/

/-- Counters, the item's non-finite mark and the finished-tile queue of core `c` alone differ. -/
def Marks (c : Nat) (s t : State) : Prop :=
  OnlyCoreDict c s t ∧ t.core c = { s.core c with ftq := (t.core c).ftq, item := (t.core c).item }

theorem Marks.refl (c : Nat) (s : State) : Marks c s s := ⟨.refl c s, rfl⟩

theorem Marks.trans {c : Nat} {s t u : State} (h : Marks c s t) (g : Marks c t u) : Marks c s u := by
  obtain ⟨hstate, hcore⟩ := h
  obtain ⟨gstate, gcore⟩ := g
  refine ⟨hstate.trans gstate, ?_⟩
  rw [hcore] at gcore
  exact gcore

theorem Marks.setObj (c : Nat) (s : State) (i n v : Nat) : Marks c s (s.setObj i n v) := ⟨.setObj c s i n v, rfl⟩

theorem Marks.addObj (c : Nat) (s : State) (i n w v : Nat) : Marks c s (s.addObj i n w v) := .setObj c s i n _

theorem Marks.onCore {c : Nat} (s : State) {f : CoreState → CoreState}
    (hf : f (s.core c) = { s.core c with ftq := (f (s.core c)).ftq, item := (f (s.core c)).item }) : Marks c s (s.onCore c f) := by
  refine ⟨.onCore c s f, ?_⟩
  rw [State.core_onCore_self]
  exact hf

/-- NF_STEP set marks no more than the core's item (R124, R181). -/
theorem Marks.setNf (c : Nat) (s : State) : Marks c s (s.setNf c) := by
  unfold State.setNf
  split
  · exact .setObj c s _ _ _
  · rename_i i _
    have hitem : Marks c s ((s.setObj 0x5018 c 1).onCore c (fun k => { k with item := some { i with nf := true } })) :=
      (Marks.setObj c s _ _ _).trans (.onCore _ rfl)
    simp only
    split
    · exact .setObj c s _ _ _
    · split
      · exact hitem
      · exact (hitem.trans (.setObj c _ _ _ _)).trans (.setObj c _ _ _ _)

/-- An effect on a summary register writes it, and may set NF_STEP. -/
theorem Marks.onSummary (c : Nat) (s : State) (q : Nat) (f : Summary → Summary) :
    Marks c (s.onCore c (fun k => k.setSummary q (f ((s.core c).summary q)))) (s.onSummary c q f) := by
  unfold State.onSummary
  simp only
  split
  · exact .setNf c _
  · exact .refl c _

/-- The summary register that a vector descriptor names, if it names one, written. -/
def State.summarise (s : State) (c : Nat) (b : List Byte) (v : Summary) : State :=
  if wb b 10 20 1 = 1 then s.onCore c (fun k => k.setSummary (wb b 10 17 3) v) else s

theorem OnlyCoreDict.summarise (c : Nat) (s : State) (b : List Byte) (v : Summary) : OnlyCoreDict c s (s.summarise c b v) := by
  unfold State.summarise
  split
  · exact .onCore c s _
  · exact .refl c s

theorem State.summarise_core (s : State) (c : Nat) (b : List Byte) (v : Summary) :
    (s.summarise c b v).core c = { s.core c with summaries := ((s.summarise c b v).core c).summaries } := by
  unfold State.summarise
  split
  · rw [State.core_onCore_self]
    rfl
  · rfl

theorem State.summarise_summary (s : State) (c : Nat) {b : List Byte} (v : Summary) (h : wb b 10 20 1 = 1) :
    ((s.summarise c b v).core c).summary (wb b 10 17 3) = v := by
  rw [State.summarise, if_pos h, State.core_onCore_self]
  exact mget_mset_self ..

/-- What a descriptor that completes makes of its summary register: its effect on the value that it starts from, with STORE_SAT and
the flags of a bound finished tile (R121, R123, R126). -/
def finalSummary (k : CoreState) (b : List Byte) (ftq : Option Ftq) (stored : StoreSum) (upd : Summary → Summary) : Summary :=
  ftqFlags ftq ((upd (startSummary k b)).flag 6 (stored.sats ≠ 0))

/-- A vector descriptor that completes writes the summary register that it names, leaves marks and retires. -/
theorem State.vFinish_marks (s : State) (c : Nat) (d : Desc) (ftq : Option Ftq) (stored : StoreSum) (upd : Summary → Summary) :
    ∃ w, Marks c (s.summarise c d.bytes (finalSummary (s.core c) d.bytes ftq stored upd)) w ∧
      s.vFinish c d ftq stored upd = w.okDesc c 1 d := by
  refine ⟨_, ?_, rfl⟩
  refine Marks.trans ?_ (.addObj c _ _ _ _ _)
  have hsummary : Marks c (s.summarise c d.bytes (finalSummary (s.core c) d.bytes ftq stored upd))
      (if wb d.bytes 10 20 1 = 1 then s.onSummary c (wb d.bytes 10 17 3) (fun v =>
        ftqFlags ftq ((upd (if wb d.bytes 10 21 1 = 1 then Summary.clear else v)).flag 6 (stored.sats ≠ 0))) else s) := by
    unfold State.summarise
    split
    · exact .onSummary c s _ _
    · exact .refl c s
  cases ftq with
  | none => exact hsummary
  | some e =>
    have hnf : ∀ t : State, Marks c t (if e.nan ∨ e.inf then t.setNf c else t) := fun t => by
      split
      · exact .setNf c t
      · exact .refl c t
    have hrelease : ∀ t : State, Marks c t
        (if wb d.bytes 10 22 1 = 1 then t.onCore c (fun k => { k with ftq := k.ftq.drop 1 }) else t) := fun t => by
      split
      · exact .onCore t rfl
      · exact .refl c t
    exact (hsummary.trans (hnf _)).trans (hrelease _)

theorem CoreState.retire_one (k : CoreState) (n : Nat) : k.retire 1 n = { k with vecQ := { k.vecQ with
    waiting := k.vecQ.waiting.filter (fun x => x.num ≠ n), begun := k.vecQ.begun.filter (fun x => x ≠ n) } } := rfl

/-- What completing vector descriptor `d` changes: counters, and of the core its queue, which `d` leaves, summary registers, the
finished-tile queue and the item's mark. -/
structure Completes (c : Nat) (d : Desc) (s t : State) : Prop where
  frame : OnlyCoreDict c s t
  core  : t.core c = { s.core c with
    vecQ := (t.core c).vecQ, summaries := (t.core c).summaries, ftq := (t.core c).ftq, item := (t.core c).item }
  left  : LeftQueue s t c 1 d

/-- A vector descriptor that completes, and the summary register that it names. -/
theorem State.vFinish_completes (s : State) (c : Nat) (d : Desc) (ftq : Option Ftq) (stored : StoreSum) (upd : Summary → Summary) :
    Completes c d s (s.vFinish c d ftq stored upd) ∧ (wb d.bytes 10 20 1 = 1 →
      ((s.vFinish c d ftq stored upd).core c).summary (wb d.bytes 10 17 3) = finalSummary (s.core c) d.bytes ftq stored upd) := by
  obtain ⟨w, ⟨hframe, hcore⟩, hfinish⟩ := s.vFinish_marks c d ftq stored upd
  have hsum := s.summarise_core c d.bytes (finalSummary (s.core c) d.bytes ftq stored upd)
  have hnamed := s.summarise_summary c (finalSummary (s.core c) d.bytes ftq stored upd) (b := d.bytes)
  have hk : (w.okDesc c 1 d).core c = (w.core c).retire 1 d.num := w.core_onCore_self c _
  rw [CoreState.retire_one] at hk
  rw [hfinish]
  refine ⟨⟨((OnlyCoreDict.summarise c s _ _).trans hframe).trans (.onCore c w _), ?_, ?_⟩, fun hq => ?_⟩
  · rw [hk, hcore, hsum]
  · simp only [LeftQueue, CoreState.queue]
    rw [hk, hcore, hsum]
  · rw [← hnamed hq, hk, hcore]
    rfl

/-! Masks (R120). -/

/-- Bits set one by one from the lowest. -/
theorem bitOf_foldl_range (bit : Nat → Bool) (n i : Nat) :
    bitOf ((List.range n).foldl (fun a i => if bit i then a + 2 ^ i else a) 0) i = (decide (i < n) && bit i) := by
  have htest : ∀ w j, bitOf w j = w.testBit j := fun w j => Nat.testBit_eq_decide_div_mod_eq.symm
  induction n generalizing i with
  | zero => simp [bitOf]
  | succ n ih =>
    rw [List.range_succ, List.foldl_append]
    generalize hw : (List.range n).foldl (fun a i => if bit i then a + 2 ^ i else a) 0 = w at ih ⊢
    have hlt : w < 2 ^ n := Nat.lt_pow_two_of_testBit w fun j hj => by rw [← htest, ih]; simp [Nat.not_lt.2 hj]
    simp only [List.foldl_cons, List.foldl_nil]
    by_cases hbit : bit n = true
    · rw [if_pos hbit, htest, Nat.add_comm]
      rcases Nat.lt_trichotomy i n with hi | rfl | hi
      · rw [Nat.testBit_two_pow_add_gt hi, ← htest, ih]
        simp [hi, Nat.lt_succ_of_lt hi]
      · rw [Nat.testBit_two_pow_add_eq, Nat.testBit_lt_two_pow hlt]
        simp [hbit]
      · have hsum : 2 ^ n + w < 2 ^ i := by
          have : 2 ^ (n + 1) ≤ 2 ^ i := Nat.pow_le_pow_right (by decide) hi
          omega
        rw [Nat.testBit_lt_two_pow hsum]
        simp [show ¬ i < n + 1 by omega]
    · rw [if_neg hbit, ih]
      rcases Nat.lt_trichotomy i n with hi | rfl | hi
      · simp [hi, Nat.lt_succ_of_lt hi]
      · simp [hbit]
      · simp [show ¬ i < n + 1 by omega, Nat.not_lt_of_gt hi]

/-- A mask register written holds the bits given below VL and no others. -/
theorem CoreState.bitOf_writeMask (k : CoreState) (b : List Byte) (bit : Nat → Bool) (i : Nat) :
    bitOf (mget 0 (k.writeMask b bit).masks (wb b 9 0 5)) i = if vVl b ≤ i then false else bit i := by
  simp only [CoreState.writeMask, mget_mset_self, bitOf_foldl_range]
  split
  · next h => simp [Nat.not_lt.2 h]
  · next h => simp [Nat.not_le.1 h]

theorem CoreState.writeMask_other (k : CoreState) (b : List Byte) (bit : Nat → Bool) {m : Nat} (h : m ≠ wb b 9 0 5) :
    mget 0 (k.writeMask b bit).masks m = mget 0 k.masks m := mget_mset_ne 0 _ _ (Ne.symm h)

/-- Vector descriptor `d` has written `bit` to its mask register below VL, cleared the rest, and completed. -/
structure WroteMask (c : Nat) (d : Desc) (bit : Nat → Bool) (s t : State) : Prop where
  frame  : OnlyCoreDict c s t
  vector : OnlyVector (s.core c) (t.core c)
  left   : LeftQueue s t c 1 d
  vregs  : (t.core c).vregs = (s.core c).vregs
  sram   : (t.core c).sram = (s.core c).sram
  sdm    : (t.core c).sdm = (s.core c).sdm
  others : ∀ m, m ≠ wb d.bytes 9 0 5 → mget 0 (t.core c).masks m = mget 0 (s.core c).masks m
  bits   : ∀ i, bitOf (mget 0 (t.core c).masks (wb d.bytes 9 0 5)) i = if vVl d.bytes ≤ i then false else bit i

/-- A mask written, saturated elements counted, and the descriptor completed. -/
theorem wroteMask_of_completes {c : Nat} {d : Desc} {bit : Nat → Bool} {s t : State} {sats : Nat}
    (h : Completes c d ((s.addObj 0x5012 c 64 sats).onCore c (fun k => k.writeMask d.bytes bit)) t) : WroteMask c d bit s t := by
  obtain ⟨hframe, hcore, hleft⟩ := h
  rw [State.core_onCore_self, State.addObj_core] at hcore
  have hmasks : (t.core c).masks = ((s.core c).writeMask d.bytes bit).masks := by rw [hcore]
  refine ⟨((OnlyCoreDict.addObj c s _ _ _ _).trans (.onCore c _ _)).trans hframe, ?_, ?_, ?_, ?_, ?_, fun m hm => ?_, fun i => ?_⟩
  · unfold OnlyVector
    rw [hcore]
    rfl
  · unfold LeftQueue at hleft ⊢
    rw [State.core_onCore_self, State.addObj_core] at hleft
    exact hleft
  · rw [hcore]; rfl
  · rw [hcore]; rfl
  · rw [hcore]; rfl
  · rw [hmasks, CoreState.writeMask_other _ _ _ hm]
  · rw [hmasks, CoreState.bitOf_writeMask]

/-! Compares and mask logic (R88, R120). -/

/-- Element `i` of a compare meets a NaN. -/
def compareNan (k : CoreState) (d : Desc) (i : Nat) : Bool :=
  (f32 (vecElem k d 2 0 i)).isNan || (f32 (vecElem k d 2 1 i)).isNan

/-- The bit that a compare gives element `i`: a masked one as the mask mode says, another its predicate, false on a NaN. -/
def compareBit (p : Num → Num → Bool) (k : CoreState) (d : Desc) (i : Nat) : Bool :=
  if vMasked k d.bytes i then (!vZero d.bytes && bitOf (mget 0 k.masks (wb d.bytes 9 0 5)) i)
  else !compareNan k d i && p (f32 (vecElem k d 2 0 i)) (f32 (vecElem k d 2 1 i))

/-- The unmasked elements below VL that meet a NaN, counted. -/
def compareNans (k : CoreState) (d : Desc) : Nat :=
  ((List.range (vVl d.bytes)).filter (fun i => !vMasked k d.bytes i && compareNan k d i)).length

theorem vCompare_ready {op : Nat} (p : Num → Num → Bool) {s : State} {c : Nat} {d : Desc} (h : VecReady s c op 2 d)
    (hdst : maskDstBad (s.core c) d.bytes = none) :
    vCompare op p c s = .next (((s.addObj 0x5012 c 64 (vSats (s.core c) d 2)).onCore c (fun k => k.writeMask d.bytes
        (compareBit p (s.core c) d))).vFinish c d (boundTile (s.core c) d.bytes 2) {}
      (fun v => (v.addNf (compareNans (s.core c) d)).flag 0 (compareNans (s.core c) d ≠ 0))) := by
  refine (State.vRun_ready _ h hdst).trans ?_
  have hzero : ∀ x : Bool, (if vZero d.bytes then false else x) = (!vZero d.bytes && x) := fun x => by cases vZero d.bytes <;> rfl
  simp only [vAt_vLoads _ _ (show 0 < 2 by decide), vAt_vLoads _ _ (show 1 < 2 by decide), hzero]
  rfl

/-- A compare that can run writes its bits, and a named summary register counts its NaNs. -/
theorem vCompare_writes {op : Nat} (p : Num → Num → Bool) {s : State} {c : Nat} {d : Desc} (h : VecReady s c op 2 d)
    (hdst : maskDstBad (s.core c) d.bytes = none) :
    ∃ t, vCompare op p c s = .next t ∧ WroteMask c d (compareBit p (s.core c) d) s t ∧
      (wb d.bytes 10 20 1 = 1 → (t.core c).summary (wb d.bytes 10 17 3) = ftqFlags (boundTile (s.core c) d.bytes 2)
        (((startSummary (s.core c) d.bytes).addNf (compareNans (s.core c) d)).flag 0 (compareNans (s.core c) d ≠ 0))) := by
  obtain ⟨hdone, hsummary⟩ := State.vFinish_completes _ c d _ _ _
  refine ⟨_, vCompare_ready p h hdst, wroteMask_of_completes hdone, fun hq => (hsummary hq).trans ?_⟩
  rw [State.core_onCore_self, State.addObj_core]
  rfl

/-- Mask logic that can run acts on each bit below VL. -/
theorem vMaskOp_writes {op nsrc : Nat} (f : Bool → Bool → Bool) {s : State} {c : Nat} {d : Desc} (h : VecReady s c op 0 d)
    (hsrc : ∀ i, i < nsrc → maskSrcBad d.bytes i = none) (hdst : maskDstBad (s.core c) d.bytes = none) :
    ∃ t, vMaskOp op nsrc f c s = .next t ∧ WroteMask c d (fun i =>
      f (bitOf (mget 0 (s.core c).masks ((vSrc d.bytes 0).addr % 32)) i)
        (bitOf (mget 0 (s.core c).masks ((vSrc d.bytes 1).addr % 32)) i)) s t := by
  have hnone : (List.range nsrc).findSome? (maskSrcBad d.bytes) = none :=
    List.findSome?_eq_none_iff.2 fun i hi => hsrc i (List.mem_range.1 hi)
  refine ⟨_, State.vRun_ready _ h ?_, wroteMask_of_completes (State.vFinish_completes _ c d _ _ _).1⟩
  simp only [hnone, hdst]

/-- Each compare runs by its row of the table. -/
theorem exec_of_cmpTable {p : (Nat → Instr) × Nat × (Num → Num → Bool)} (hp : p ∈ cmpTable) (c : Nat) (s : State) :
    exec (p.1 c) s = vCompare p.2.1 p.2.2 c s := by
  simp only [cmpTable, List.mem_cons, List.not_mem_nil, or_false] at hp
  rcases hp with rfl | rfl | rfl | rfl | rfl | rfl <;> rfl

/-- Each mask operation runs by its row of the table. -/
theorem exec_of_maskTable {p : (Nat → Instr) × Nat × Nat × (Bool → Bool → Bool)} (hp : p ∈ maskTable) (c : Nat) (s : State) :
    exec (p.1 c) s = vMaskOp p.2.1 p.2.2.1 p.2.2.2 c s := by
  simp only [maskTable, List.mem_cons, List.not_mem_nil, or_false] at hp
  rcases hp with rfl | rfl | rfl | rfl | rfl <;> rfl

/-- Settles O9: compares and mask logic each write their mask by their own lemma. -/
theorem vectorMasks : Obligations.VectorMasks := by
  intro s c d hdst
  refine ⟨fun p hp hready nan hnan => ?_, fun p hp hready hsrc => ?_⟩
  · obtain rfl : nan = compareNan (s.core c) d := hnan
    obtain ⟨t, hexec, hmask, hsummary⟩ := vCompare_writes p.2.2 hready hdst
    exact ⟨t, compareNans (s.core c) d, (exec_of_cmpTable hp c s).trans hexec, hmask.frame, hmask.vector, hmask.left, hmask.vregs,
      hmask.sram, hmask.sdm, hmask.others, hmask.bits, rfl, hsummary⟩
  · obtain ⟨t, hexec, hmask⟩ := vMaskOp_writes p.2.2.2 hready hsrc hdst
    exact ⟨t, (exec_of_maskTable hp c s).trans hexec, hmask.frame, hmask.vector, hmask.left, hmask.vregs, hmask.sram, hmask.sdm,
      hmask.others, hmask.bits⟩

end Sys2Proof.Machine
end

section
/-! SUPPORT. Event records (R30, R216, R310, R311, R373): numbering, the record's layout, the log, the telemetry ring and vector 0,
each stated once, and O60 settled. -/

namespace Sys2Proof.Machine

open Sys2Proof.Safety

/-! The layout of a record (R310). -/

/-- The eight words of a record. -/
def Event.words (e : Event) (epoch count step position : Nat) : List Nat :=
  [count, epoch, step % 2 ^ 32, step / 2 ^ 32 % 2 ^ 32, e.code + e.cls.code * 2 ^ 16 + b01 e.selfLost * 2 ^ 19,
    e.die + e.core * 16 + e.unit * 2 ^ 8 + position * 2 ^ 16, e.d0 % 2 ^ 32, e.d1 % 2 ^ 32]

theorem Event.record_length (e : Event) (epoch count step position : Nat) : (e.record epoch count step position).length = 32 :=
  wordsLE_length (e.words epoch count step position)

theorem Event.wd_record (e : Event) (epoch count step position : Nat) {i : Nat} (h : i < 8) :
    wd (e.record epoch count step position) i = (e.words epoch count step position).getD i 0 % 2 ^ 32 := by
  have hword := wd_wordsLE (e.words epoch count step position) [] i h
  rwa [List.append_nil] at hword

theorem EvClass.code_lt (c : EvClass) : c.code < 8 := by cases c <;> decide

/-- The fields of word 4: code, class and the mark of a self-lost event. -/
theorem Event.record_kind (e : Event) (epoch count step position : Nat) (hcode : e.code < 65536) :
    wb (e.record epoch count step position) 4 0 16 = e.code ∧ wb (e.record epoch count step position) 4 16 3 = e.cls.code ∧
      wb (e.record epoch count step position) 4 19 1 = b01 e.selfLost ∧ wb (e.record epoch count step position) 4 20 12 = 0 := by
  have hcls := e.cls.code_lt
  have hlost := b01_le e.selfLost
  simp only [wb, bits, e.wd_record _ _ _ _ (show 4 < 8 by decide), Event.words, List.getD_cons_succ, List.getD_cons_zero]
  omega

/-- The fields of word 5: die, core, unit and position. -/
theorem Event.record_place (e : Event) (epoch count step position : Nat) (hdie : e.die < 16) (hcore : e.core < 16)
    (hunit : e.unit < 256) (hposition : position < 4096) :
    wb (e.record epoch count step position) 5 0 4 = e.die ∧ wb (e.record epoch count step position) 5 4 4 = e.core ∧
      wb (e.record epoch count step position) 5 8 8 = e.unit ∧ wb (e.record epoch count step position) 5 16 12 = position ∧
      wb (e.record epoch count step position) 5 28 4 = 0 := by
  simp only [wb, bits, e.wd_record _ _ _ _ (show 5 < 8 by decide), Event.words, List.getD_cons_succ, List.getD_cons_zero]
  omega

/-- The words that hold one field each: count, epoch, step and the two details. -/
theorem Event.record_words (e : Event) (epoch count step position : Nat) :
    wd (e.record epoch count step position) 0 = count % 2 ^ 32 ∧ wd (e.record epoch count step position) 1 = epoch % 2 ^ 32 ∧
      wd (e.record epoch count step position) 2 = step % 2 ^ 32 ∧
      wd (e.record epoch count step position) 3 = step / 2 ^ 32 % 2 ^ 32 ∧
      wd (e.record epoch count step position) 6 = e.d0 % 2 ^ 32 ∧ wd (e.record epoch count step position) 7 = e.d1 % 2 ^ 32 := by
  refine ⟨e.wd_record _ _ _ _ (by decide), e.wd_record _ _ _ _ (by decide), ?_, ?_, ?_, ?_⟩ <;>
    exact (e.wd_record _ _ _ _ (by decide)).trans (Nat.mod_mod _ _)

/-! Numbering (R30) and the log (R311). -/

theorem State.nextSeq_counts {s : State} (h : s.log.count ≠ 0xFFFFFFFF) :
    s.nextSeq = { s with log := { s.log with count := s.log.count + 1 } } := if_neg h

theorem State.nextSeq_wraps {s : State} (h : s.log.count = 0xFFFFFFFF) :
    s.nextSeq = { s with
      log := { s.log with epoch := s.log.epoch + 1, count := 1 },
      nv := { s.nv with epoch := if s.nv.writable then s.log.epoch + 1 else s.nv.epoch } } := if_pos h

/-- What a record is numbered with is all that numbering it changes. -/
theorem State.nextSeq_frame (s : State) : s.nextSeq.log.records = s.log.records ∧ s.nextSeq.pf0 = s.pf0 ∧
    ∀ i n, s.nextSeq.obj i n = s.obj i n := by
  by_cases h : s.log.count = 0xFFFFFFFF
  · rw [State.nextSeq_wraps h]
    exact ⟨rfl, rfl, fun _ _ => rfl⟩
  · rw [State.nextSeq_counts h]
    exact ⟨rfl, rfl, fun _ _ => rfl⟩

theorem State.logRecord_room {s : State} (r : List Byte) (h : s.log.records.length < 4096) :
    s.logRecord r = { s with log := { s.log with records := s.log.records ++ [r] } } := if_pos h

theorem State.logRecord_full {s : State} (r : List Byte) (h : 4096 ≤ s.log.records.length) :
    s.logRecord r = { s with log := { s.log with records := s.log.records.drop 1 ++ [r] } }.addObj 0xB002 4 64 1 :=
  if_neg (Nat.not_lt.2 h)

/-- The log changes neither the save store nor PF0. -/
theorem State.logRecord_frame (s : State) (r : List Byte) : (s.logRecord r).nv = s.nv ∧ (s.logRecord r).pf0 = s.pf0 := by
  unfold State.logRecord
  split <;> exact ⟨rfl, rfl⟩

/-! The telemetry ring and vectors (R373). -/

theorem State.pf0Reg_setPf0_self (s : State) (a v : Nat) : (s.setPf0 a v).pf0Reg a = v := mget_mset_self ..

theorem State.pf0Reg_setPf0_ne (s : State) {a b : Nat} (v : Nat) (h : a ≠ b) : (s.setPf0 a v).pf0Reg b = s.pf0Reg b :=
  mget_mset_ne _ _ v h

/-- A vector raised changes INT_CAUSE alone of PF0's registers. -/
theorem State.pf0Reg_interrupt_ne (s : State) (v : Nat) {a : Nat} (h : a ≠ 0x44) : (s.interrupt v).pf0Reg a = s.pf0Reg a :=
  s.pf0Reg_setPf0_ne _ (Ne.symm h)

theorem bitOf_setBitOf_zero (w : Nat) : bitOf (setBitOf w 0 true) 0 = true := by
  by_cases h : bitOf w 0 = true
  · rw [setBitOf, if_pos h, h]
  · rw [setBitOf, if_neg h, if_pos rfl]
    simp only [bitOf, pow_zero, Nat.div_one, decide_eq_true_eq] at h ⊢
    omega

/-- Vector 0 raised stands in INT_CAUSE and is sent. -/
theorem State.interrupt_raises (s : State) :
    bitOf ((s.interrupt 0).pf0Reg 0x44) 0 = true ∧ .interrupt 0 0 ∈ (s.interrupt 0).out := by
  constructor
  · rw [show (s.interrupt 0).pf0Reg 0x44 = _ from s.pf0Reg_setPf0_self 0x44 _]
    exact bitOf_setBitOf_zero _
  · exact List.mem_append_right _ (List.mem_singleton.2 rfl)

/-- The telemetry ring is enabled and has a size. -/
def State.ringOn (s : State) : Prop := bitOf (s.pf0Reg 0x2C) 0 = true ∧ s.pf0Reg 0x28 ≠ 0

/-- The slot after TELEM_HEAD is the host's: the ring takes no record more. -/
def State.ringFull (s : State) : Prop := (s.pf0Reg 0x30 + 1) % s.pf0Reg 0x28 = s.pf0Reg 0x34 % s.pf0Reg 0x28

/-- A ring with room takes the record in slot TELEM_HEAD. -/
theorem State.telemetry_writes {s : State} (r : List Byte) (hon : s.ringOn) (hroom : ¬ s.ringFull) :
    .hostWrite (s.pf0Reg 0x20 + 32 * s.pf0Reg 0x30) r ∈ (s.telemetry r).out ∧
      (s.telemetry r).pf0Reg 0x30 = (s.pf0Reg 0x30 + 1) % s.pf0Reg 0x28 := by
  obtain ⟨henabled, hsize⟩ := hon
  have hsent : .hostWrite (s.pf0Reg 0x20 + 32 * s.pf0Reg 0x30) r ∈
      (s.emit (.hostWrite (s.pf0Reg 0x20 + 32 * s.pf0Reg 0x30) r)).out := List.mem_append_right _ (List.mem_singleton.2 rfl)
  unfold State.telemetry
  simp only
  unfold State.ringFull at hroom
  rw [if_neg (by simp [henabled, hsize]), if_neg hroom]
  split
  · exact ⟨List.mem_append_left _ hsent, (State.pf0Reg_interrupt_ne _ _ (by decide)).trans (State.pf0Reg_setPf0_self ..)⟩
  · exact ⟨hsent, State.pf0Reg_setPf0_self ..⟩

/-- A full ring counts the record as a drop. -/
theorem State.telemetry_drops {s : State} (r : List Byte) (hon : s.ringOn) (hfull : s.ringFull) :
    s.telemetry r = s.setPf0 0x38 (if s.pf0Reg 0x38 = 0xFFFFFFFF then 0xFFFFFFFF else s.pf0Reg 0x38 + 1) := by
  obtain ⟨henabled, hsize⟩ := hon
  unfold State.telemetry
  simp only
  unfold State.ringFull at hfull
  rw [if_neg (by simp [henabled, hsize]), if_pos hfull]

/-! What follows the log: the telemetry ring, NOTIFY frames and vector 0. -/

/-- NOTIFY frames change the ports' queues and what is sent alone. -/
theorem State.notify_frame (s : State) (r : List Byte) : s.notify r = { s with ports := (s.notify r).ports, out := (s.notify r).out } := by
  have hkeeps : { s.notify r with ports := s.ports, out := s.out } = { s with ports := s.ports, out := s.out } := by
    refine foldl_keeps (fun u => { u with ports := s.ports, out := s.out }) _ (fun u e => ?_) _ s
    simp only
    split
    · rfl
    · unfold State.sideband
      split <;> rfl
    · rfl
  exact congrArg (fun u : State => { u with ports := (s.notify r).ports, out := (s.notify r).out }) hkeeps

/-- `t` is `s` but for ports, PF0's registers and what is sent. -/
def Reports (s t : State) : Prop := t = { s with ports := t.ports, pf0 := t.pf0, out := t.out }

theorem Reports.trans {s t u : State} (h : Reports s t) (g : Reports t u) : Reports s u := by
  unfold Reports at *
  rw [g, h]

theorem Reports.refl (s : State) : Reports s s := rfl
theorem Reports.emit (s : State) (o : Output) : Reports s (s.emit o) := rfl
theorem Reports.setPf0 (s : State) (a v : Nat) : Reports s (s.setPf0 a v) := rfl
theorem Reports.interrupt (s : State) (v : Nat) : Reports s (s.interrupt v) := rfl

theorem Reports.notify (s : State) (r : List Byte) : Reports s (s.notify r) := by
  unfold Reports
  rw [s.notify_frame r]

theorem Reports.telemetry (s : State) (r : List Byte) : Reports s (s.telemetry r) := by
  unfold State.telemetry
  simp only
  split
  · exact .refl s
  · split
    · exact .setPf0 s _ _
    · have hwritten := (Reports.emit s (.hostWrite (s.pf0Reg 0x20 + 32 * s.pf0Reg 0x30) r)).trans
        (.setPf0 _ 0x30 ((s.pf0Reg 0x30 + 1) % s.pf0Reg 0x28))
      split
      · exact hwritten.trans (.interrupt _ _)
      · exact hwritten

theorem Reports.log {s t : State} (h : Reports s t) : t.log = s.log := by
  rw [h]

theorem Reports.nv {s t : State} (h : Reports s t) : t.nv = s.nv := by
  rw [h]

theorem Reports.obj {s t : State} (h : Reports s t) (i n : Nat) : t.obj i n = s.obj i n := by
  rw [h]
  rfl

/-! One event recorded. -/

/-- The record of event `e`, numbered next. -/
def State.eventRecord (s : State) (e : Event) : List Byte := e.record s.nextSeq.log.epoch s.nextSeq.log.count s.job.step s.position

/-- Event `e` in the log, and nothing more yet. -/
def State.logged (s : State) (e : Event) : State := s.nextSeq.logRecord (s.eventRecord e)

/-- The event on its way to the telemetry ring and to subscribers. -/
def State.reported (s : State) (e : Event) : State := ((s.logged e).telemetry (s.eventRecord e)).notify (s.eventRecord e)

/-- Classes FAULT, HALT and ALARM raise vector 0 (R373). -/
theorem State.recordOne_raising (s : State) {e : Event} (h : e.cls = .fault ∨ e.cls = .halt ∨ e.cls = .alarm) :
    s.recordOne e = (s.reported e).interrupt 0 := if_pos h

theorem State.recordOne_cases (s : State) (e : Event) :
    s.recordOne e = s.reported e ∨ s.recordOne e = (s.reported e).interrupt 0 := by
  by_cases h : e.cls = .fault ∨ e.cls = .halt ∨ e.cls = .alarm
  · exact .inr (s.recordOne_raising h)
  · exact .inl (if_neg h)

theorem State.recordOne_reports (s : State) (e : Event) : Reports (s.logged e) (s.recordOne e) := by
  have hreported : Reports (s.logged e) (s.reported e) := (Reports.telemetry _ _).trans (Reports.notify _ _)
  rcases s.recordOne_cases e with h | h <;> rw [h]
  · exact hreported
  · exact hreported.trans (Reports.interrupt _ _)

/-- After the telemetry ring only INT_CAUSE changes of PF0's registers. -/
theorem State.recordOne_pf0Reg (s : State) (e : Event) {a : Nat} (ha : a ≠ 0x44) :
    (s.recordOne e).pf0Reg a = ((s.logged e).telemetry (s.eventRecord e)).pf0Reg a := by
  have hreported : (s.reported e).pf0Reg a = ((s.logged e).telemetry (s.eventRecord e)).pf0Reg a := by
    rw [State.reported, State.notify_frame]
    rfl
  rcases s.recordOne_cases e with h | h <;> rw [h]
  · exact hreported
  · exact (State.pf0Reg_interrupt_ne _ _ ha).trans hreported

/-- What the telemetry ring has sent stays sent. -/
theorem State.mem_out_recordOne (s : State) (e : Event) {o : Output} (ho : o ∈ ((s.logged e).telemetry (s.eventRecord e)).out) :
    o ∈ (s.recordOne e).out := by
  obtain ⟨-, -, l, hout⟩ := Logs.notify ((s.logged e).telemetry (s.eventRecord e)) (s.eventRecord e)
  have hreported : o ∈ (s.reported e).out := by
    rw [State.reported, hout]
    exact List.mem_append_left _ ho
  rcases s.recordOne_cases e with h | h <;> rw [h]
  · exact hreported
  · exact List.mem_append_left _ hreported

theorem State.recordOne_numbering (s : State) (e : Event) : (s.recordOne e).log.epoch = s.nextSeq.log.epoch ∧
    (s.recordOne e).log.count = s.nextSeq.log.count ∧ (s.recordOne e).nv = s.nextSeq.nv := by
  have hreports := s.recordOne_reports e
  obtain ⟨-, hepoch, hcount⟩ := s.nextSeq.logRecord_log (s.eventRecord e)
  rw [hreports.log, hreports.nv]
  exact ⟨hepoch, hcount, (s.nextSeq.logRecord_frame _).1⟩

theorem State.logged_pf0Reg (s : State) (e : Event) (a : Nat) : (s.logged e).pf0Reg a = s.pf0Reg a := by
  obtain ⟨-, hnext, -⟩ := s.nextSeq_frame
  obtain ⟨-, hlog⟩ := s.nextSeq.logRecord_frame (s.eventRecord e)
  rw [State.pf0Reg, State.logged, hlog, hnext]
  rfl

/-- In the middle of an epoch a record takes the next count. -/
theorem State.recordOne_counts (s : State) (e : Event) (h : s.log.count ≠ 0xFFFFFFFF) :
    (s.recordOne e).log.count = s.log.count + 1 ∧ (s.recordOne e).log.epoch = s.log.epoch ∧ (s.recordOne e).nv = s.nv := by
  obtain ⟨hepoch, hcount, hnv⟩ := s.recordOne_numbering e
  rw [hepoch, hcount, hnv, State.nextSeq_counts h]
  exact ⟨rfl, rfl, rfl⟩

/-- At the end of an epoch a record takes count 1 of the next, which the save store keeps where it can be written. -/
theorem State.recordOne_wraps (s : State) (e : Event) (h : s.log.count = 0xFFFFFFFF) :
    (s.recordOne e).log.count = 1 ∧ (s.recordOne e).log.epoch = s.log.epoch + 1 ∧
      (s.nv.writable = true → s.epochUnstored = false ∧ (s.recordOne e).nv = { s.nv with epoch := s.log.epoch + 1 }) ∧
      (s.nv.writable = false → s.epochUnstored = true ∧ (s.recordOne e).nv = s.nv) := by
  obtain ⟨hepoch, hcount, hnv⟩ := s.recordOne_numbering e
  rw [hepoch, hcount, hnv, State.nextSeq_wraps h]
  exact ⟨rfl, rfl, fun hw => ⟨by simp [State.epochUnstored, hw], by rw [if_pos hw]⟩,
    fun hw => ⟨by simp [State.epochUnstored, h, hw], by rw [if_neg (by simp [hw])]⟩⟩

/-- A log with room keeps what it holds. -/
theorem State.recordOne_appends (s : State) (e : Event) (h : s.log.records.length < 4096) :
    (s.recordOne e).log.records = s.log.records ++ [s.eventRecord e] ∧ (s.recordOne e).obj 0xB002 4 = s.obj 0xB002 4 := by
  have hreports := s.recordOne_reports e
  obtain ⟨hrecords, -, hobj⟩ := s.nextSeq_frame
  rw [hreports.log, hreports.obj, ← hrecords, ← hobj, State.logged, State.logRecord_room _ (by rwa [hrecords])]
  exact ⟨rfl, rfl⟩

/-- A full log loses its oldest record, which is counted. -/
theorem State.recordOne_displaces (s : State) (e : Event) (h : 4096 ≤ s.log.records.length) :
    (s.recordOne e).log.records = s.log.records.drop 1 ++ [s.eventRecord e] ∧
      (s.recordOne e).obj 0xB002 4 = (s.obj 0xB002 4 + 1) % 2 ^ 64 := by
  have hreports := s.recordOne_reports e
  obtain ⟨hrecords, -, hobj⟩ := s.nextSeq_frame
  rw [hreports.log, hreports.obj, ← hrecords, ← hobj, State.logged, State.logRecord_full _ (by rwa [hrecords])]
  exact ⟨rfl, State.obj_addObj_self ..⟩

/-- An enabled ring takes the record in slot TELEM_HEAD, or counts it as a drop where it is full. -/
theorem State.recordOne_telemetry (s : State) (e : Event) (hon : s.ringOn) :
    (¬ s.ringFull → .hostWrite (s.pf0Reg 0x20 + 32 * s.pf0Reg 0x30) (s.eventRecord e) ∈ (s.recordOne e).out ∧
      (s.recordOne e).pf0Reg 0x30 = (s.pf0Reg 0x30 + 1) % s.pf0Reg 0x28) ∧
    (s.ringFull → (s.recordOne e).pf0Reg 0x30 = s.pf0Reg 0x30 ∧
      (s.pf0Reg 0x38 < 0xFFFFFFFF → (s.recordOne e).pf0Reg 0x38 = s.pf0Reg 0x38 + 1)) := by
  have hreg := s.logged_pf0Reg e
  have hon' : (s.logged e).ringOn := by simpa only [State.ringOn, hreg] using hon
  have hfull_iff : (s.logged e).ringFull ↔ s.ringFull := by simp only [State.ringFull, hreg]
  rw [s.recordOne_pf0Reg e (show 0x30 ≠ 0x44 by decide), s.recordOne_pf0Reg e (show 0x38 ≠ 0x44 by decide)]
  refine ⟨fun hroom => ?_, fun hfull => ?_⟩
  · obtain ⟨hsent, hhead⟩ := State.telemetry_writes (s.eventRecord e) hon' (mt hfull_iff.1 hroom)
    simp only [hreg] at hsent hhead
    exact ⟨s.mem_out_recordOne e hsent, hhead⟩
  · rw [State.telemetry_drops _ hon' (hfull_iff.2 hfull), State.pf0Reg_setPf0_ne _ _ (by decide), State.pf0Reg_setPf0_self, hreg, hreg]
    exact ⟨rfl, fun hlt => if_neg (Nat.ne_of_lt hlt)⟩

/-- What recording an event brings about besides its own record: a save-store fault, and ROUTE_MISSING for a NOTIFY without a route
(R30, R216, log 58). -/
theorem State.record_follows (s : State) (e : Event) (w : State)
    (hw : w = if s.epochUnstored then (s.recordOne e).recordOne { code := 0x0507, cls := .degraded } else s.recordOne e) :
    (s.unrouted = [] → s.record e = w) ∧
      ∀ p, s.unrouted = [p] → s.record e = w.recordOne { code := 0x0602, cls := .degraded, d0 := p } := by
  subst hw
  refine ⟨fun hnone => ?_, fun p hone => ?_⟩
  · simp only [State.record, hnone, List.foldl_nil]
  · simp only [State.record, hone, List.foldl_cons, List.foldl_nil]

/-- An event of class FAULT, HALT or ALARM raises vector 0. -/
theorem State.recordOne_raises (s : State) (e : Event) (h : e.cls = .fault ∨ e.cls = .halt ∨ e.cls = .alarm) :
    bitOf ((s.recordOne e).pf0Reg 0x44) 0 = true ∧ .interrupt 0 0 ∈ (s.recordOne e).out := by
  rw [s.recordOne_raising h]
  exact State.interrupt_raises _

/-- Settles O60: the record's layout, its number, the log, the ring and vector 0, each by its own lemma. -/
theorem eventRecords : Obligations.EventRecords := by
  intro s t e r ht hr
  obtain ⟨hepoch, hcount, -⟩ := s.recordOne_numbering e
  have hrecord : r = s.eventRecord e := by rw [hr, ht, hepoch, hcount]; rfl
  obtain ⟨hw0, hw1, hw2, hw3, hw6, hw7⟩ := e.record_words t.log.epoch t.log.count s.job.step s.position
  have hlength := e.record_length t.log.epoch t.log.count s.job.step s.position
  have hkind := e.record_kind t.log.epoch t.log.count s.job.step s.position
  have hplace := e.record_place t.log.epoch t.log.count s.job.step s.position
  have hring := fun hon hsize => s.recordOne_telemetry e ⟨hon, hsize⟩
  have htalks := Talks.recordOne s e
  rw [← hr] at hw0 hw1 hw2 hw3 hw6 hw7 hlength hkind hplace
  rw [← ht] at htalks
  rw [← ht, ← hrecord] at hring
  exact ⟨fun w hw => s.record_follows e w (ht ▸ hw), ht ▸ s.recordOne_counts e, ht ▸ s.recordOne_wraps e,
    hrecord ▸ ht ▸ s.recordOne_appends e, hrecord ▸ ht ▸ s.recordOne_displaces e, hlength, hw0, hw1, hw2, hw3, hw6, hw7,
    hkind, hplace, hring, ht ▸ s.recordOne_raises e, by rw [htalks], by rw [htalks], by rw [htalks]⟩

end Sys2Proof.Machine
end

section
/-! SUPPORT. The security block (R349 to R354, R357, R359, R363, R364): bit fields and the CRC, bank records, quotes and key rotation,
updates of the flash, and alarms, with O53 settled. -/

namespace Sys2Proof.Machine

open Sys2Proof.Safety

/-! Bits and fields of a number. -/

theorem bitOf_eq_testBit (w i : Nat) : bitOf w i = w.testBit i := Nat.testBit_eq_decide_div_mod_eq.symm

theorem bitOf_two_pow_add_self (w i : Nat) : bitOf (2 ^ i + w) i = !bitOf w i := by
  rw [bitOf_eq_testBit, bitOf_eq_testBit, Nat.testBit_two_pow_add_eq]

/-- A clear bit that is set carries into no bit above it. -/
theorem two_pow_add_div {w i : Nat} (h : bitOf w i = false) : (2 ^ i + w) / 2 ^ (i + 1) = w / 2 ^ (i + 1) := by
  have heven : w / 2 ^ i % 2 ≠ 1 := of_decide_eq_false h
  rw [Nat.pow_succ, ← Nat.div_div_eq_div_mul, ← Nat.div_div_eq_div_mul, Nat.add_div_left w (Nat.two_pow_pos i)]
  omega

theorem bitOf_two_pow_add_ne {w i j : Nat} (h : bitOf w i = false) (hij : i ≠ j) : bitOf (2 ^ i + w) j = bitOf w j := by
  rw [bitOf_eq_testBit, bitOf_eq_testBit]
  rcases Nat.lt_or_gt_of_ne hij with hlt | hgt
  · obtain ⟨k, rfl⟩ := Nat.exists_eq_add_of_le (show i + 1 ≤ j from hlt)
    have hshift : ∀ x : Nat, x.testBit (i + 1 + k) = (x / 2 ^ (i + 1)).testBit k := fun x => by
      rw [Nat.testBit_div_two_pow, Nat.add_comm k]
    rw [hshift, hshift, two_pow_add_div h]
  · exact Nat.testBit_two_pow_add_gt hgt w

/-- A number with a bit set is that bit and the number without it. -/
theorem exists_two_pow_add {w i : Nat} (h : bitOf w i = true) : ∃ v, w = 2 ^ i + v ∧ bitOf v i = false := by
  rw [bitOf_eq_testBit] at h
  obtain ⟨v, rfl⟩ := Nat.exists_eq_add_of_le (Nat.ge_two_pow_of_testBit h)
  exact ⟨v, rfl, by rw [← bitOf_eq_testBit, bitOf_two_pow_add_self] at h; simpa using h⟩

theorem setBitOf_same {w i : Nat} {b : Bool} (h : bitOf w i = b) : setBitOf w i b = w := if_pos h

theorem setBitOf_true {w i : Nat} (h : bitOf w i = false) : setBitOf w i true = 2 ^ i + w := by
  simp [setBitOf, h, Nat.add_comm]

theorem setBitOf_false {v i : Nat} (h : bitOf v i = false) : setBitOf (2 ^ i + v) i false = v := by
  simp [setBitOf, bitOf_two_pow_add_self, h]

@[simp] theorem bitOf_setBitOf_self (w i : Nat) (b : Bool) : bitOf (setBitOf w i b) i = b := by
  by_cases h : bitOf w i = b
  · rw [setBitOf_same h, h]
  · cases b with
    | true =>
      have hclear : bitOf w i = false := by simpa using h
      rw [setBitOf_true hclear, bitOf_two_pow_add_self, hclear]
      rfl
    | false =>
      obtain ⟨v, rfl, hv⟩ := exists_two_pow_add (by simpa using h)
      rw [setBitOf_false hv, hv]

theorem bitOf_setBitOf_ne (w : Nat) {i j : Nat} (b : Bool) (hij : i ≠ j) : bitOf (setBitOf w i b) j = bitOf w j := by
  by_cases h : bitOf w i = b
  · rw [setBitOf_same h]
  · cases b with
    | true =>
      have hclear : bitOf w i = false := by simpa using h
      rw [setBitOf_true hclear, bitOf_two_pow_add_ne hclear hij]
    | false =>
      obtain ⟨v, rfl, hv⟩ := exists_two_pow_add (by simpa using h)
      rw [setBitOf_false hv, bitOf_two_pow_add_ne hv hij]

/-- A field replaced reads as what it was replaced by. -/
theorem bits_setBits_self (w lo n v : Nat) : bits (setBits w lo n v) lo n = v % 2 ^ n := by
  have hsplit : setBits w lo n v = w % 2 ^ lo + 2 ^ lo * (2 ^ n * (w / 2 ^ lo / 2 ^ n) + v % 2 ^ n) := by
    have hword := Nat.mod_add_div w (2 ^ lo)
    have hfield := Nat.mod_add_div (w / 2 ^ lo) (2 ^ n)
    generalize w / 2 ^ lo / 2 ^ n = high at hfield ⊢
    rw [setBits, bits]
    generalize w / 2 ^ lo % 2 ^ n = field at hfield ⊢
    rw [← hfield] at hword
    generalize w % 2 ^ lo = low at hword ⊢
    rw [← hword]
    rw [Nat.mul_add, Nat.mul_add, Nat.mul_comm field, Nat.mul_comm (v % 2 ^ n)]
    omega
  rw [hsplit, bits, Nat.add_mul_div_left _ _ (Nat.two_pow_pos lo), Nat.div_eq_of_lt (Nat.mod_lt _ (Nat.two_pow_pos lo)), Nat.zero_add,
    Nat.mul_add_mod, Nat.mod_mod]

/-! The CRC is a word (R40). -/

theorem crcShift_lt (n : Nat) {c : Nat} (h : c < 2 ^ 32) : crcShift n c < 2 ^ 32 := by
  induction n generalizing c with
  | zero => exact h
  | succ n ih =>
    refine ih ?_
    split
    · exact Nat.xor_lt_two_pow (by omega) (by decide)
    · omega

theorem crcByte_lt {c : Nat} (b : Byte) (h : c < 2 ^ 32) : crcByte c b < 2 ^ 32 :=
  crcShift_lt 8 (Nat.xor_lt_two_pow h (by omega))

theorem crc32_lt (bs : List Byte) : crc32 bs < 2 ^ 32 := by
  have hfold : ∀ c, c < 2 ^ 32 → bs.foldl crcByte c < 2 ^ 32 := by
    induction bs with
    | nil => exact fun c h => h
    | cons b bs ih => exact fun c h => ih _ (crcByte_lt b h)
  exact Nat.xor_lt_two_pow (hfold _ (by decide)) (by decide)

/-! Bank records (R349, R353, R354). -/

/-- The first 60 bytes of the record that a bank image is written with: its own, but for SET_SEQ. -/
def recordBody (seq : Nat) (bs : List Byte) : List Byte := leBytes 4 (wd bs 0) ++ leBytes 4 (seq % 2 ^ 32) ++ (bs.drop 8).take 52

/-- The record that a bank image is written with. -/
def recordFor (seq : Nat) (bs : List Byte) : List Byte := recordBody seq bs ++ leBytes 4 (crc32 (recordBody seq bs))

@[simp] theorem State.writeBank_records (s : State) (bank seq : Nat) (bs : List Byte) :
    (s.writeBank bank seq bs).sec.records = mset [] s.sec.records bank (recordFor seq bs) := rfl

@[simp] theorem State.writeBank_banks (s : State) (bank seq : Nat) (bs : List Byte) :
    (s.writeBank bank seq bs).sec.banks =
      mset [] s.sec.banks bank ((bs.drop 64).take (bankEnd (bs.take 64) (bs.drop 64))) := rfl

/-- A bank written changes the flash alone. -/
theorem State.writeBank_frame (s : State) (bank seq : Nat) (bs : List Byte) :
    s.writeBank bank seq bs = { s with sec := (s.writeBank bank seq bs).sec } := rfl

theorem recordBody_length (seq : Nat) {bs : List Byte} (h : 64 ≤ bs.length) : (recordBody seq bs).length = 60 := by
  simp only [recordBody, List.length_append, leBytes_length, List.length_take, List.length_drop]
  omega

/-- A word of a layout is the number whose bytes stand there. -/
theorem wd_of_append {a b : List Byte} {v i : Nat} (h : a.length = 4 * i) : wd (a ++ (leBytes 4 v ++ b)) i = v % 2 ^ 32 := by
  rw [wd, fld, List.drop_left' h, List.take_left' (leBytes_length 4 v), leNat_leBytes, show 256 ^ 4 = 2 ^ 32 from rfl]

/-- The record begins as the bank image does. -/
theorem recordFor_magic (seq : Nat) (bs : List Byte) : wd (recordFor seq bs) 0 = wd bs 0 % 2 ^ 32 := by
  rw [recordFor, recordBody, List.append_assoc, List.append_assoc]
  exact wd_of_append (a := []) rfl

/-- The record has the SET_SEQ that it is written with. -/
theorem recordFor_seq (seq : Nat) (bs : List Byte) : wd (recordFor seq bs) 1 = seq % 2 ^ 32 := by
  rw [recordFor, recordBody, List.append_assoc, List.append_assoc, wd_of_append (leBytes_length 4 _), Nat.mod_mod]

/-- The record is valid where that of the bank image is. -/
theorem bankOk_recordFor (seq : Nat) {bs : List Byte} (hlen : 64 ≤ bs.length) (h : bankOk (bs.take 64) = true) :
    bankOk (recordFor seq bs) = true := by
  have hbody := recordBody_length seq hlen
  simp only [bankOk, Bool.and_eq_true, decide_eq_true_eq] at h ⊢
  obtain ⟨⟨-, hmagic⟩, -⟩ := h
  refine ⟨⟨?_, ?_⟩, ?_⟩
  · rw [recordFor, List.length_append, hbody, leBytes_length]
  · have hword : wd bs 0 = 0x4E39424B := by simpa [wd, fld, List.take_take] using hmagic
    rw [recordFor_magic, hword, Nat.mod_eq_of_lt (by decide)]
  · have hlast := wd_of_append (a := recordBody seq bs) (b := []) (v := crc32 (recordBody seq bs)) (i := 15) hbody
    rw [List.append_nil, Nat.mod_eq_of_lt (crc32_lt _)] at hlast
    rw [recordFor, hlast, List.take_left' hbody]

/-- A bank image that passes every check is at least as long as a record, and its record is valid. -/
theorem State.windowStatus_passes {s : State} {bs : List Byte} (h : s.windowStatus bs = 0) :
    64 ≤ bs.length ∧ bankOk (bs.take 64) = true := by
  unfold State.windowStatus at h
  simp only at h
  split at h
  · cases h
  · next hlen =>
    split at h
    · cases h
    · next hrecord => exact ⟨Nat.le_of_not_lt hlen, by simp_all⟩

/-- The checks of a bank image answer a status code. -/
theorem State.windowStatus_lt (s : State) (bs : List Byte) : s.windowStatus bs < 256 := by
  unfold State.windowStatus
  simp only
  split
  · decide
  · split
    · decide
    · split
      · decide
      · split <;> decide

/-- A bank image that passes is written with a valid record. -/
theorem State.windowStatus_record {s : State} {bs : List Byte} (seq : Nat) (h : s.windowStatus bs = 0) :
    bankOk (recordFor seq bs) = true := by
  obtain ⟨hlen, hrecord⟩ := State.windowStatus_passes h
  exact bankOk_recordFor seq hlen hrecord

/-! Commands answered OK or refused. -/

section
variable {s u : State} {r : NapReq} {i n : Nat} {who : State → NapReq → Bool} {act : State → NapReq → List Byte → Reply}

/-- A command whose action refuses is answered with the refusal. -/
theorem command_refuses {v : State} {status : Nat} (h : Ready s r i n u)
    (hwho : ∀ w : State, (∃ a, u = { w with nap := { w.nap with assemblies := a } }) → who w r = true)
    (hact : act u r (Safety.valueOf s r) = .no v status 0) (hstatus : status < 256) (hrsp : v.nap.rspLen = u.nap.rspLen) :
    ∃ t, s.serveCommand i n r (commandReply r blobLimit who act) = .next t ∧ Answers v t r status 0 [] := by
  have hanswers := command_answers s u r i n who act h hwho
  rw [hact] at hanswers
  exact hanswers rfl hstatus (show 0 < 2 ^ 32 by decide) hrsp

/-- A command whose action leaves `v` is answered OK. -/
theorem command_done {v : State} (h : Ready s r i n u)
    (hwho : ∀ w : State, (∃ a, u = { w with nap := { w.nap with assemblies := a } }) → who w r = true)
    (hact : act u r (Safety.valueOf s r) = .ok v) (hrsp : v.nap.rspLen = u.nap.rspLen) :
    ∃ t, s.serveCommand i n r (commandReply r blobLimit who act) = .next t ∧ Done v t r := by
  have hanswers := command_answers s u r i n who act h hwho
  rw [hact] at hanswers
  exact hanswers rfl (show 0 < 256 by decide) (show 0 < 2 ^ 32 by decide) hrsp

end

/-! Quotes (R357). -/

theorem State.setBlob_frame (s : State) (i n : Nat) (v : List Byte) :
    s.setBlob i n v = { s with blobs := (s.setBlob i n v).blobs, blobVer := (s.setBlob i n v).blobVer } := by
  unfold State.setBlob
  split <;> rfl

@[simp] theorem State.blob_setBlob_self (s : State) (i n : Nat) (v : List Byte) : (s.setBlob i n v).blob i n = v := by
  unfold State.setBlob
  split
  · assumption
  · exact mget_mset_self ..

/-- ATTEST_NONCE's action. -/
def attestAct (t : State) (_ : NapReq) (nonce : List Byte) : Reply :=
  if nonce.length ≠ 32 then .no t stRange 0
  else if !t.hasKey 0 then .no t stInvalid 0
  else .ok (t.setBlob 0x9021 2 (t.quote nonce))

theorem exec_attestNonce (r : NapReq) (s : State) :
    exec (.attestNonce r) s = s.serveCommand 0x9021 1 r (commandReply r blobLimit byAny attestAct) := rfl

theorem attestAct_wrongLength {t : State} {r : NapReq} {nonce : List Byte} (h : nonce.length ≠ 32) : attestAct t r nonce = .no t 4 0 := if_pos h

theorem attestAct_erased {t : State} {r : NapReq} {nonce : List Byte} (h : nonce.length = 32) (hkey : t.hasKey 0 = false) :
    attestAct t r nonce = .no t 7 0 := by
  simp [attestAct, h, hkey, stInvalid]

theorem attestAct_signs {t : State} {r : NapReq} {nonce : List Byte} (h : nonce.length = 32) (hkey : t.hasKey 0 = true) :
    attestAct t r nonce = .ok (t.setBlob 0x9021 2 (t.quote nonce)) := by
  simp [attestAct, h, hkey]

section
variable {s u : State} {r : NapReq} {nonce body : List Byte}

theorem attest_signs (h : Ready s r 0x9021 1 u) (hnonce : nonce = Safety.valueOf s r) (hlen : nonce.length = 32) (hkey : u.hasKey 0 = true)
    (hbody : body = nonce ++ leBytes 8 u.eventSeq ++ sha3 (u.blob 0x1011 0) ++ u.blob 0x1011 0) :
    ∃ t v, exec (.attestNonce r) s = .next t ∧ Done v t r ∧
      v.blob 0x9021 2 = body ++ padTo 2420 (Config.mldsaSign 0 (u.keyGen 0) body) ∧ v = { u with blobs := v.blobs, blobVer := v.blobVer } := by
  subst hnonce hbody
  have hframe := u.setBlob_frame 0x9021 2 (u.quote (Safety.valueOf s r))
  obtain ⟨t, hexec, hdone⟩ := command_done (who := byAny) h (fun _ _ => rfl) (attestAct_signs hlen hkey) (by rw [hframe])
  exact ⟨t, _, hexec, hdone, u.blob_setBlob_self .., hframe⟩

theorem attest_erased (h : Ready s r 0x9021 1 u) (hnonce : nonce = Safety.valueOf s r) (hlen : nonce.length = 32) (hkey : u.hasKey 0 = false) :
    ∃ t, exec (.attestNonce r) s = .next t ∧ Answers u t r 7 0 [] := by
  subst hnonce
  exact command_refuses (who := byAny) h (fun _ _ => rfl) (attestAct_erased (r := r) hlen hkey) (by decide) rfl

theorem attest_wrongLength (h : Ready s r 0x9021 1 u) (hnonce : nonce = Safety.valueOf s r) (hlen : nonce.length ≠ 32) :
    ∃ t, exec (.attestNonce r) s = .next t ∧ Answers u t r 4 0 [] := by
  subst hnonce
  exact command_refuses (who := byAny) h (fun _ _ => rfl) (attestAct_wrongLength (r := r) hlen) (by decide) rfl

end

/-! Keys and their generations (R358, R359). -/

theorem mem_sIns {l : List Nat} {a b : Nat} : b ∈ sIns l a ↔ b = a ∨ b ∈ l := by
  induction l with
  | nil => simp [sIns]
  | cons k l ih =>
    unfold sIns
    split
    · simp
    · split
      · next h => subst h; simp
      · simp only [List.mem_cons, ih]
        exact or_left_comm

theorem State.hasKey_iff {s : State} {k : Nat} : s.hasKey k = true ↔ k ∈ s.sec.held := List.contains_iff_mem

theorem State.newManifestKey_held (s : State) : s.newManifestKey.hasKey 1 = true :=
  State.hasKey_iff.2 (mem_sIns.2 (.inl rfl))

theorem State.newManifestKey_gen (s : State) : s.newManifestKey.keyGen 1 = (s.keyGen 1 + 1) % 2 ^ 24 := mget_mset_self ..

/-- A new manifest key leaves every other slot. -/
theorem State.newManifestKey_other (s : State) {k : Nat} (h : k ≠ 1) :
    s.newManifestKey.keyGen k = s.keyGen k ∧ s.newManifestKey.hasKey k = s.hasKey k := by
  refine ⟨mget_mset_ne _ _ _ (Ne.symm h), Bool.eq_iff_iff.2 ?_⟩
  rw [State.hasKey_iff, State.hasKey_iff]
  exact mem_sIns.trans (or_iff_right h)

theorem Logs.sec {s t : State} (h : Logs s t) : t.sec = s.sec := by
  obtain ⟨h, -⟩ := h
  rw [h]

theorem State.manifestKeyNew_sec (s : State) : s.manifestKeyNew.sec = s.sec := (Logs.record s _).sec

/-- MANIFEST_KEY_ROTATE's action. -/
def rotateAct (t : State) : Reply :=
  if t.job.st ≠ 0 ∨ t.ckpt.cut.isSome then .no t stBusy 0 else .ok t.newManifestKey.manifestKeyNew

theorem exec_manifestKeyRotate (r : NapReq) (s : State) :
    exec (.manifestKeyRotate r) s = s.serveCommand 0x9003 1 r (commandReply r blobLimit byOwner (writeOne rotateAct)) := rfl

theorem writeOne_one {act : State → Reply} {t : State} {r : NapReq} {v : List Byte} (h : leNat v = 1) : writeOne act t r v = act t := if_pos h

section
variable {s u : State} {r : NapReq}

theorem rotate_busy (h : OwnerWrites s r 0x9003 1 u) (hone : leNat (Safety.valueOf s r) = 1) (hbusy : u.job.st ≠ 0 ∨ u.ckpt.cut ≠ none) :
    ∃ t, exec (.manifestKeyRotate r) s = .next t ∧ Answers u t r 8 0 [] := by
  obtain ⟨hready, howner⟩ := h
  have hact : rotateAct u = .no u 8 0 := if_pos (by rwa [Option.isSome_iff_ne_none])
  exact command_refuses hready (fun w hw => owner_of_taken u w r hw howner) ((writeOne_one hone).trans hact) (by decide) rfl

theorem rotate_advances (h : OwnerWrites s r 0x9003 1 u) (hone : leNat (Safety.valueOf s r) = 1) (hidle : u.job.st = 0)
    (hcut : u.ckpt.cut = none) :
    ∃ t v, exec (.manifestKeyRotate r) s = .next t ∧ Done v t r ∧ v.hasKey 1 = true ∧
      v.keyGen 1 = (u.keyGen 1 + 1) % 2 ^ 24 ∧ (∀ k, k ≠ 1 → v.keyGen k = u.keyGen k ∧ v.hasKey k = u.hasKey k) ∧
      LastEvent u v { code := 0x0A06, cls := .note, die := 8, d0 := v.keyGen 1 } := by
  obtain ⟨hready, howner⟩ := h
  have hact : rotateAct u = .ok u.newManifestKey.manifestKeyNew := if_neg (by simp [hidle, hcut])
  obtain ⟨t, hexec, hdone⟩ := command_done hready (fun w hw => owner_of_taken u w r hw howner) ((writeOne_one hone).trans hact)
    (congrArg Nap.rspLen (record_nap _ _))
  have hsec := u.newManifestKey.manifestKeyNew_sec
  have hheld : ∀ k, u.newManifestKey.manifestKeyNew.hasKey k = u.newManifestKey.hasKey k := fun k => by rw [State.hasKey, hsec]; rfl
  have hgen : ∀ k, u.newManifestKey.manifestKeyNew.keyGen k = u.newManifestKey.keyGen k := fun k => by rw [State.keyGen, hsec]; rfl
  have halike : RecordAlike u u.newManifestKey := ⟨rfl, rfl, rfl, rfl⟩
  refine ⟨t, _, hexec, hdone, (hheld 1).trans u.newManifestKey_held, (hgen 1).trans u.newManifestKey_gen, fun k hk => ?_, ?_⟩
  · rw [hheld, hgen]
    exact u.newManifestKey_other hk
  · rw [hgen]
    exact halike.lastEvent (u.newManifestKey.record_lastEvent _)

end

/-! Updates of the flash in service (R354). -/

theorem exec_imageUpdate (r : NapReq) (window : DmaRead) (s : State) :
    exec (.imageUpdate r window) s = s.serveCommand 0x9003 2 r (commandReply r blobLimit byOwner (imageUpdateAct window)) := rfl

section
variable {s u : State} {r : NapReq} {bs x v : List Byte} {now : Nat}

theorem imageUpdateAct_busy {window : DmaRead} (h : u.job.st ≠ 0) : imageUpdateAct window u r v = .no u 8 0 := if_pos h

theorem imageUpdateAct_refuses (hidle : u.job.st = 0) (hx : x = bs.take (u.pf0Reg 0x10 - leNat v)) (h : u.windowStatus x ≠ 0) :
    imageUpdateAct (.data bs) u r v = .no (u.interrupt 5) (u.windowStatus x) 0 := by
  subst hx
  exact (if_neg (not_not.2 hidle)).trans (if_pos h)

theorem imageUpdateAct_writes (hidle : u.job.st = 0) (hx : x = bs.take (u.pf0Reg 0x10 - leNat v))
    (hnow : now = (if u.bootBank = 1 then 1 else 0)) (h : u.windowStatus x = 0) :
    imageUpdateAct (.data bs) u r v = .ok ((u.interrupt 5).writeBank (1 - now) (wd (mget [] u.sec.records now) 1 + 1) x) := by
  subst hx hnow
  exact (if_neg (not_not.2 hidle)).trans (if_neg (not_not.2 h))

theorem update_busy (h : OwnerWrites s r 0x9003 2 u) (hbusy : u.job.st ≠ 0) :
    ∃ t, exec (.imageUpdate r (.data bs)) s = .next t ∧ Answers u t r 8 0 [] := by
  obtain ⟨hready, howner⟩ := h
  exact command_refuses hready (fun w hw => owner_of_taken u w r hw howner) (imageUpdateAct_busy hbusy) (by decide) rfl

theorem update_refused (h : OwnerWrites s r 0x9003 2 u) (hx : x = bs.take (u.pf0Reg 0x10 - leNat (Safety.valueOf s r)))
    (hidle : u.job.st = 0) (hstatus : u.windowStatus x ≠ 0) :
    ∃ t, exec (.imageUpdate r (.data bs)) s = .next t ∧ Answers (u.interrupt 5) t r (u.windowStatus x) 0 [] := by
  obtain ⟨hready, howner⟩ := h
  exact command_refuses hready (fun w hw => owner_of_taken u w r hw howner) (imageUpdateAct_refuses hidle hx hstatus)
    (u.windowStatus_lt x) rfl

theorem update_writes (h : OwnerWrites s r 0x9003 2 u) (hx : x = bs.take (u.pf0Reg 0x10 - leNat (Safety.valueOf s r)))
    (hnow : now = (if u.bootBank = 1 then 1 else 0)) (hidle : u.job.st = 0) (hstatus : u.windowStatus x = 0) :
    ∃ t v rec', exec (.imageUpdate r (.data bs)) s = .next t ∧ Done v t r ∧ v = { u.interrupt 5 with sec := v.sec } ∧
      rec' = mget [] v.sec.records (1 - now) ∧ bankOk rec' = true ∧ wd rec' 1 = (wd (mget [] u.sec.records now) 1 + 1) % 2 ^ 32 ∧
      mget [] v.sec.records now = mget [] u.sec.records now ∧ mget [] v.sec.banks now = mget [] u.sec.banks now := by
  obtain ⟨hready, howner⟩ := h
  obtain ⟨t, hexec, hdone⟩ := command_done hready (fun w hw => owner_of_taken u w r hw howner)
    (imageUpdateAct_writes hidle hx hnow hstatus) rfl
  have hother : 1 - now ≠ now := by omega
  refine ⟨t, _, recordFor (wd (mget [] u.sec.records now) 1 + 1) x, hexec, hdone, State.writeBank_frame .., ?_,
    State.windowStatus_record _ hstatus, recordFor_seq .., ?_, ?_⟩
  · rw [State.writeBank_records, mget_mset_self]
  · rw [State.writeBank_records, mget_mset_ne _ _ _ hother]
    rfl
  · rw [State.writeBank_banks, mget_mset_ne _ _ _ hother]
    rfl

end

/-! Updates of the flash in recovery (R353). -/

/-- RECOVERY_STATUS has the outcome of a doorbell, and vector 5 is raised. -/
def State.doorbellAnswered (s : State) (status : Nat) : State :=
  (s.setPf0 0x18 (setBits (s.pf0Reg 0x18) 8 8 status)).interrupt 5

@[simp] theorem State.doorbellAnswered_power (s : State) (status : Nat) : (s.doorbellAnswered status).power = s.power := by
  rw [State.doorbellAnswered, State.interrupt, State.emit_power, State.setPf0_power, State.setPf0_power]

@[simp] theorem State.doorbellAnswered_sec (s : State) (status : Nat) : (s.doorbellAnswered status).sec = s.sec := by
  rw [State.doorbellAnswered, State.interrupt, State.emit_sec, State.setPf0_sec, State.setPf0_sec]

theorem State.doorbellAnswered_status (s : State) {status : Nat} (h : status < 256) :
    bits ((s.doorbellAnswered status).pf0Reg 0x18) 8 8 = status := by
  rw [State.doorbellAnswered, State.pf0Reg_interrupt_ne _ _ (by decide), State.pf0Reg_setPf0_self, bits_setBits_self]
  exact Nat.mod_eq_of_lt h

/-- SET_SEQ one above the higher of the valid records' (R353). -/
def State.nextSetSeq (s : State) : Nat :=
  let seq := fun (n : Nat) => if bankOk (mget [] s.sec.records n) then wd (mget [] s.sec.records n) 1 else 0
  Nat.max (seq 0) (seq 1) + 1

section
variable {s : State} {offset : Nat} {bs x : List Byte}

theorem recovery_ignored (h : s.power.phase ≠ .recovery) : exec (.recoveryDoorbell offset (.data bs)) s = .next s := if_pos h

theorem exec_recoveryDoorbell_passes (h : s.power.phase = .recovery) (hx : x = bs.take (s.pf0Reg 0x10 - offset)) (hstatus : s.windowStatus x = 0) :
    exec (.recoveryDoorbell offset (.data bs)) s =
      .next (((s.doorbellAnswered (s.windowStatus x)).writeBank 0 s.nextSetSeq x).stretch 2) := by
  subst hx
  exact (if_neg (not_not.2 h)).trans (if_neg (not_not.2 hstatus))

theorem exec_recoveryDoorbell_fails (h : s.power.phase = .recovery) (hx : x = bs.take (s.pf0Reg 0x10 - offset)) (hstatus : s.windowStatus x ≠ 0) :
    exec (.recoveryDoorbell offset (.data bs)) s = .next (s.doorbellAnswered (s.windowStatus x)) := by
  subst hx
  exact (if_neg (not_not.2 h)).trans (if_pos hstatus)

theorem State.stretch_records (s : State) (cause : Nat) : (s.stretch cause).sec.records = s.sec.records := rfl

theorem recovery_passes (h : s.power.phase = .recovery) (hx : x = bs.take (s.pf0Reg 0x10 - offset)) (hstatus : s.windowStatus x = 0) :
    ∃ t, exec (.recoveryDoorbell offset (.data bs)) s = .next t ∧ t.power.phase = .stretch ∧ t.power.cause = 2 ∧
      bankOk (mget [] t.sec.records 0) = true ∧ mget [] t.sec.records 1 = mget [] s.sec.records 1 ∧ t.cores = [] := by
  refine ⟨_, exec_recoveryDoorbell_passes h hx hstatus, rfl, rfl, ?_, ?_, rfl⟩
  · rw [State.stretch_records, State.writeBank_records, mget_mset_self]
    exact State.windowStatus_record _ hstatus
  · rw [State.stretch_records, State.writeBank_records, mget_mset_ne _ _ _ Nat.zero_ne_one, State.doorbellAnswered_sec]

theorem recovery_fails (h : s.power.phase = .recovery) (hx : x = bs.take (s.pf0Reg 0x10 - offset)) (hstatus : s.windowStatus x ≠ 0) :
    ∃ t, exec (.recoveryDoorbell offset (.data bs)) s = .next t ∧ t.power = s.power ∧ t.sec = s.sec ∧
      bits (t.pf0Reg 0x18) 8 8 = s.windowStatus x := by
  exact ⟨_, exec_recoveryDoorbell_fails h hx hstatus, s.doorbellAnswered_power _, s.doorbellAnswered_sec _,
    s.doorbellAnswered_status (s.windowStatus_lt x)⟩

end

/-! What events and commands leave of the security block (R309, R363). -/

/-- Keys, flash and alarm log, the alarm objects, ALARM_N, the phase and the sessions are in `t` as in `s`. -/
structure SecurityAlike (s t : State) : Prop where
  sec    : t.sec = s.sec
  phase  : t.power.phase = s.power.phase
  alarmN : t.power.alarmN = s.power.alarmN
  obj    : ∀ n, n < 0x100 → t.obj 0x9020 n = s.obj 0x9020 n
  slot   : ∀ k, t.slot k = s.slot k

namespace SecurityAlike

theorem refl (s : State) : SecurityAlike s s := ⟨rfl, rfl, rfl, fun _ _ => rfl, fun _ => rfl⟩

theorem trans {s t u : State} (h : SecurityAlike s t) (g : SecurityAlike t u) : SecurityAlike s u :=
  ⟨g.sec.trans h.sec, g.phase.trans h.phase, g.alarmN.trans h.alarmN, fun n hn => (g.obj n hn).trans (h.obj n hn),
    fun k => (g.slot k).trans (h.slot k)⟩

theorem of_logs {s t : State} (h : Logs s t) : SecurityAlike s t := by
  obtain ⟨hframe, hobj, -⟩ := h
  exact ⟨by rw [hframe], by rw [hframe], by rw [hframe], fun n hn => hobj _ _ (by simp only [objKey]; omega), fun k => by rw [hframe]; rfl⟩

theorem setJobState (s : State) (v : Nat) : SecurityAlike s (s.setJobState v) := by
  unfold State.setJobState
  split
  · exact refl s
  · exact ⟨rfl, rfl, rfl, fun _ _ => rfl, fun _ => rfl⟩

theorem leaveJob (s : State) : SecurityAlike s s.leaveJob :=
  trans (t := { s.restartCores with job := { s.job with left := true } }) ⟨rfl, rfl, rfl, fun _ _ => rfl, fun _ => rfl⟩ (setJobState _ 0)

theorem event (s : State) (e : Event) : SecurityAlike s (s.event e) := by
  cases h : e.selfLost with
  | false => exact of_logs (Logs.event s e h)
  | true =>
    have hpin : SecurityAlike s { s.record e with power := { (s.record e).power with faultN := true } } :=
      (of_logs (Logs.record s e)).trans ⟨rfl, rfl, rfl, fun _ _ => rfl, fun _ => rfl⟩
    unfold State.event
    simp only [h, if_true]
    split
    · exact (hpin.trans (of_logs (Logs.command _ _ _ _ _))).trans (leaveJob _)
    · exact hpin

theorem eventIf (s : State) (e : Event) : SecurityAlike s (s.eventIf e) := by
  unfold State.eventIf
  split
  · exact event s e
  · exact refl s

theorem failCut (s : State) : SecurityAlike s s.failCut := by
  unfold State.failCut
  split
  · split
    · exact refl s
    · next c _ _ =>
      have hdone : SecurityAlike s { s with ckpt := { s.ckpt with cut := some { c with done := true } } } :=
        ⟨rfl, rfl, rfl, fun _ _ => rfl, fun _ => rfl⟩
      exact hdone.trans (of_logs (Logs.command _ _ _ _ _))
  · exact refl s

end SecurityAlike

theorem Logs.eventIf (s : State) (e : Event) (h : e.selfLost = false) : Logs s (s.eventIf e) := by
  unfold State.eventIf
  split
  · exact Logs.event s e h
  · exact Logs.refl s

theorem State.setJobState_left (s : State) (v : Nat) : (s.setJobState v).job.left = s.job.left := by
  unfold State.setJobState
  split <;> rfl

/-- After a self-lost fault the package is out of its job (R309). -/
theorem State.event_leaves (s : State) {e : Event} (hcls : e.cls = .fault) (hlost : e.selfLost = true) : (s.event e).job.left = true := by
  unfold State.event
  simp only [hcls, hlost, true_and, if_true]
  cases hleft : s.job.left with
  | false =>
    simp only [if_true]
    exact State.setJobState_left _ _
  | true =>
    simp only [Bool.true_eq_false, if_false]
    obtain ⟨hframe, -⟩ := Logs.record s e
    rw [hframe]
    exact hleft

/-! Keys erased (R364). -/

theorem Security.foldl_nextGen (l : List Nat) (v : Security) :
    l.foldl Security.nextGen v = { v with keyGen := (l.foldl Security.nextGen v).keyGen } := by
  induction l generalizing v with
  | nil => rfl
  | cons k l ih => exact ih (v.nextGen k)

/-- An erase touches generations and held keys alone of the security block, and at most the identity key stays. -/
theorem State.eraseKeys_sec (s : State) (identity : Bool) :
    ∃ gens held, (s.eraseKeys identity).sec = { s.sec with keyGen := gens, held := held } ∧ ∀ k, k ∈ held → k = 0 := by
  have hslots := Security.foldl_nextGen erasedSlots s.sec
  unfold State.eraseKeys
  simp only
  generalize erasedSlots.foldl Security.nextGen s.sec = v at hslots ⊢
  rw [hslots]
  cases identity with
  | true => exact ⟨_, [], rfl, fun k hk => nomatch hk⟩
  | false => exact ⟨_, _, rfl, fun k hk => of_decide_eq_true (List.mem_filter.1 hk).2⟩

theorem mget_map_snd {V : Type} {d : V} {f : V → V} (hd : f d = d) (m : SMap V) (i : Nat) :
    mget d (m.map (fun e => (e.1, f e.2))) i = f (mget d m i) := by
  induction m with
  | nil => exact hd.symm
  | cons e m ih =>
    simp only [List.map_cons, mget, ih]
    split <;> rfl

/-- No session keeps its key through an erase. -/
theorem State.eraseKeys_slot (s : State) (identity : Bool) (k : Nat) : ((s.eraseKeys identity).slot k).key = none :=
  congrArg Session.key (mget_map_snd (d := Session.closed) (f := fun x => { x with key := none, authed := false }) rfl s.nap.sessions k)

/-! A sensor trips (R363, R364). -/

/-- A trip zeroises the identity key too: its level is ERASE, and ERASE_IDENTITY is set. -/
def State.tripIdentity (s : State) (sensor : Nat) : Bool := s.sensorLevel sensor = 2 && s.obField 15 16 1 = 1

/-- The sensor reads tripped, and where its level is ERASE the keys are zeroised and an open cut fails. -/
def State.tripBase (s : State) (sensor : Nat) : State :=
  let s0 := s.setObj 0x9020 2 (setBitOf (s.obj 0x9020 2) sensor true)
  if s.sensorLevel sensor = 2 then (s0.eraseKeys (s.tripIdentity sensor)).failCut else s0

/-- The level that a trip leaves. -/
def State.trippedLevel (s : State) (sensor : Nat) : Nat := Nat.max s.alarmLevel (s.sensorLevel sensor + 1)

/-- The trip in the alarm log. -/
def State.tripLogged (s : State) (sensor source : Nat) : State :=
  let s1 := s.tripBase sensor
  { s1 with sec := { s1.sec.log (alarmEntry s sensor (s.sensorLevel sensor) source (s.tripIdentity sensor)) with
    raised := s1.sec.raised ++ [(sensor, s.sensorLevel sensor)] } }

@[simp] theorem State.tripLogged_slot (s : State) (sensor source k : Nat) : (s.tripLogged sensor source).slot k = (s.tripBase sensor).slot k := rfl
@[simp] theorem State.tripLogged_power (s : State) (sensor source : Nat) : (s.tripLogged sensor source).power = (s.tripBase sensor).power := rfl
@[simp] theorem State.tripLogged_held (s : State) (sensor source : Nat) : (s.tripLogged sensor source).sec.held = (s.tripBase sensor).sec.held := rfl

@[simp] theorem State.tripLogged_count (s : State) (sensor source : Nat) :
    (s.tripLogged sensor source).sec.count = (s.tripBase sensor).sec.count + 1 := rfl

@[simp] theorem State.tripLogged_obj (s : State) (sensor source i n : Nat) :
    (s.tripLogged sensor source).obj i n = (s.tripBase sensor).obj i n := rfl

/-- ALARM_N asserted. -/
def State.assertAlarm (s : State) : State := { s with power := { s.power with alarmN := true } }

@[simp] theorem State.assertAlarm_alarmN (s : State) : s.assertAlarm.power.alarmN = true := rfl
@[simp] theorem State.assertAlarm_phase (s : State) : s.assertAlarm.power.phase = s.power.phase := rfl
@[simp] theorem State.assertAlarm_sec (s : State) : s.assertAlarm.sec = s.sec := rfl
@[simp] theorem State.assertAlarm_slot (s : State) (k : Nat) : s.assertAlarm.slot k = s.slot k := rfl
@[simp] theorem State.assertAlarm_obj (s : State) (i n : Nat) : s.assertAlarm.obj i n = s.obj i n := rfl

/-- The trip logged and the level raised, before its events. -/
def State.tripRaised (s : State) (sensor source : Nat) : State :=
  let s2 := (s.tripLogged sensor source).setObj 0x9020 1 (s.trippedLevel sensor)
  if 2 ≤ s.trippedLevel sensor then s2.assertAlarm else s2

/-- ALARM_RAISED, and where the keys are zeroised the event that says so, recorded. -/
def State.tripReported (s : State) (sensor source : Nat) : State :=
  let s4 := (s.tripRaised sensor source).eventIf { code := 0x0A03, cls := .alarm, die := 8, d0 := sensor + s.sensorLevel sensor * 2 ^ 4 }
  if s.sensorLevel sensor = 2 then
    s4.eventIf { code := 0x0A04, cls := .alarm, die := 8, d0 := b01 (s.tripIdentity sensor) }
  else s4

/-- ALARM_LOCKOUT. -/
def State.lockout (s : State) (level : Nat) : State :=
  s.eventIf { code := 0x0A08, cls := .fault, selfLost := true, die := 8, d0 := level - 1 }

theorem State.trip_eq (s : State) (sensor source : Nat) : s.trip sensor source =
    if s.alarmLevel < s.trippedLevel sensor ∧ 2 ≤ s.trippedLevel sensor then (s.tripReported sensor source).lockout (s.trippedLevel sensor)
    else s.tripReported sensor source := rfl

/-- The sensor reads tripped; the phase and the length of the alarm log stand as they were. -/
theorem State.tripBase_keeps (s : State) (sensor : Nat) : (s.tripBase sensor).power.phase = s.power.phase ∧
    (s.tripBase sensor).sec.count = s.sec.count ∧ (s.tripBase sensor).obj 0x9020 2 = setBitOf (s.obj 0x9020 2) sensor true := by
  unfold State.tripBase
  simp only
  generalize hs0 : s.setObj 0x9020 2 (setBitOf (s.obj 0x9020 2) sensor true) = s0
  have hbit : s0.obj 0x9020 2 = setBitOf (s.obj 0x9020 2) sensor true := by rw [← hs0, State.obj_setObj_self]
  have hphase : s0.power.phase = s.power.phase := by rw [← hs0, State.setObj_power]
  have hcount : s0.sec.count = s.sec.count := by rw [← hs0, State.setObj_sec]
  split
  · have halike := SecurityAlike.failCut (s0.eraseKeys (s.tripIdentity sensor))
    obtain ⟨gens, held, hsec, -⟩ := s0.eraseKeys_sec (s.tripIdentity sensor)
    exact ⟨halike.phase.trans hphase, by rw [halike.sec, hsec, hcount], (halike.obj 2 (by decide)).trans hbit⟩
  · exact ⟨hphase, hcount, hbit⟩

/-- A sensor of level ALERT or LOCK leaves the keys. -/
theorem State.tripBase_held {s : State} {sensor : Nat} (h : s.sensorLevel sensor < 2) : (s.tripBase sensor).sec.held = s.sec.held := by
  rw [State.tripBase, if_neg (Nat.ne_of_lt h), State.setObj_sec]

/-- A sensor of level ERASE leaves no key but the identity key, and no session its key. -/
theorem State.tripBase_erased {s : State} {sensor : Nat} (h : s.sensorLevel sensor = 2) :
    (∀ k, k ∈ (s.tripBase sensor).sec.held → k = 0) ∧ ∀ k, ((s.tripBase sensor).slot k).key = none := by
  rw [State.tripBase, if_pos h]
  generalize s.setObj 0x9020 2 (setBitOf (s.obj 0x9020 2) sensor true) = s0
  have halike := SecurityAlike.failCut (s0.eraseKeys (s.tripIdentity sensor))
  obtain ⟨gens, held, hsec, hheld⟩ := s0.eraseKeys_sec (s.tripIdentity sensor)
  refine ⟨fun k hk => hheld k ?_, fun k => ?_⟩
  · rwa [halike.sec, hsec] at hk
  · rw [halike.slot]
    exact s0.eraseKeys_slot _ k

/-- The level raised, with or without ALARM_N. -/
theorem State.tripRaised_cases (s : State) (sensor source : Nat) :
    s.tripRaised sensor source = (s.tripLogged sensor source).setObj 0x9020 1 (s.trippedLevel sensor) ∨
      s.tripRaised sensor source = ((s.tripLogged sensor source).setObj 0x9020 1 (s.trippedLevel sensor)).assertAlarm := by
  unfold State.tripRaised
  simp only
  split
  · exact .inr rfl
  · exact .inl rfl

theorem State.tripRaised_slot (s : State) (sensor source k : Nat) : (s.tripRaised sensor source).slot k = (s.tripBase sensor).slot k := by
  rcases s.tripRaised_cases sensor source with h | h <;> simp [h]

theorem State.tripRaised_phase (s : State) (sensor source : Nat) : (s.tripRaised sensor source).power.phase = s.power.phase := by
  obtain ⟨hphase, -, -⟩ := s.tripBase_keeps sensor
  rcases s.tripRaised_cases sensor source with h | h <;> simp [h, hphase]

theorem State.tripRaised_sec (s : State) (sensor source : Nat) : (s.tripRaised sensor source).sec.held = (s.tripBase sensor).sec.held ∧
    (s.tripRaised sensor source).sec.count = (s.tripBase sensor).sec.count + 1 := by
  rcases s.tripRaised_cases sensor source with h | h <;> simp [h]

theorem State.tripRaised_obj (s : State) (sensor source : Nat) : (s.tripRaised sensor source).obj 0x9020 1 = s.trippedLevel sensor ∧
    (s.tripRaised sensor source).obj 0x9020 2 = (s.tripBase sensor).obj 0x9020 2 := by
  have hother := (s.tripLogged sensor source).obj_setObj_ne (s.trippedLevel sensor) (show objKey 0x9020 1 ≠ objKey 0x9020 2 by decide)
  rcases s.tripRaised_cases sensor source with h | h <;> simp [h, hother]

/-- A level of LOCK or ERASE asserts ALARM_N. -/
theorem State.tripRaised_alarmN {s : State} {sensor : Nat} (source : Nat) (h : 2 ≤ s.trippedLevel sensor) :
    (s.tripRaised sensor source).power.alarmN = true := by
  rw [State.tripRaised, if_pos h, State.assertAlarm_alarmN]

theorem State.tripReported_logs (s : State) (sensor source : Nat) : Logs (s.tripRaised sensor source) (s.tripReported sensor source) := by
  unfold State.tripReported
  simp only
  split
  · exact (Logs.eventIf _ _ rfl).trans (Logs.eventIf _ _ rfl)
  · exact Logs.eventIf _ _ rfl

/-- What follows a raised level leaves the security block as it is. -/
theorem State.trip_alike (s : State) (sensor source : Nat) : SecurityAlike (s.tripRaised sensor source) (s.trip sensor source) := by
  have hreported := SecurityAlike.of_logs (s.tripReported_logs sensor source)
  rw [State.trip_eq]
  split
  · exact hreported.trans (SecurityAlike.eventIf _ _)
  · exact hreported

/-- A level that rises to LOCK or ERASE takes the package out of its job. -/
theorem State.trip_leaves {s : State} {sensor : Nat} (source : Nat) (hrun : s.power.phase = .run)
    (hrises : s.alarmLevel < s.trippedLevel sensor ∧ 2 ≤ s.trippedLevel sensor) : (s.trip sensor source).job.left = true := by
  have hphase := (SecurityAlike.of_logs (s.tripReported_logs sensor source)).phase.trans (s.tripRaised_phase sensor source)
  have hlogs : (s.tripReported sensor source).logs = true := by simp [State.logs, hphase, hrun]
  rw [State.trip_eq, if_pos hrises, State.lockout, State.eventIf, if_pos hlogs]
  exact State.event_leaves _ rfl rfl

theorem exec_alarmSensorTrip (sensor source : Nat) (s : State) :
    exec (.alarmSensorTrip sensor source) s = .next (if s.armed sensor source then s.trip sensor source else s) := rfl

theorem alarm_notArmed {s : State} {sensor source : Nat} (h : s.armed sensor source = false) :
    exec (.alarmSensorTrip sensor source) s = .next s := by
  rw [exec_alarmSensorTrip, h]
  rfl

theorem alarm_trips {s : State} {sensor source : Nat} (h : s.armed sensor source = true) :
    ∃ t, exec (.alarmSensorTrip sensor source) s = .next t ∧
      t.alarmLevel = Nat.max s.alarmLevel (s.sensorLevel sensor + 1) ∧ bitOf (t.obj 0x9020 2) sensor = true ∧
      t.sec.count = s.sec.count + 1 ∧ (1 ≤ s.sensorLevel sensor → t.power.alarmN = true) ∧
      (s.sensorLevel sensor < 2 → t.sec.held = s.sec.held) ∧
      (s.sensorLevel sensor = 2 → (∀ k, 1 ≤ k → t.hasKey k = false) ∧ ∀ k, (t.slot k).key = none) ∧
      (s.power.phase = .run → s.alarmLevel ≤ s.sensorLevel sensor → 1 ≤ s.sensorLevel sensor → t.job.left = true) := by
  have halike := s.trip_alike sensor source
  obtain ⟨hheld, hcount⟩ := s.tripRaised_sec sensor source
  obtain ⟨hlevel, htripped⟩ := s.tripRaised_obj sensor source
  obtain ⟨-, hbase, hbit⟩ := s.tripBase_keeps sensor
  have hrises : s.sensorLevel sensor + 1 ≤ s.trippedLevel sensor := Nat.le_max_right _ _
  refine ⟨s.trip sensor source, by rw [exec_alarmSensorTrip, h]; rfl, (halike.obj 1 (by decide)).trans hlevel, ?_, ?_, fun hlock => ?_,
    fun hkeeps => ?_, fun herase => ?_, fun hrun hle hlock => ?_⟩
  · rw [halike.obj 2 (by decide), htripped, hbit, bitOf_setBitOf_self]
  · rw [halike.sec, hcount, hbase]
  · rw [halike.alarmN]
    exact State.tripRaised_alarmN source (by omega)
  · rw [halike.sec, hheld]
    exact State.tripBase_held hkeeps
  · obtain ⟨hkeys, hsessions⟩ := State.tripBase_erased herase
    refine ⟨fun k hk => ?_, fun k => ?_⟩
    · rw [← Bool.not_eq_true, State.hasKey_iff, halike.sec, hheld]
      exact fun hmem => Nat.ne_of_gt hk (hkeys k hmem)
    · rw [halike.slot, State.tripRaised_slot]
      exact hsessions k
  · exact State.trip_leaves source hrun ⟨by omega, by omega⟩

/-! A sensor no longer reads tripped (R364). -/

/-- The sensor's bit in ALARM_SENSORS cleared. -/
def State.sensorCleared (s : State) (sensor : Nat) : State := s.setObj 0x9020 2 (setBitOf (s.obj 0x9020 2) sensor false)

@[simp] theorem State.sensorCleared_alarmLevel (s : State) (sensor : Nat) : (s.sensorCleared sensor).alarmLevel = s.alarmLevel :=
  s.obj_setObj_ne _ (by decide)

@[simp] theorem State.sensorCleared_sec (s : State) (sensor : Nat) : (s.sensorCleared sensor).sec = s.sec := s.setObj_sec ..

@[simp] theorem State.sensorCleared_obj (s : State) (sensor : Nat) :
    (s.sensorCleared sensor).obj 0x9020 2 = setBitOf (s.obj 0x9020 2) sensor false := s.obj_setObj_self ..

/-- No sensor that raised the level reads tripped. -/
def State.noneRaises (s : State) : Bool := s.sec.raised.all (fun x => !bitOf (s.obj 0x9020 2) x.1)

/-- The level fallen to none. -/
def State.levelFallen (s : State) : State := { s with sec := { s.sec with raised := [] } }.setObj 0x9020 1 0

theorem State.levelFallen_alarmLevel (s : State) : s.levelFallen.alarmLevel = 0 := State.obj_setObj_self ..

theorem State.levelFallen_obj (s : State) : s.levelFallen.obj 0x9020 2 = s.obj 0x9020 2 := State.obj_setObj_ne _ _ (by decide)

theorem State.untrip_eq (s : State) {sensor : Nat} (h : sensor < 4) : s.untrip sensor =
    if s.alarmLevel = 1 ∧ (s.sensorCleared sensor).noneRaises then (s.sensorCleared sensor).levelFallen else s.sensorCleared sensor := by
  rw [← s.sensorCleared_alarmLevel sensor]
  simp only [State.untrip, h, if_true]
  rfl

/-- Where no other sensor that raised the level reads tripped, none does once this one is cleared. -/
theorem State.noneRaises_sensorCleared {s : State} {sensor : Nat}
    (h : ∀ x ∈ s.sec.raised, x.1 ≠ sensor → bitOf (s.obj 0x9020 2) x.1 = false) : (s.sensorCleared sensor).noneRaises = true := by
  refine List.all_eq_true.2 fun x hx => ?_
  rw [State.sensorCleared_sec] at hx
  rw [State.sensorCleared_obj, Bool.not_eq_true']
  by_cases heq : x.1 = sensor
  · rw [heq, bitOf_setBitOf_self]
  · rw [bitOf_setBitOf_ne _ _ (Ne.symm heq)]
    exact h x hx heq

theorem alarm_clears {s : State} {sensor : Nat} (h : sensor < 4) :
    ∃ t, exec (.alarmSensorClear sensor) s = .next t ∧ bitOf (t.obj 0x9020 2) sensor = false ∧
      (s.alarmLevel = 1 → (∀ x ∈ s.sec.raised, x.1 ≠ sensor → bitOf (s.obj 0x9020 2) x.1 = false) → t.alarmLevel = 0) ∧
      (s.alarmLevel ≠ 1 → t.alarmLevel = s.alarmLevel) := by
  refine ⟨s.untrip sensor, rfl, ?_, fun hlevel hraised => ?_, fun hlevel => ?_⟩
  · rw [State.untrip_eq s h]
    split
    · rw [State.levelFallen_obj, State.sensorCleared_obj, bitOf_setBitOf_self]
    · rw [State.sensorCleared_obj, bitOf_setBitOf_self]
  · rw [State.untrip_eq s h, if_pos ⟨hlevel, State.noneRaises_sensorCleared hraised⟩, State.levelFallen_alarmLevel]
  · rw [State.untrip_eq s h, if_neg (fun hfalls => hlevel hfalls.1), State.sensorCleared_alarmLevel]

/-- Settles O53: quotes, key rotation, updates of the flash in service and in recovery, and alarms, each by its own lemma. -/
theorem security : Obligations.Security := by
  intro s u r sensor source offset bs nonce body
  refine ⟨fun h hnonce => ?_, fun h hone => ?_, fun h x now hx hnow => ?_, fun h x hx => ?_, recovery_ignored, alarm_trips, alarm_notArmed,
    alarm_clears⟩
  · exact ⟨attest_signs h hnonce, attest_erased h hnonce, attest_wrongLength h hnonce⟩
  · exact ⟨rotate_busy h hone, rotate_advances h hone⟩
  · exact ⟨update_busy h, update_refused h hx, update_writes h hx hnow⟩
  · exact ⟨recovery_passes h hx, recovery_fails h hx⟩

end Sys2Proof.Machine
end
